-- ==== Sys2Proof/Word.lean ====
section
/-! DEFINITION. The machine's words and the sparse tables that hold indexed state. -/
namespace Sys2Proof

/-- A byte of memory. -/
abbrev Byte := BitVec 8
/-- A scalar, a predicate, an operand value (R299). -/
abbrev W64 := BitVec 64
/-- An owner tag: writing slot in [15:10], low 10 bits of the generation in [9:0] (R111). -/
abbrev Tag := BitVec 16
/-- A trap or status code (R8, R295). -/
abbrev Code := BitVec 8
/-- A vector register (R335). -/
abbrev VReg := BitVec 2048
/-- A table from numbers to values: keys rise strictly, and a key that is not listed reads as the
table's default, which no entry holds. -/
abbrev Tbl (α : Type) := List (Nat × α)

end Sys2Proof
end

