-- ==== Sys2Proof/Machine/Bits.lean ====
section
/-! DEFINITION. Helpers that every layer uses: sparse tables, bit fields, bytes in little-endian order (R3, R4), the codes of
R295 and small list functions. -/
namespace Sys2Proof

/-! ### Sparse tables -/

/-- The value under key `k`, or the default `d`. -/
def Tbl.get {α : Type} (d : α) : Tbl α → Nat → α
  | [], _ => d
  | (j, v) :: t, k => if k = j then v else Tbl.get d t k

/-- Remove key `k`. -/
def Tbl.del {α : Type} : Tbl α → Nat → Tbl α
  | [], _ => []
  | (j, v) :: t, k => if k = j then Tbl.del t k else (j, v) :: Tbl.del t k

/-- Put `v` under key `k`, in key order. -/
def Tbl.ins {α : Type} : Tbl α → Nat → α → Tbl α
  | [], k, v => [(k, v)]
  | (j, w) :: t, k, v =>
    if k = j then (k, v) :: t else if k < j then (k, v) :: (j, w) :: t else (j, w) :: Tbl.ins t k v

/-- Put `v` under key `k`; the default `d` is never listed. -/
def Tbl.put {α : Type} [DecidableEq α] (d : α) (t : Tbl α) (k : Nat) (v : α) : Tbl α :=
  if v = d then t.del k else t.ins k v

/-- Change the value under key `k`. -/
def Tbl.upd {α : Type} [DecidableEq α] (d : α) (t : Tbl α) (k : Nat) (f : α → α) : Tbl α :=
  t.put d k (f (t.get d k))

/-- The table is in its one form: keys rise strictly and no entry holds the default. -/
def Tbl.wf {α : Type} [DecidableEq α] (d : α) : Tbl α → Bool
  | [] => true
  | [(_, v)] => decide (v ≠ d)
  | (j, v) :: (k, w) :: t => decide (v ≠ d) && decide (j < k) && Tbl.wf d ((k, w) :: t)

/-! ### Lists -/

/-- Change element `n` of a list. -/
def updAt {α : Type} : List α → Nat → (α → α) → List α
  | [], _, _ => []
  | x :: t, 0, f => f x :: t
  | x :: t, n + 1, f => x :: updAt t n f

/-- Remove element `n` of a list. -/
def removeAt {α : Type} : List α → Nat → List α
  | [], _ => []
  | _ :: t, 0 => t
  | x :: t, n + 1 => x :: removeAt t n

/-- Keep a list free of repeats while adding `x`. -/
def addOnce (x : Nat) (l : List Nat) : List Nat := if l.contains x then l else l ++ [x]

/-- Iterate `f` on the numbers `0 .. n-1` in ascending order. -/
def forNat {α : Type} : Nat → (Nat → α → α) → α → α
  | 0, _, a => a
  | n + 1, f, a => f n (forNat n f a)

/-- The smallest number below `n` that `p` accepts. -/
def firstBelow : Nat → (Nat → Bool) → Option Nat
  | 0, _ => none
  | n + 1, p => match firstBelow n p with
    | some k => some k
    | none => if p n then some n else none

/-- The largest number of a list, 0 for the empty list. -/
def maxL (l : List Nat) : Nat := l.foldl max 0

/-! ### Bits and bytes -/

/-- Bits [lo+len-1:lo] of a number. -/
def bits (x lo len : Nat) : Nat := x / 2 ^ lo % 2 ^ len

/-- Bit `n` of a number. -/
def bit (x n : Nat) : Bool := x / 2 ^ n % 2 == 1

/-- The bytes of a number, `n` of them, least significant first (R3). -/
def leBytes : Nat → Nat → List Byte
  | 0, _ => []
  | n + 1, x => BitVec.ofNat 8 x :: leBytes n (x / 256)

/-- The number that bytes stand for, least significant first (R3). -/
def ofLe : List Byte → Nat
  | [] => 0
  | b :: t => b.toNat + 256 * ofLe t

/-- Sign-extend the low `w` bits of `x` to 64 bits. -/
def sext64 (w x : Nat) : W64 :=
  if w = 0 then 0 else if bit x (w - 1) then BitVec.ofNat 64 (x % 2 ^ w + (2 ^ 64 - 2 ^ w)) else BitVec.ofNat 64 (x % 2 ^ w)

/-- The integer that the low `w` bits of `x` stand for in two's complement. -/
def toI (w x : Nat) : Int := if bit (x % 2 ^ w) (w - 1) then (x % 2 ^ w : Int) - 2 ^ w else (x % 2 ^ w : Int)

/-- An integer modulo 2^w. -/
def ofI (w : Nat) (x : Int) : Nat := (x % (2 ^ w : Int)).toNat

/-- Round up to a multiple. -/
def roundUp (x m : Nat) : Nat := (x + m - 1) / m * m

/-- The number of one bits of the low `n` bits of `x`. -/
def popc (n x : Nat) : Nat := (List.range n).foldl (fun c i => if bit x i then c + 1 else c) 0

/-- The carry-less product over GF(2) of two `n`-bit numbers. -/
def clmul (n a b : Nat) : Nat :=
  (List.range n).foldl (fun r i => if bit b i then r ^^^ (a * 2 ^ i) else r) 0

/-- Index of the highest one bit plus one; 0 for 0. -/
def bitLen (x : Nat) : Nat := if x = 0 then 0 else Nat.log2 x + 1

/-! ### Trap and status codes (R295) -/

def cNone : Code := 0x00
def cOpcode : Code := 0x01
def cEncoding : Code := 0x02
def cOperand : Code := 0x03
def cPrivilege : Code := 0x04
def cBound : Code := 0x08
def cSpace : Code := 0x09
def cMisaligned : Code := 0x0A
def cPageFault : Code := 0x10
def cPagePerm : Code := 0x11
def cLeaseRevoked : Code := 0x12
def cPeerLost : Code := 0x13
def cAtsFault : Code := 0x14
def cTileMalformed : Code := 0x18
def cTemplateCheck : Code := 0x19
def cGenRetired : Code := 0x20
def cGenWindow : Code := 0x21
def cSpecIllegal : Code := 0x28
def cUncorrectable : Code := 0x30
def cContained : Code := 0x31
def cWatchdog : Code := 0x32
def cTeardown : Code := 0x33
def cFull : Code := 0x34
def cPartial : Code := 0x35
def cSoftTrap : Code := 0x38
def cBreak : Code := 0x39

/-- The codes that R295 defines, NONE apart. -/
def definedCodes : List Nat :=
  [0x01, 0x02, 0x03, 0x04, 0x08, 0x09, 0x0A, 0x10, 0x11, 0x12, 0x13, 0x14, 0x18, 0x19, 0x20, 0x21, 0x28, 0x30, 0x31, 0x32,
   0x33, 0x34, 0x35, 0x38, 0x39]

end Sys2Proof
end

