-- ==== Sys2Proof/Syntax.lean ====
section
/-! DEFINITION. Abstract syntax: the operand codes and the eight forms of R276-R288, and one constructor of `Instr` for
each row of spec/opcode_table.json. The rows after NARG are steps of the hardware, the host and the pod; their parameters
name the unit that makes the step and the data that comes from outside. -/
namespace Sys2Proof

/-- The predicate of an instruction, PRED and PNEG (R277). -/
structure Pred where
  n : BitVec 3
  neg : Bool
deriving DecidableEq, Repr

/-- An operand field (R279). `num` is a field that its entry defines as a register number (R278). -/
inductive Opd where
  /-- Codes 0x00-0x3F: scalar s0-s63. -/
  | reg (n : BitVec 6)
  /-- Codes 0x40-0x7F: the constants 0-63. -/
  | imm (n : BitVec 6)
  /-- Codes 0x80-0x9F: the constants -32 to -1. -/
  | neg (n : BitVec 5)
  /-- Code 0xFE: a 32-bit literal, sign-extended. -/
  | lit32 (v : BitVec 32)
  /-- Code 0xFF: a 64-bit literal. -/
  | lit64 (v : BitVec 64)
  /-- A register-number field, as it stands. -/
  | num (v : BitVec 8)
deriving DecidableEq, Repr

/-- Form A (R281). -/
structure FA where
  pr : Pred
  m : BitVec 4
  d : Opd
  a : Opd
  b : Opd
  c : Opd
deriving DecidableEq, Repr

/-- Form B (R282). -/
structure FB where
  pr : Pred
  cond : BitVec 4
  a : Opd
  b : Opd
  off : BitVec 32
deriving DecidableEq, Repr

/-- Form S (R283). -/
structure FS where
  pr : Pred
  d : Opd
  a : Opd
  id : BitVec 16
deriving DecidableEq, Repr

/-- Form V (R284). -/
structure FV where
  pr : Pred
  ty : BitVec 4
  vd : BitVec 8
  va : BitVec 8
  vb : BitVec 8
  vc : BitVec 8
  bc : Opd
deriving DecidableEq, Repr

/-- Form X (R285); `patch` is the template patch literal. -/
structure FX where
  pr : Pred
  m : BitVec 3
  tpl : BitVec 6
  bank : BitVec 3
  sa : BitVec 6
  sb : BitVec 6
  wait : BitVec 8
  post : BitVec 8
  inc : BitVec 4
  patch : Option (BitVec 32)
deriving DecidableEq, Repr

/-- Form M (R286). -/
structure FM where
  pr : Pred
  cls : BitVec 4
  d : Opd
  a : Opd
  b : Opd
  ty : BitVec 4
  spc : BitVec 4
  disp : BitVec 16
deriving DecidableEq, Repr

/-- Form C (R287). -/
structure FC where
  pr : Pred
  cls : BitVec 4
  spec : BitVec 6
  raw : BitVec 2
  km : BitVec 4
  wait : BitVec 8
  post : BitVec 8
  inc : BitVec 4
  ct : BitVec 4
deriving DecidableEq, Repr

/-- Form Y (R288). -/
structure FY where
  pr : Pred
  m : BitVec 4
  d : Opd
  a : Opd
  b : Opd
  ix : BitVec 8
deriving DecidableEq, Repr

/-- A tagged element that a tag sweeper visits (R125): strand registers by strand number, core elements by core number,
die elements by die number. -/
inductive Elem where
  | scalar (strand n : Nat)
  | pred (strand n : Nat)
  | ctl (strand n : Nat)
  | vreg (core n : Nat)
  | bank (core n : Nat)
  | peg (core n : Nat)
  | bob (core n : Nat)
  | tplActive (core n : Nat)
  | tplStandby (core n : Nat)
  | pillow (core i : Nat)
  | mq (core i : Nat)
  | vq (core i : Nat)
  | cq (core i : Nat)
  | l1 (core i : Nat)
  | perf (core k : Nat)
  | l2 (die i : Nat)
  | walkCache (die i : Nat)
  | twin (die k : Nat)
  | mcast (die k : Nat)
  | frec (die i : Nat)
  | pc (strand : Nat)
  | coreQ (core i : Nat)
  | bayQ (bay i : Nat)
  | dieQ (die i : Nat)
  | spill (die i : Nat)
  | store (die i : Nat)
deriving DecidableEq, Repr

/-- What a request from a peer asks (R95, R97, R107, R171): an access at a device-physical address, which an eviction write
carries with its tag, and which an element of a reducing store makes with its operation and type; data of a multicast box at an
offset of a window, the box having `len` bytes from offset `lo`; an addition to a counter, or a status for its latch. The data of a write
may come from a poisoned source (R79). -/
inductive PeerWhat where
  | access (pa : Nat) (wr : Bool) (n : Nat) (tag : BitVec 16) (op : Option (Nat × Nat)) (poison : Bool)
  | box (window off n lo len : Nat) (op : Option (Nat × Nat)) (poison : Bool)
  | counter (window die off : Nat) (status : BitVec 8)
deriving DecidableEq, Repr

/-- The instructions and steps: one constructor for each row of the opcode table. The steps that the hardware takes of its own
accord come before those that come from outside. -/
inductive Instr where
  /-- NOP (R316). Changes nothing but PC. -/
  | nop (f : FA)
  /-- ADD (R302). Adds A and B with wrap, signed saturation or unsigned saturation as MOD selects. -/
  | add (f : FA)
  /-- SUB (R302). Subtracts B from A with wrap or saturation as MOD selects. -/
  | sub (f : FA)
  /-- MUL (R302). Writes the low 64 bits of A times B. -/
  | mul (f : FA)
  /-- MULH (R302). Writes bits 127:64 of the signed or unsigned product of A and B. -/
  | mulh (f : FA)
  /-- DIV (R303). Divides A by B, truncating toward zero, with fixed results for division by zero and overflow and no trap. -/
  | div (f : FA)
  /-- REM (R303). Writes the remainder of A by B, which takes the sign of A, with fixed corner results. -/
  | rem (f : FA)
  /-- AND (R304). Writes the bitwise AND of A and B. -/
  | and_ (f : FA)
  /-- OR (R304). Writes the bitwise OR of A and B. -/
  | or_ (f : FA)
  /-- XOR (R304). Writes the bitwise XOR of A and B. -/
  | xor (f : FA)
  /-- ANDN (R304). Writes A AND NOT B. -/
  | andn (f : FA)
  /-- SHL (R304). Shifts A left by B mod 64. -/
  | shl (f : FA)
  /-- SHR (R304). Shifts A right with zero fill by B mod 64. -/
  | shr (f : FA)
  /-- SAR (R304). Shifts A right with sign fill by B mod 64. -/
  | sar (f : FA)
  /-- ROT (R304). Rotates A left by B mod 64. -/
  | rot (f : FA)
  /-- MIN (R302). Writes the smaller of A and B, signed or unsigned. -/
  | min (f : FA)
  /-- MAX (R302). Writes the larger of A and B, signed or unsigned. -/
  | max (f : FA)
  /-- CLZ (R304). Counts the leading zero bits of A. -/
  | clz (f : FA)
  /-- CTZ (R304). Counts the trailing zero bits of A. -/
  | ctz (f : FA)
  /-- POPC (R304). Counts the one bits of A. -/
  | popc (f : FA)
  /-- EXT (R305). Extracts a bit field of A at position B and width C, zero- or sign-extended. -/
  | ext (f : FA)
  /-- INS (R305). Inserts A into the bit field of D at position B and width C. -/
  | ins (f : FA)
  /-- SEL (R307). Writes A or B to D according to bit 0 of a predicate. -/
  | sel (f : FA)
  /-- CMP (R306). Sets a predicate to all ones or zero by a condition on A and B. -/
  | cmp (f : FA)
  /-- CMPS (R306). Writes 1 or 0 to a scalar by a condition on A and B. -/
  | cmps (f : FA)
  /-- MAD (R302). Writes the low 64 bits of A times B plus C. -/
  | mad (f : FA)
  /-- LEA (R309). Writes A plus B shifted by the scale plus C. -/
  | lea (f : FA)
  /-- MOV (R309). Copies A into D. -/
  | mov (f : FA)
  /-- PLOG (R308). Combines predicates by and, or, xor, andn or not. -/
  | plog (f : FA)
  /-- MOVP (R308). Moves a predicate to a scalar or a value to a predicate. -/
  | movp (f : FA)
  /-- CLMUL (R304). Writes the low or high half of the carry-less product of A and B. -/
  | clmul (f : FA)
  /-- BR (R310). Branches to PC plus OFF when the condition on A and B holds. -/
  | br (f : FB)
  /-- BRC (R310). Decrements register A and branches when the condition on the new A and B holds. -/
  | brc (f : FB)
  /-- BRP (R311). Branches on a test of a 64-bit predicate. -/
  | brp (f : FB)
  /-- JMP (R310). Sets PC to A. -/
  | jmp (f : FA)
  /-- CALL (R310). Writes the return address to s63 and branches to the target. -/
  | call (f : FB)
  /-- CALLR (R310). Writes the return address to s63 and jumps to A. -/
  | callr (f : FA)
  /-- RET (R310). Sets PC to s63. -/
  | ret (f : FA)
  /-- LOOP (R314). Loads LC with a count or skips the loop when the count is zero. -/
  | loop (f : FB)
  /-- LEND (R211). Record form: advances the loop phase and iteration count of a loop-record group, a safe point in the kernel phase. -/
  | lend (f : FB)
  /-- LEND_CNT (R315). Counted form: decrements LC and branches back while iterations remain. -/
  | lendCnt (f : FB)
  /-- QPT (R316). Marks a quiescent point at which the core's copy engine acknowledges pending invalidations. -/
  | qpt (f : FA)
  /-- HALT (R317). Makes the strand HALTED, or TASKWAIT in a serving group. -/
  | halt (f : FA)
  /-- YIELD (R318). Keeps the strand from issuing for a given number of cycles. -/
  | yield (f : FA)
  /-- RLABEL (R319). Sets the strand's restart label and declared recomputation cost. -/
  | rlabel (f : FA)
  /-- TRAP (R320). Traps SOFT_TRAP with A in the trap record's ADDR. -/
  | trap (f : FA)
  /-- BRK (R320). Enters DEBUG when a port is attached, otherwise traps BREAK. -/
  | brk (f : FA)
  /-- FORK (R321). Starts a PARKED strand of the same group at the target or reports its state. -/
  | fork (f : FB)
  /-- SYSRD (R322). Reads a system register named by space, number and index. -/
  | sysrd (f : FS)
  /-- SYSWR (R322). Writes a system register after privilege and value checks; the write to any register without a row of its own. -/
  | syswr (f : FS)
  /-- TIME (R329). Returns the slot's virtual time sampled at issue. -/
  | time (f : FA)
  /-- PERF (R329). Returns one of the slot's performance counters on the issuing core. -/
  | perf (f : FA)
  /-- GEN_RD (R331). Returns a slot's CTX_GEN and GEN_LW sampled together. -/
  | genRd (f : FA)
  /-- GEN_ADV (R120). Asks the generation sequencer to advance a slot's generation and stalls until the status is written. -/
  | genAdv (f : FA)
  /-- TLBI (R333). Posts an invalidation of a slot's translations overlapping a VIRT range and returns a ticket. -/
  | tlbi (f : FA)
  /-- TLBI_ALL (R333). Posts an invalidation of every translation of a slot and returns a ticket. -/
  | tlbiAll (f : FA)
  /-- EVPOST (R334). Writes a program event record to the slot's event ring as a release at SYSTEM scope. -/
  | evpost (f : FA)
  /-- ID (R330). Returns the part identity, pod device number or the strand's placement. -/
  | id (f : FA)
  /-- VADD (R342). Adds vector elements, integer or floating. -/
  | vadd (f : FV)
  /-- VSUB (R342). Subtracts vector elements. -/
  | vsub (f : FV)
  /-- VMUL (R342). Multiplies vector elements. -/
  | vmul (f : FV)
  /-- VFMA (R342). Computes VA times VB plus VC per element, rounded once. -/
  | vfma (f : FV)
  /-- VFMS (R342). Computes VA times VB minus VC per element, rounded once. -/
  | vfms (f : FV)
  /-- VMIN (R343). Writes the smaller element under the NaN and signed-zero rules. -/
  | vmin (f : FV)
  /-- VMAX (R343). Writes the larger element under the NaN and signed-zero rules. -/
  | vmax (f : FV)
  /-- VABS (R343). Writes the absolute value of each element. -/
  | vabs (f : FV)
  /-- VNEG (R343). Negates each element. -/
  | vneg (f : FV)
  /-- VRCP (R344). Writes the correctly rounded reciprocal of each element. -/
  | vrcp (f : FV)
  /-- VRSQ (R344). Writes the correctly rounded reciprocal square root of each element. -/
  | vrsq (f : FV)
  /-- VSQRT (R344). Writes the correctly rounded square root of each element. -/
  | vsqrt (f : FV)
  /-- VEXP2 (R344). Writes the correctly rounded power of two of each element. -/
  | vexp2 (f : FV)
  /-- VLOG2 (R344). Writes the correctly rounded base-2 logarithm of each element. -/
  | vlog2 (f : FV)
  /-- VAND (R342). Writes the bitwise AND of vector elements. -/
  | vand (f : FV)
  /-- VOR (R342). Writes the bitwise OR of vector elements. -/
  | vor (f : FV)
  /-- VXOR (R342). Writes the bitwise XOR of vector elements. -/
  | vxor (f : FV)
  /-- VSHL (R342). Shifts integer elements left. -/
  | vshl (f : FV)
  /-- VSHR (R342). Shifts integer elements right with zero fill. -/
  | vshr (f : FV)
  /-- VSAR (R342). Shifts integer elements right with sign fill. -/
  | vsar (f : FV)
  /-- VCMP (R345). Compares elements and writes the result bits into a predicate. -/
  | vcmp (f : FV)
  /-- VSEL (R346). Writes every element from VA where enabled and from VB elsewhere. -/
  | vsel (f : FV)
  /-- VCVT (R347). Converts elements between types, filling one part of the destination when narrowing. -/
  | vcvt (f : FV)
  /-- VPERM (R349). Permutes elements of VA by the indices in VB. -/
  | vperm (f : FV)
  /-- VBCAST (R349). Broadcasts a scalar into every enabled element. -/
  | vbcast (f : FV)
  /-- VREDUCE (R350). Combines enabled elements in a fixed binary tree into element 0. -/
  | vreduce (f : FV)
  /-- VSCAN (R350). Writes an inclusive scan over enabled elements in ascending order. -/
  | vscan (f : FV)
  /-- VCLMUL (R342). Writes the low or high part of the carry-less product of elements. -/
  | vclmul (f : FV)
  /-- VPOPC (R342). Counts the one bits of each element. -/
  | vpopc (f : FV)
  /-- VMOV (R349). Copies enabled elements. -/
  | vmov (f : FV)
  /-- VEXTR (R349). Extracts one element into a scalar. -/
  | vextr (f : FV)
  /-- VINSR (R349). Inserts a scalar into one element. -/
  | vinsr (f : FV)
  /-- VLD (R352). Loads contiguous elements from a space. -/
  | vld (f : FV)
  /-- VST (R352). Stores contiguous elements to a space. -/
  | vst (f : FV)
  /-- VLDX (R352). Loads elements from indexed byte offsets. -/
  | vldx (f : FV)
  /-- VSTX (R352). Stores elements to indexed byte offsets. -/
  | vstx (f : FV)
  /-- VLDH (R354). Loads 16 segments of 16 bytes placed by an operand descriptor with rotation. -/
  | vldh (f : FV)
  /-- VSTH (R354). Stores 16 segments of 16 bytes placed by an operand descriptor with rotation. -/
  | vsth (f : FV)
  /-- VIOTA (R349). Writes base plus element index into each enabled element. -/
  | viota (f : FV)
  /-- VDOT (R351). Adds the exact dot product of narrow elements into 32-bit lanes. -/
  | vdot (f : FV)
  /-- VMULH (R342). Writes the high half of the integer product of elements. -/
  | vmulh (f : FV)
  /-- VROUND (R343). Rounds floating elements to integral values in their format. -/
  | vround (f : FV)
  /-- VCLASS (R346). Writes the class of each floating element. -/
  | vclass (f : FV)
  /-- MMA (R367). Adds the exact products of two tile operands into an accumulator bank. -/
  | mma (f : FX)
  /-- MMAZ (R367). Sets the bank's mode, anchor and zero contents, then adds the products. -/
  | mmaz (f : FX)
  /-- MZERO (R369). Writes the bank to the zero state, or zeroes elements and flags keeping mode and anchor. -/
  | mzero (f : FX)
  /-- MHAD (R370). Multiplies each row of a bank by the Hadamard matrix over four. -/
  | mhad (f : FX)
  /-- MDRAIN (R374). Rounds every bank element once to the output format into a plain tile. -/
  | mdrain (f : FX)
  /-- MDRAINV (R374). Rounds every bank element once into consecutive vector registers. -/
  | mdrainv (f : FX)
  /-- MLDACC (R373). Loads raw bank elements and the state word. -/
  | mldacc (f : FX)
  /-- MSTACC (R373). Stores raw bank elements and returns the state word. -/
  | mstacc (f : FX)
  /-- MTPL_LD (R375). Loads 32 bytes into a template's standby plane. -/
  | mtplLd (f : FX)
  /-- MTPL_DIFF (R377). Applies a CRC-checked XOR difference to the active plane into the standby plane. -/
  | mtplDiff (f : FX)
  /-- MTPL_SWAP (R376). Exchanges a template's active and standby planes, or all templates' planes. -/
  | mtplSwap (f : FX)
  /-- MTPL_RD (R378). Returns one dword of a template plane. -/
  | mtplRd (f : FX)
  /-- MSCALE (R371). Multiplies the bank's values by a power of two. -/
  | mscale (f : FX)
  /-- MSCALE_REBASE (R371). Moves an ACC.X bank's anchor, shifting its integers. -/
  | mscaleRebase (f : FX)
  /-- MSTAT (R372). Returns the bank's state word, optionally clearing its flags. -/
  | mstat (f : FX)
  /-- TQUANT (R380). Quantizes an FP32 tile into an SX tile record. -/
  | tquant (f : FX)
  /-- TDEQ (R381). Decodes a tile record into a plain FP32, FP16 or BF16 tile. -/
  | tdeq (f : FX)
  /-- TTRN (R382). Transposes a tile record or a plain tile. -/
  | ttrn (f : FX)
  /-- TCOMP (R383). Rescales a tile record in place by a power of two. -/
  | tcomp (f : FX)
  /-- TCHK (R384). Checks a tile and returns a status word without trapping. -/
  | tchk (f : FX)
  /-- TPACK (R385). Packs a tile record into a packed tile. -/
  | tpack (f : FX)
  /-- TUNPK (R386). Expands a packed tile into a plain record. -/
  | tunpk (f : FX)
  /-- LD (R389). Loads a value from a space into a scalar. -/
  | ld (f : FM)
  /-- ST (R389). Stores a scalar to a space, applying the tag rule per granule. -/
  | st (f : FM)
  /-- PREF (R390). Fetches heap granules into the bay cache. -/
  | pref (f : FM)
  /-- FENCE (R391). Waits until the named classes and observed writes are performed at a scope. -/
  | fence (f : FM)
  /-- PUB (R408). Publishes a twin handle by swapping its visible and shadow buffers. -/
  | pub (f : FM)
  /-- CPY (R398). Issues a 1-D or 2-D copy command, optionally raw. -/
  | cpy (f : FC)
  /-- CPY_G (R400). Issues a gather copy command. -/
  | cpyG (f : FC)
  /-- CPY_S (R400). Issues a scatter copy command. -/
  | cpyS (f : FC)
  /-- CPY_R (R401). Issues a reducing store, optionally multicast. -/
  | cpyR (f : FC)
  /-- CPY_M (R402). Issues a multicast store to a group's destinations. -/
  | cpyM (f : FC)
  /-- CPY_W (R403). Issues a write followed by an add to a counter. -/
  | cpyW (f : FC)
  /-- CPY_T (R404). Issues a tile load delivering checked plain records into the slice. -/
  | cpyT (f : FC)
  /-- CPY_TS (R405). Issues a single-copy atomic tile store. -/
  | cpyTs (f : FC)
  /-- CPY_F (R398). Issues a fill with an 8-byte pattern. -/
  | cpyF (f : FC)
  /-- CPY_X (R407). Issues a twin handle bind, rebind or unbind. -/
  | cpyX (f : FC)
  /-- CPY_Q (R406). Issues a packed tile stream store with its directory. -/
  | cpyQ (f : FC)
  /-- PEG_POST (R411). Adds to a peg's posted count as a release at CORE scope. -/
  | pegPost (f : FY)
  /-- PEG_WAIT (R411). Waits until a peg holds enough tokens without taking them. -/
  | pegWait (f : FY)
  /-- PEG_TAKE (R411). Waits for and takes tokens from a peg. -/
  | pegTake (f : FY)
  /-- PEG_RD (R411). Returns a peg's posted, taken, latch or available count. -/
  | pegRd (f : FY)
  /-- PEG_ERR (R411). Latches an error code in a peg and releases its waiters. -/
  | pegErr (f : FY)
  /-- BB_SET (R413). Sets a bobbin's geometry. -/
  | bbSet (f : FY)
  /-- BB_CLAIM (R414). Waits for free slots and claims them, returning the slot offset. -/
  | bbClaim (f : FY)
  /-- BB_FILL (R414). Raises the filled count as a release at CORE scope. -/
  | bbFill (f : FY)
  /-- BB_TAKE (R414). Waits for filled slots and returns the oldest unfreed slot. -/
  | bbTake (f : FY)
  /-- BB_TAKE_AT (R414). Waits until a given counter value is filled and returns its slot. -/
  | bbTakeAt (f : FY)
  /-- BB_FREE (R414). Raises the freed count as a release at CORE scope. -/
  | bbFree (f : FY)
  /-- BB_WAITF (R414). Waits until the filled count reaches a value. -/
  | bbWaitf (f : FY)
  /-- BB_WAITE (R414). Waits until the freed count reaches a value. -/
  | bbWaite (f : FY)
  /-- BB_RD (R414). Returns a bobbin counter, latch or geometry. -/
  | bbRd (f : FY)
  /-- SADD (R416). Adds to a sync variable as a release. -/
  | sadd (f : FY)
  /-- SWAIT (R416). Waits until a sync variable reaches a value, with optional timeout. -/
  | swait (f : FY)
  /-- SATOM (R416). Performs an atomic read-modify-write on a sync variable. -/
  | satom (f : FY)
  /-- SCAS (R416). Compares and swaps a sync variable. -/
  | scas (f : FY)
  /-- SERR (R416). Latches an error code in a sync variable and releases its waiters. -/
  | serr (f : FY)
  /-- SGET (R416). Returns a sync variable's value or latch. -/
  | sget (f : FY)
  /-- LAUNCH (R417). Places a launch packet from the heap or slice in the die's pending-launch store. -/
  | launch (f : FY)
  /-- TSPAWN (R418). Creates an ordered task with a timestamp, entry and arguments. -/
  | tspawn (f : FY)
  /-- TEND (R419). Makes the running task FINISHED. -/
  | tend (f : FY)
  /-- TABORT (R419). Makes the running task and its children REMOVED. -/
  | tabort (f : FY)
  /-- CFR (R420). Returns the commit frontier key of the slot on the die. -/
  | cfr (f : FY)
  /-- TID (R420). Returns group and strand index, or the task's timestamp or sequence. -/
  | tid (f : FY)
  /-- NARG (R420). Returns an argument word of the strand's group. -/
  | narg (f : FY)
  /-- COPY_ACCEPT (R392). Accepts a queued copy command, capturing its specification and making its checks. -/
  | copyAccept (core : Nat)
  /-- COPY_BOX_START (R396). The copy engine starts a box and issues its accesses. -/
  | copyBoxStart (core : Nat) (seq : Nat)
  /-- COPY_COMPLETE (R394). A copy command ends, writes its status record and updates its completion target. -/
  | copyComplete (core : Nat) (seq : Nat)
  /-- TABLE_WALK (R27). A nested table walk ends, installing its translation or failing with a cause. -/
  | tableWalk (die : Nat) (walk : Nat)
  /-- FAULT_RECORD_WRITE (R36). A waiting fault record is written to its ring once there is room. -/
  | faultRecordWrite (die : Nat) (rec : Nat)
  /-- FAULT_RESPONSE_RETRY (R38). A RETRY response releases every access held on the record to walk again. -/
  | faultResponseRetry (fn : Nat) (host : Bool)
  /-- FAULT_RESPONSE_FAIL (R38). A FAIL response ends every copy command held on the record. -/
  | faultResponseFail (fn : Nat) (host : Bool)
  /-- ATS_INVALIDATION_COMPLETION (R32). The device sends the completion once boxes using removed entries have issued their requests. -/
  | atsInvalidationCompletion (slot : Nat)
  /-- TLBI_L2_DROP (R41). A die's L2 TLB and walk cache drop the entries matching a posted invalidation. -/
  | tlbiL2Drop (die : Nat) (k : Nat)
  /-- TLBI_CORE_ACKNOWLEDGE (R42). At a QPT the copy engine lets started boxes finish, drops matching L1 entries and acknowledges. -/
  | tlbiCoreAcknowledge (core : Nat)
  /-- TLBI_WATCHDOG_EXPIRY (R43). TLBI_WDOG expires and the copy engine acknowledges on the core's behalf. -/
  | tlbiWatchdogExpiry (core : Nat) (k : Nat)
  /-- CONFIG_CHANGE_CUT (R18). A unit cuts over to a changed heap triple, sync window, dirty half or counter selection. -/
  | configChangeCut (unit : Nat)
  /-- GROUND_REMOTE_ARRIVAL (R61). A remote ground request arrives and is rechecked against the core mask. -/
  | groundRemoteArrival (id : Nat)
  /-- SLICE_SCRUB_VISIT (R77). The on-chip scrubber reads, corrects and writes back a word and sweeps its tag. -/
  | sliceScrubVisit (arr : Nat) (addr : Nat) (err : Nat)
  /-- SYNC_OPERATION_ARRIVAL (R73). A sync operation reaches its die's sync engine and is performed. -/
  | syncOperationArrival (id : Nat)
  /-- REFRESH_WINDOW_BOUNDARY (R87). A refresh window ends and every bank's refresh debt rises by one. -/
  | refreshWindowBoundary (stack : Nat)
  /-- PER_BANK_REFRESH (R87). The controller starts a per-bank refresh on an idle bank with debt. -/
  | perBankRefresh (bank : Nat)
  /-- REFRESH_END (R87). A refresh ends and lowers the debt. -/
  | refreshEnd (bank : Nat)
  /-- ROW_ACTIVATION (R89). A row activation updates the bank's disturbance tracker. -/
  | rowActivation (bank : Nat) (row : Nat) (slot : Nat)
  /-- DISTURB_INTERVAL_RESET (R89). Every 32 ms the bank's tracker entries and mitigation counts return to 0. -/
  | disturbIntervalReset (bank : Nat)
  /-- STRIPE_REBUILD (R90). The controller rebuilds one stripe into its parity chunk and advances RB_PTR. -/
  | stripeRebuild (stack : Nat)
  /-- HBM_SCRUB_VISIT (R125). The HBM scrubber visits a granule, correcting it, zeroing stale leases and stale tags. -/
  | hbmScrubVisit (gran : Nat) (err : Nat)
  /-- TAG_SWEEP_VISIT (R125). A register or die tag sweeper visits an element and zeroes it when over 511 generations old. -/
  | tagSweepVisit (e : Elem)
  /-- SWEEP_PASS_END (R127). A device-wide sweep pass ends, updating every GEN_LW and starting the next pass. -/
  | sweepPassEnd
  /-- BORROWER_FLUSH_DONE (R101). The borrower finishes write-back and invalidation and sends FLUSHED. -/
  | borrowerFlushDone (b : Nat)
  /-- PIECE_COPY_DONE (R101). A 2 MiB piece is copied and the lender sends PIECE_MOVED. -/
  | pieceCopyDone (l : Nat)
  /-- LENDER_RECLAIM_TIMEOUT (R102). 4 ms after RECLAIM the lender ends the reclaim with DONE ARG 1. -/
  | lenderReclaimTimeout (l : Nat)
  /-- BORROWER_RECLAIM_TIMEOUT (R102). The borrower's 4 ms timer expires and its entry becomes REVOKED. -/
  | borrowerReclaimTimeout (b : Nat)
  /-- PEER_TIMEOUT (R109). A peer request unanswered within 2 ms ends with PEER_LOST. -/
  | peerTimeout (id : Nat)
  /-- RETRAIN_COMPLETE (R108). Retraining ends and unacknowledged flits are replayed in order. -/
  | retrainComplete (st : Nat)
  /-- BUCKET_LEAK (R108). Every 10 s a station's bucket level falls by one. -/
  | bucketLeak (st : Nat)
  /-- GEN_ADV_ACCEPT (R121). The sequencer accepts an advance, raises CTX_GEN, clears peer windows and disables launch queues. -/
  | genAdvAccept
  /-- DIE_CUT (R121). All holders of a die cut for the slot in one cycle. -/
  | dieCut (die : Nat)
  /-- CORE_CUT (R123). A core and its engines cut, ending the slot's groups and discarding its queued work. -/
  | coreCut (core : Nat)
  /-- SEQUENCER_CHANGE_DONE (R121). The last cut of a sequencer change ends it and the next change may start. -/
  | sequencerChangeDone
  /-- PUBLISH_PREPARE (R173). A replica receives PREPARE, holds later TWIN reads of the handle and acknowledges. -/
  | publishPrepare (slot : Nat) (h : Nat) (die : Nat)
  /-- PREPARE_ACK (R173). The home receives an acknowledgement and, with all four, swaps and sends COMMIT. -/
  | prepareAck (slot : Nat) (h : Nat) (die : Nat)
  /-- PUBLISH_COMMIT (R173). A replica swaps on COMMIT and releases its held reads. -/
  | publishCommit (slot : Nat) (h : Nat) (die : Nat)
  /-- COMMIT_ACK (R173). The home receives a COMMIT acknowledgement and, with all four, returns the PUB. -/
  | commitAck (slot : Nat) (h : Nat) (die : Nat)
  /-- TWIN_SWAP (R172). A replica receives a DIE-scope swap and swaps in one instant. -/
  | twinSwap (slot : Nat) (h : Nat) (die : Nat)
  /-- GROUP_DISPATCH (R229). A unit reserves resources for a queue entry and starts its group. -/
  | groupDispatch (level : Nat) (unit : Nat)
  /-- GROUP_END (R202). A group's end condition holds; its writes perform and its targets are updated or latched. -/
  | groupEnd (gid : Nat)
  /-- SUCC_DECREMENT (R204). A successor decrement arrives at a pending-launch entry, possibly making it READY. -/
  | succDecrement (k : Nat)
  /-- WAIT_TIMEOUT (R409). A wait's timeout expires at its object's unit and reports WATCHDOG. -/
  | waitTimeout (strand : Nat)
  /-- YIELD_EXPIRY (R318). A YIELD's cycles pass and the strand may issue again. -/
  | yieldExpiry (strand : Nat)
  /-- MATRIX_ENTRY_START (R357). A matrix queue entry starts, takes its wait token and makes its checks. -/
  | matrixEntryStart (core : Nat)
  /-- MATRIX_ENTRY_COMPLETE (R358). A matrix entry's writes perform and its post peg is posted. -/
  | matrixEntryComplete (core : Nat)
  /-- VECTOR_ENTRY_START (R339). A vector queue entry starts once its sources are produced. -/
  | vectorEntryStart (core : Nat)
  /-- PACKET_FETCH (R222). A fetched packet is checked, accepted or refused, and LQ_CI advances. -/
  | packetFetch (slot : Nat) (q : Nat)
  /-- LAUNCH_RETRY (R223). A packet refused FULL is retried every 1 µs. -/
  | launchRetry (slot : Nat) (q : Nat)
  /-- COMPLETION_RECORD_WRITE (R223). A waiting completion record is written once the completion ring has room. -/
  | completionRecordWrite (slot : Nat) (q : Nat)
  /-- TEARDOWN_WINDOW_EXPIRY (R232). TD_WINDOW expires, remaining groups are contained and TYPE 3 and 4 records written. -/
  | teardownWindowExpiry (slot : Nat) (q : Nat)
  /-- QUEUE_BLOCK_MOVE (R228). Up to eight entries move between core, bay, die and spill queues. -/
  | queueBlockMove (kind : Nat) (src : Nat) (dst : Nat)
  /-- PREEMPT_REQUEST (R230). A slot's deficit reaches zero or a higher priority appears, requesting pre-emption. -/
  | preemptRequest (gid : Nat)
  /-- SAFE_POINT_ARRIVAL (R212). A draining strand reaches its safe point and is held until the group arrives. -/
  | safePointArrival (strand : Nat)
  /-- PREEMPT_DEADLINE_EXPIRY (R249). A drain not at its safe point after dl cycles becomes a save if possible. -/
  | preemptDeadlineExpiry (gid : Nat) (core : Nat)
  /-- SAVE_COMPLETE (R250). The save frames are written and the group re-enters READY. -/
  | saveComplete (gid : Nat)
  /-- RESTORE (R250). A resumed group's frames are read and unsaved state zeroed before its first issue. -/
  | restore_ (gid : Nat)
  /-- PREEMPT_WATCHDOG (R252). 4 × SCHED_SLICE after a request the group is ended with WATCHDOG. -/
  | preemptWatchdog (gid : Nat)
  /-- TASK_START (R430). A strand in TASKWAIT takes the oldest ready task of its slot and starts it. -/
  | taskStart (die : Nat) (slot : Nat)
  /-- TASK_COMMIT (R240). The commit unit makes the oldest finished task's writes visible and performs its deferred syncs. -/
  | taskCommit (die : Nat) (slot : Nat)
  /-- EVENT_RECORD_WRITE (R439). A buffered record is written to the event ring with its writeback and vector 0. -/
  | eventRecordWrite (fn : Nat)
  /-- CLOCK_STEP (R447). Every 100 µs the arithmetic clock steps down or up by 100 MHz under the power and temperature limits. -/
  | clockStep (up : Bool)
  /-- MEMORY_ACCESS_ARRIVAL (R92). A strand, copy or walk access reaches a bay cache or memory controller, where the owner check, the tag test, the cut and the queued-write merge apply. -/
  | memoryAccessArrival (id : Nat)
  /-- ACCESS_RESPONSE_RETURN (R217). Read data or fetched instruction bytes return to the issuing strand or engine, producing the result on which later instructions wait. -/
  | accessResponseReturn (id : Nat)
  /-- VECTOR_ENTRY_COMPLETE (R339). A vector queue entry's latency ends: its results are produced, its memory access is performed and its FPC flags are set. -/
  | vectorEntryComplete (core : Nat)
  /-- RESET_END (R442). A VF, die, device or cold reset ends at an instant the device chooses, after which writes to the function are performed again. -/
  | resetEnd (kind : Nat) (unit : Nat)
  /-- ATTESTATION_REPORT_DONE (R445). The signing started by ATT_CMD completes, the report appears at ATT_OUT and ATT_STAT no longer shows one in progress. -/
  | attestationReportDone
  /-- RESPONSE_RING_DOORBELL (R432). Software writes a response ring's producer index, acted on after earlier writes perform. -/
  | responseRingDoorbell (fn : Nat) (host : Bool) (pi : BitVec 32)
  /-- ATS_TRANSLATION_COMPLETION (R30). A host ATS completion arrives and is stored as a HOST TLB entry or denies the access. -/
  | atsTranslationCompletion (slot : Nat) (va : BitVec 64) (frame : BitVec 64) (szLog : Nat) (rd : Bool) (wr : Bool)
  /-- PRI_PAGE_RESPONSE (R31). The host's page request group response arrives and triggers one retranslation or ATS_FAULT. -/
  | priPageResponse (slot : Nat) (va : BitVec 64) (success : Bool)
  /-- ATS_INVALIDATION_REQUEST (R32). The host's invalidation removes matching HOST entries from all TLBs. -/
  | atsInvalidationRequest (slot : Nat) (va : BitVec 64) (szLog : Nat)
  /-- HEAP_WINDOW_WRITE (R13). A write to HEAP_BASE, HEAP_LIMIT or HEAP_OFF is checked and carried by the generation sequencer. -/
  | heapWindowWrite (which : Nat) (slot : Nat) (v : BitVec 64)
  /-- SYNC_WINDOW_WRITE (R72). A write to a sync window register is checked and carried by the generation sequencer. -/
  | syncWindowWrite (which : Nat) (slot : Nat) (v : BitVec 64)
  /-- DIRTY_SEL_WRITE (R47). Switches the dirty bitmap half through the generation sequencer. -/
  | dirtySelWrite (v : BitVec 64)
  /-- TIME_SCALE_WRITE (R51). Writes the virtual-time slope and replaces TIME_OFF so TIME does not jump. -/
  | timeScaleWrite (slot : Nat) (v : BitVec 64)
  /-- TIME_OFF_WRITE (R52). Writes the virtual-time offset, refused if TIME would decrease unless exempt after an advance. -/
  | timeOffWrite (slot : Nat) (v : BitVec 64)
  /-- ERR_MODE_WRITE (R83). Selects fixed-freeze mode, refused while any group is in flight. -/
  | errModeWrite (v : BitVec 64)
  /-- PERF_SEL_WRITE (R258). Selects a counter's event and restarts it at zero at each core's cut. -/
  | perfSelWrite (slot : Nat) (k : Nat) (v : BitVec 64)
  /-- BANK_STARVATION (R55). A requester refused 16 cycles, or a scrubber unserved 4,096 cycles, is served first. -/
  | bankStarvation (core : Nat) (bank : Nat) (who : Nat)
  /-- CHAN_RETIRE_WRITE (R90). The administrator starts retirement of a channel. -/
  | chanRetireWrite (v : BitVec 64)
  /-- CHANNEL_TRAINING_FAIL (R90). A channel that fails training is retired. -/
  | channelTrainingFail (stack : Nat) (ch : Nat)
  /-- CHAN_SECOND_FAIL (R90). A second channel failure poisons unrecoverable granules and makes the stack FAILED. -/
  | chanSecondFail (stack : Nat) (ch : Nat)
  /-- OWNER_TABLE_WRITE (R93). Writes a block owner table entry under its refusal rules. -/
  | ownerTableWrite (block : Nat) (v : BitVec 64)
  /-- PEER_WINDOW_WRITE (R94). Writes a peer window, refused if it lies outside its owner's blocks. -/
  | peerWindowWrite (w : Nat) (v : BitVec 128)
  /-- MULTICAST_GROUP_WRITE (R106). Installs a multicast group entry whole in one instant. -/
  | multicastGroupWrite (entry : Nat) (v : BitVec 256)
  /-- PEER_REQUEST_ARRIVAL (R95). A request from a peer is admitted as eviction write, lease access or window access, or refused. -/
  | peerRequestArrival (src : Nat) (slot : Nat) (what : PeerWhat) (data : BitVec 512) (ttag : Nat) (age : Nat)
  /-- LEASE_ENTRY_SET (R98). Slot 0 writes a FREE lease entry's fields. -/
  | leaseEntrySet (i : Nat) (v : BitVec 64)
  /-- LEASE_OFFER (R100). Slot 0 writes a lease entry OFFERED and the grant begins. -/
  | leaseOffer (i : Nat) (v : BitVec 64)
  /-- LEASE_RECLAIM_START (R101). Slot 0 writes an ACTIVE lease RECLAIMING and the lender sends RECLAIM. -/
  | leaseReclaimStart (i : Nat)
  /-- BORROW_ENTRY_SET (R98). Slot 0 writes a FREE borrow entry's fields. -/
  | borrowEntrySet (i : Nat) (v : BitVec 256)
  /-- BORROW_WAIT (R98). Slot 0 makes a borrow entry WAITING for a GRANT. -/
  | borrowWait (i : Nat) (v : BitVec 256)
  /-- BORROW_WITHDRAW (R98). Slot 0 returns a WAITING borrow entry to FREE. -/
  | borrowWithdraw (i : Nat)
  /-- BORROW_RELEASE (R98). Slot 0 frees a REVOKED borrow entry for reuse. -/
  | borrowRelease (i : Nat)
  /-- GRANT (R100). The borrower matches a GRANT to a WAITING entry and answers ACCEPT or REFUSE. -/
  | grant (src : Nat) (msg : BitVec 128)
  /-- ACCEPT (R100). The lender makes the lease ACTIVE. -/
  | accept (src : Nat) (msg : BitVec 128)
  /-- REFUSE (R100). The lender frees the lease entry and returns the block to unowned. -/
  | refuse (src : Nat) (msg : BitVec 128)
  /-- RECLAIM (R101). The borrower makes its entry RECLAIMING and begins flushing the lease's sectors. -/
  | reclaim (src : Nat) (msg : BitVec 128)
  /-- FLUSHED (R101). The lender begins copying pieces to the borrower's fallback block. -/
  | flushed (src : Nat) (msg : BitVec 128)
  /-- PIECE_MOVED (R101). The borrower repoints the piece's leaf, drops stale TLB entries and answers PIECE_ACK. -/
  | pieceMoved (src : Nat) (msg : BitVec 128)
  /-- PIECE_ACK (R101). The lender answers held accesses MOVED and, after the last, sends DONE and frees the lease. -/
  | pieceAck (src : Nat) (msg : BitVec 128)
  /-- DONE (R102). The borrower frees or revokes its entry and posts the tier-demotion record. -/
  | done_ (src : Nat) (msg : BitVec 128)
  /-- RELEASE (R103). The lender frees the lease, retires its tag and stops any reclaim. -/
  | release_ (src : Nat) (msg : BitVec 128)
  /-- FLIT_CHECK_FAIL (R108). A failed flit is replayed, and three failures make the station retrain. -/
  | flitCheckFail (st : Nat)
  /-- PACKET_UNDELIVERABLE (R109). A switch returns a packet, its route bit is cleared and it is resent. -/
  | packetUndeliverable (st : Nat) (dev : Nat)
  /-- LAUNCH_QUEUE_DOORBELL (R222). A write to LQ_PI makes an enabled queue fetch its next packets. -/
  | launchQueueDoorbell (slot : Nat) (q : Nat) (pi : BitVec 32)
  /-- LAUNCH_QUEUE_ENABLE (R221). A write of LQ_CTL with EN enables a launch queue. -/
  | launchQueueEnable (slot : Nat) (q : Nat) (v : BitVec 64)
  /-- TEARDOWN_START (R232). A write of TD = 1 ends the queue's pending launches and opens the teardown window. -/
  | teardownStart (slot : Nat) (q : Nat)
  /-- DEBUG_ATTACH (R449). A DBG_CTL write of ATTACH attaches the debug port to a core. -/
  | debugAttach (fn : Nat) (core : Nat)
  /-- DEBUG_HALT (R257). A halt request puts the selected strands in DEBUG. -/
  | debugHalt (core : Nat) (mask : BitVec 4)
  /-- DEBUG_RESUME (R257). A resume returns strands to their former state. -/
  | debugResume (core : Nat) (mask : BitVec 4)
  /-- DEBUG_STEP (R257). A step issues one instruction and returns the strand to DEBUG. -/
  | debugStep (core : Nat) (mask : BitVec 4)
  /-- DEBUG_DATA_WRITE (R449). Writes the selected register of a halted strand as an access of its slot. -/
  | debugDataWrite (fn : Nat) (v : BitVec 64)
  /-- HOST_REGISTER_WRITE (R438). A host write to a register without a row of its own, refused without change when invalid. -/
  | hostRegisterWrite (fn : Nat) (bar : Nat) (off : Nat) (size : Nat) (v : BitVec 64)
  /-- BAR2_WIN_WRITE (R437). Moves the function's BAR 2 heap window after its earlier writes. -/
  | bar2WinWrite (fn : Nat) (v : BitVec 64)
  /-- HOST_HEAP_WRITE (R424). A host write through BAR 2 writes the heap under the slot's current generation. -/
  | hostHeapWrite (fn : Nat) (off : Nat) (n : Nat) (data : BitVec 512)
  /-- HOST_MEMORY_READ (R176). A host read of device memory returns writes performed at PACKAGE scope. -/
  | hostMemoryRead (fn : Nat) (off : Nat) (n : Nat)
  /-- MSIX_UNMASK (R440). Unmasking a vector with its pending bit set sends one message. -/
  | msixUnmask (fn : Nat) (vec : Nat)
  /-- MAILBOX_SEND (R441). A write to byte 56 of a mailbox message sends it, or is dropped while busy. -/
  | mailboxSend (fn : Nat) (dirIn : Bool) (v : BitVec 64)
  /-- MAILBOX_BUSY_CLEAR (R441). The receiver clears a message's BUSY bit by writing 1. -/
  | mailboxBusyClear (fn : Nat) (dirIn : Bool)
  /-- VF_FUNCTION_LEVEL_RESET (R442). A VF reset disables the slot's queues, clears its rings and mailbox and masks its vectors. -/
  | vfFunctionLevelReset (fn : Nat)
  /-- DIE_RESET (R442). Contains the die's groups, zeroes its tagged on-chip state and clears an error freeze. -/
  | dieReset (mask : BitVec 4)
  /-- DEV_RESET (R442). Verifies and reloads the image and resets all generations and tagged state. -/
  | devReset
  /-- COLD_RESET (R442). PERST# or power-up trains the link and then resets the device. -/
  | coldReset
  /-- FW_CMD (R444). Writes the staged image to the inactive flash bank. -/
  | fwCmd (v : BitVec 64)
  /-- ATT_CMD (R445). Signs an attestation report with the identity key. -/
  | attCmd (v : BitVec 64)
  /-- THERMAL_TRIP (R447). At 115 °C every die freezes until a cold reset. -/
  | thermalTrip
  /-- PEER_RESPONSE_ARRIVAL (R95). A response from a peer arrives at the requesting device: data, a write acknowledgement, a refusal ending the access with PAGE_PERMISSION, or a MOVED answer that makes the borrower drop its TLB entry and walk again. -/
  | peerResponseArrival (id : Nat) (kind : Nat) (data : BitVec 512)
  /-- POWER_LOSS (R450). The module loses its supply, and the black-box rings, which survive every reset, are lost or left torn. -/
  | powerLoss
  /-- STATION_UP (R330). A UALink station first reaches UP after device reset, setting ID bit 10 and assigning the device number in the pod. -/
  | stationUp (st : Nat) (dev : Nat)
deriving DecidableEq, Repr

end Sys2Proof
end

