-- ==== Sys2Proof/Machine/Forms.lean ====
section
/-! DEFINITION. The encoding tables of the spec: which form an opcode uses (R290), which fields an entry uses and how
(R280), and which modifiers it lists. Decoder, encoder and well-formedness all read these tables. -/
namespace Sys2Proof

/-- How an entry uses an operand field (R280): source, destination, a register both read and written, a register number
(R278), or not at all. -/
inductive Role where
  | src
  | dst
  | sd
  | num
  | un
deriving DecidableEq, Repr

/-- What Form Y's IDX names (R288). -/
inductive IxUse where
  | peg
  | bob
  | scalar
  | zero
deriving DecidableEq, Repr

/-- An instruction in its form, with its opcode; `event` stands for the rows that no instruction word encodes. -/
inductive Form where
  | a (op : Nat) (f : FA)
  | b (op : Nat) (f : FB)
  | s (op : Nat) (f : FS)
  | v (op : Nat) (f : FV)
  | x (op : Nat) (f : FX)
  | m (op : Nat) (f : FM)
  | c (op : Nat) (f : FC)
  | y (op : Nat) (f : FY)
  | event
deriving DecidableEq, Repr

/-- The form that each opcode uses (R290). -/
inductive FormKind where
  | a | b | s | v | x | m | c | y
deriving DecidableEq, Repr

/-- R289 and R290: the form of an opcode; `none` for a reserved opcode. -/
def formOf (op : Nat) : Option FormKind :=
  if op = 0 then none
  else if op ≤ 0x1F then some .a
  else if op ∈ [0x23, 0x25, 0x26, 0x29, 0x2A, 0x2B, 0x2C, 0x2D, 0x2E] then some .a
  else if op ∈ [0x20, 0x21, 0x22, 0x24, 0x27, 0x28, 0x2F] then some .b
  else if op = 0x30 ∨ op = 0x31 then some .s
  else if 0x32 ≤ op ∧ op ≤ 0x38 then some .a
  else if 0x40 ≤ op ∧ op ≤ 0x6A then some .v
  else if (0x80 ≤ op ∧ op ≤ 0x8D) ∨ (0x90 ≤ op ∧ op ≤ 0x96) then some .x
  else if op ∈ [0xA0, 0xA1, 0xA2, 0xA3, 0xB1] then some .m
  else if (0xA8 ≤ op ∧ op ≤ 0xB0) ∨ op = 0xB2 ∨ op = 0xB3 then some .c
  else if (0xC0 ≤ op ∧ op ≤ 0xC4) ∨ (0xC8 ≤ op ∧ op ≤ 0xD5) ∨ (0xD8 ≤ op ∧ op ≤ 0xDE) then some .y
  else none

/-- Form A (R302-R309, R310, R316-R320, R329-R334): the roles of D, A, B and C under modifier `m`; `none` for a modifier
the entry does not list. -/
def shapeA (op m : Nat) : Option (Role × Role × Role × Role) :=
  match op with
  | 0x01 => if m = 0 then some (.un, .un, .un, .un) else none
  | 0x02 => if m ≤ 2 then some (.dst, .src, .src, .un) else none
  | 0x03 => if m ≤ 2 then some (.dst, .src, .src, .un) else none
  | 0x04 => if m = 0 then some (.dst, .src, .src, .un) else none
  | 0x05 => if m ≤ 1 then some (.dst, .src, .src, .un) else none
  | 0x06 => if m ≤ 1 then some (.dst, .src, .src, .un) else none
  | 0x07 => if m ≤ 1 then some (.dst, .src, .src, .un) else none
  | 0x08 => if m = 0 then some (.dst, .src, .src, .un) else none
  | 0x09 => if m = 0 then some (.dst, .src, .src, .un) else none
  | 0x0A => if m = 0 then some (.dst, .src, .src, .un) else none
  | 0x0B => if m = 0 then some (.dst, .src, .src, .un) else none
  | 0x0C => if m = 0 then some (.dst, .src, .src, .un) else none
  | 0x0D => if m = 0 then some (.dst, .src, .src, .un) else none
  | 0x0E => if m = 0 then some (.dst, .src, .src, .un) else none
  | 0x0F => if m = 0 then some (.dst, .src, .src, .un) else none
  | 0x10 => if m ≤ 1 then some (.dst, .src, .src, .un) else none
  | 0x11 => if m ≤ 1 then some (.dst, .src, .src, .un) else none
  | 0x12 => if m = 0 then some (.dst, .src, .un, .un) else none
  | 0x13 => if m = 0 then some (.dst, .src, .un, .un) else none
  | 0x14 => if m = 0 then some (.dst, .src, .un, .un) else none
  | 0x15 => if m ≤ 1 then some (.dst, .src, .src, .src) else none
  | 0x16 => if m = 0 then some (.sd, .src, .src, .src) else none
  | 0x17 => some (.dst, .src, .src, .un)
  | 0x18 => if m ≤ 10 then some (.num, .src, .src, .un) else none
  | 0x19 => if m ≤ 10 then some (.dst, .src, .src, .un) else none
  | 0x1A => if m = 0 then some (.dst, .src, .src, .src) else none
  | 0x1B => if m ≤ 3 then some (.dst, .src, .src, .src) else none
  | 0x1C => if m = 0 then some (.dst, .src, .un, .un) else none
  | 0x1D => if m ≤ 3 then some (.num, .num, .num, .un) else if m = 4 then some (.num, .num, .un, .un) else none
  | 0x1E => if m = 0 then some (.dst, .num, .un, .un) else if m = 1 then some (.num, .src, .un, .un) else none
  | 0x1F => if m ≤ 1 then some (.dst, .src, .src, .un) else none
  | 0x23 => if m = 0 then some (.un, .src, .un, .un) else none
  | 0x25 => if m = 0 then some (.un, .src, .un, .un) else none
  | 0x26 => if m = 0 then some (.un, .un, .un, .un) else none
  | 0x29 => if m = 0 then some (.un, .un, .un, .un) else none
  | 0x2A => if m = 0 then some (.un, .un, .un, .un) else none
  | 0x2B => if m = 0 then some (.un, .src, .un, .un) else none
  | 0x2C => if m = 0 then some (.un, .src, .src, .un) else none
  | 0x2D => if m = 0 then some (.un, .src, .un, .un) else none
  | 0x2E => if m = 0 then some (.un, .src, .un, .un) else none
  | 0x32 => if m = 0 then some (.dst, .un, .un, .un) else none
  | 0x33 => if m = 0 then some (.dst, .src, .un, .un) else none
  | 0x34 => if m = 0 then some (.dst, .src, .un, .un) else if m = 1 then some (.dst, .un, .un, .un) else none
  | 0x35 => if m = 0 then some (.dst, .src, .un, .un) else none
  | 0x36 => if m = 0 then some (.dst, .src, .src, .src) else if m = 1 then some (.dst, .src, .un, .un) else none
  | 0x37 => if m = 0 then some (.dst, .src, .src, .un) else none
  | 0x38 => if m = 0 then some (.dst, .src, .un, .un) else none
  | _ => none

/-- Form B (R310, R311, R314, R315, R321): the roles of A and B. -/
def shapeB (op : Nat) : Option (Role × Role) :=
  match op with
  | 0x20 => some (.src, .src)
  | 0x21 => some (.sd, .src)
  | 0x22 => some (.num, .un)
  | 0x24 => some (.un, .un)
  | 0x27 => some (.src, .un)
  | 0x28 => some (.un, .un)
  | 0x2F => some (.src, .dst)
  | _ => none

/-- Form S (R283): the roles of D and A. -/
def shapeS (op : Nat) : Option (Role × Role) :=
  match op with
  | 0x30 => some (.dst, .src)
  | 0x31 => some (.src, .src)
  | _ => none

/-- How a vector instruction uses its fields (R337, R338): which of VD, VA, VB name a register or a value, how VC stands
(a register, the control byte with the OPX values listed, or the memory control byte), the role of BCAST, and which source
a broadcast replaces (1 VA, 2 VB, 0 none). -/
structure ShapeV where
  vd : Bool
  va : Bool
  vb : Bool
  ctl : Option (List Nat)
  bc : Role
  repl : Nat
deriving DecidableEq, Repr

/-- Form V (R342-R352). -/
def shapeV (op : Nat) : Option ShapeV :=
  match op with
  | 0x40 => some ⟨true, true, true, some [0, 1], .src, 2⟩
  | 0x41 => some ⟨true, true, true, some [0, 1], .src, 2⟩
  | 0x42 => some ⟨true, true, true, some [0, 1], .src, 2⟩
  | 0x43 => some ⟨true, true, true, none, .src, 2⟩
  | 0x44 => some ⟨true, true, true, none, .src, 2⟩
  | 0x45 => some ⟨true, true, true, some [0], .src, 2⟩
  | 0x46 => some ⟨true, true, true, some [0], .src, 2⟩
  | 0x47 => some ⟨true, true, false, some [0, 1], .src, 1⟩
  | 0x48 => some ⟨true, true, false, some [0, 1], .src, 1⟩
  | 0x49 => some ⟨true, true, false, some [0], .src, 1⟩
  | 0x4A => some ⟨true, true, false, some [0], .src, 1⟩
  | 0x4B => some ⟨true, true, false, some [0], .src, 1⟩
  | 0x4C => some ⟨true, true, false, some [0], .src, 1⟩
  | 0x4D => some ⟨true, true, false, some [0], .src, 1⟩
  | 0x4E => some ⟨true, true, true, some [0], .src, 2⟩
  | 0x4F => some ⟨true, true, true, some [0], .src, 2⟩
  | 0x50 => some ⟨true, true, true, some [0], .src, 2⟩
  | 0x51 => some ⟨true, true, true, some [0], .src, 2⟩
  | 0x52 => some ⟨true, true, true, some [0], .src, 2⟩
  | 0x53 => some ⟨true, true, true, some [0], .src, 2⟩
  | 0x54 => some ⟨true, true, true, some [0, 1, 2, 3, 4, 5, 6, 7], .src, 2⟩
  | 0x55 => some ⟨true, true, true, some [0], .src, 2⟩
  | 0x56 => some ⟨true, true, true, some [0, 1, 2], .un, 0⟩
  | 0x57 => some ⟨true, true, true, some [0], .src, 2⟩
  | 0x58 => some ⟨true, false, false, some [0], .src, 0⟩
  | 0x59 => some ⟨true, true, false, some [0, 1, 2, 3, 4, 5], .un, 0⟩
  | 0x5A => some ⟨true, true, false, some [0, 1, 2, 3, 4, 5], .un, 0⟩
  | 0x5B => some ⟨true, true, true, some [0, 1], .src, 2⟩
  | 0x5C => some ⟨true, true, false, some [0], .src, 1⟩
  | 0x5D => some ⟨true, true, false, some [0], .src, 1⟩
  | 0x5E => some ⟨false, true, true, some [0], .dst, 0⟩
  | 0x5F => some ⟨true, false, true, some [0], .src, 0⟩
  | 0x60 => some ⟨true, false, false, none, .src, 0⟩
  | 0x61 => some ⟨true, false, false, none, .src, 0⟩
  | 0x62 => some ⟨true, false, true, none, .src, 0⟩
  | 0x63 => some ⟨true, false, true, none, .src, 0⟩
  | 0x64 => some ⟨true, true, false, none, .src, 0⟩
  | 0x65 => some ⟨true, true, false, none, .src, 0⟩
  | 0x66 => some ⟨true, false, false, some [0], .src, 0⟩
  | 0x67 => some ⟨true, true, true, some [0, 1], .src, 2⟩
  | 0x68 => some ⟨true, true, true, some [0], .src, 2⟩
  | 0x69 => some ⟨true, true, false, some [0], .src, 1⟩
  | 0x6A => some ⟨true, true, false, some [0], .src, 1⟩
  | _ => none

/-- The fields a matrix or tile instruction uses (R366): modifiers above, template (0 none, 1 used with a patch allowed,
2 named), bank, SA, SB. -/
structure ShapeX where
  tpl : Nat
  bank : Bool
  sa : Bool
  sb : Bool
deriving DecidableEq, Repr

/-- Form X (R366). -/
def shapeX (op m : Nat) : Option ShapeX :=
  match op with
  | 0x80 => if m = 0 then some ⟨1, true, true, true⟩ else none
  | 0x81 => if m = 0 then some ⟨1, true, true, true⟩ else none
  | 0x82 => if m ≤ 1 then some ⟨0, true, false, false⟩ else none
  | 0x83 => if m = 0 then some ⟨0, true, false, false⟩ else none
  | 0x84 => if m ≤ 1 then some ⟨1, true, true, false⟩ else none
  | 0x85 => if m ≤ 1 then some ⟨1, true, true, false⟩ else none
  | 0x86 => if m = 0 then some ⟨0, true, true, true⟩ else none
  | 0x87 => if m = 0 then some ⟨0, true, true, true⟩ else none
  | 0x88 => if m = 0 then some ⟨2, false, true, false⟩ else none
  | 0x89 => if m = 0 then some ⟨2, false, true, true⟩ else none
  | 0x8A => if m = 0 then some ⟨2, false, false, false⟩ else if m = 1 then some ⟨0, false, false, false⟩ else none
  | 0x8B => if m = 0 then some ⟨2, false, true, true⟩ else none
  | 0x8C => if m ≤ 1 then some ⟨0, true, false, true⟩ else none
  | 0x8D => if m ≤ 1 then some ⟨0, true, false, true⟩ else none
  | 0x90 => if m ≤ 2 then some ⟨0, false, true, true⟩ else none
  | 0x91 => if m ≤ 2 then some ⟨0, false, true, true⟩ else none
  | 0x92 => if m ≤ 4 then some ⟨0, false, true, true⟩ else none
  | 0x93 => if m = 0 then some ⟨0, false, true, true⟩ else none
  | 0x94 => some ⟨0, false, true, true⟩
  | 0x95 => if m = 0 then some ⟨0, false, true, true⟩ else none
  | 0x96 => if m ≤ 3 then some ⟨0, false, true, true⟩ else none
  | _ => none

/-- Form M (R389-R391, R408): the roles of D, A and B. -/
def shapeM (op : Nat) : Option (Role × Role × Role) :=
  match op with
  | 0xA0 => some (.dst, .src, .src)
  | 0xA1 => some (.src, .src, .src)
  | 0xA2 => some (.un, .src, .src)
  | 0xA3 => some (.dst, .src, .un)
  | 0xB1 => some (.dst, .src, .un)
  | _ => none

/-- The fields of Form M that step 3 of R296 checks: reserved types, and the fixed and RZ fields of FENCE and PUB. -/
def formMOk (op cls ty spc disp : Nat) : Bool :=
  if op = 0xA0 ∨ op = 0xA1 then decide (ty ≤ 13)
  else if op = 0xA2 then decide (ty ≤ 6)
  else if op = 0xA3 then decide (cls = 15 ∧ ty ≤ 7 ∧ spc = 0 ∧ disp = 0)
  else decide (cls = 15 ∧ spc = 0 ∧ disp = 0)

/-- Form C: the kind modifiers of R397 and R401. -/
def kmodOk (op km : Nat) : Bool :=
  match op with
  | 0xAB => decide (km % 8 ≤ 5)
  | 0xAE => decide (km ≤ 3)
  | 0xB2 => decide (km ≤ 3)
  | _ => decide (km = 0)

/-- Form Y (R411, R413, R414, R416-R420): the roles of D, A and B and the use of IDX. -/
def shapeY (op m : Nat) : Option (Role × Role × Role × IxUse) :=
  match op with
  | 0xC0 => if m = 0 then some (.un, .src, .un, .peg) else none
  | 0xC1 => if m = 0 then some (.dst, .src, .src, .peg) else none
  | 0xC2 => if m = 0 then some (.dst, .src, .src, .peg) else none
  | 0xC3 => if m ≤ 3 then some (.dst, .un, .un, .peg) else none
  | 0xC4 => if m = 0 then some (.un, .src, .un, .peg) else none
  | 0xC8 => if m = 0 then some (.un, .src, .un, .bob) else none
  | 0xC9 => if m = 0 then some (.dst, .src, .src, .bob) else none
  | 0xCA => if m = 0 then some (.un, .src, .un, .bob) else none
  | 0xCB => if m ≤ 1 then some (.dst, .src, .src, .bob) else none
  | 0xCC => if m = 0 then some (.un, .src, .un, .bob) else none
  | 0xCD => if m = 0 then some (.dst, .src, .src, .bob) else none
  | 0xCE => if m = 0 then some (.dst, .src, .src, .bob) else none
  | 0xCF => if m ≤ 4 then some (.dst, .un, .un, .bob) else none
  | 0xD0 => if m = 0 then some (.dst, .src, .src, .zero) else none
  | 0xD1 => if m = 0 then some (.dst, .src, .src, .scalar) else none
  | 0xD2 => if m ≤ 8 then some (.dst, .src, .src, .zero) else none
  | 0xD3 => if m = 0 then some (.dst, .src, .src, .scalar) else none
  | 0xD4 => if m = 0 then some (.dst, .src, .src, .zero) else none
  | 0xD5 => if m ≤ 1 then some (.dst, .src, .un, .zero) else none
  | 0xD8 => if m ≤ 1 then some (.dst, .src, .un, .zero) else none
  | 0xD9 => if m = 0 then some (.dst, .src, .src, .scalar) else none
  | 0xDA => if m = 0 then some (.un, .un, .un, .zero) else none
  | 0xDB => if m = 0 then some (.un, .un, .un, .zero) else none
  | 0xDC => if m = 0 then some (.dst, .dst, .un, .zero) else none
  | 0xDD => if m ≤ 2 then some (.dst, .un, .un, .zero) else none
  | 0xDE => if m = 0 then some (.dst, .src, .un, .zero) else none
  | _ => none

/-- The form and the opcode of a row. -/
def Instr.form : Instr → Form
  | .nop f => .a 0x01 f
  | .add f => .a 0x02 f
  | .sub f => .a 0x03 f
  | .mul f => .a 0x04 f
  | .mulh f => .a 0x05 f
  | .div f => .a 0x06 f
  | .rem f => .a 0x07 f
  | .and_ f => .a 0x08 f
  | .or_ f => .a 0x09 f
  | .xor f => .a 0x0A f
  | .andn f => .a 0x0B f
  | .shl f => .a 0x0C f
  | .shr f => .a 0x0D f
  | .sar f => .a 0x0E f
  | .rot f => .a 0x0F f
  | .min f => .a 0x10 f
  | .max f => .a 0x11 f
  | .clz f => .a 0x12 f
  | .ctz f => .a 0x13 f
  | .popc f => .a 0x14 f
  | .ext f => .a 0x15 f
  | .ins f => .a 0x16 f
  | .sel f => .a 0x17 f
  | .cmp f => .a 0x18 f
  | .cmps f => .a 0x19 f
  | .mad f => .a 0x1A f
  | .lea f => .a 0x1B f
  | .mov f => .a 0x1C f
  | .plog f => .a 0x1D f
  | .movp f => .a 0x1E f
  | .clmul f => .a 0x1F f
  | .br f => .b 0x20 f
  | .brc f => .b 0x21 f
  | .brp f => .b 0x22 f
  | .jmp f => .a 0x23 f
  | .call f => .b 0x24 f
  | .callr f => .a 0x25 f
  | .ret f => .a 0x26 f
  | .loop f => .b 0x27 f
  | .lend f => .b 0x28 f
  | .lendCnt f => .b 0x28 f
  | .qpt f => .a 0x29 f
  | .halt f => .a 0x2A f
  | .yield f => .a 0x2B f
  | .rlabel f => .a 0x2C f
  | .trap f => .a 0x2D f
  | .brk f => .a 0x2E f
  | .fork f => .b 0x2F f
  | .sysrd f => .s 0x30 f
  | .syswr f => .s 0x31 f
  | .time f => .a 0x32 f
  | .perf f => .a 0x33 f
  | .genRd f => .a 0x34 f
  | .genAdv f => .a 0x35 f
  | .tlbi f => .a 0x36 f
  | .tlbiAll f => .a 0x36 f
  | .evpost f => .a 0x37 f
  | .id f => .a 0x38 f
  | .vadd f => .v 0x40 f
  | .vsub f => .v 0x41 f
  | .vmul f => .v 0x42 f
  | .vfma f => .v 0x43 f
  | .vfms f => .v 0x44 f
  | .vmin f => .v 0x45 f
  | .vmax f => .v 0x46 f
  | .vabs f => .v 0x47 f
  | .vneg f => .v 0x48 f
  | .vrcp f => .v 0x49 f
  | .vrsq f => .v 0x4A f
  | .vsqrt f => .v 0x4B f
  | .vexp2 f => .v 0x4C f
  | .vlog2 f => .v 0x4D f
  | .vand f => .v 0x4E f
  | .vor f => .v 0x4F f
  | .vxor f => .v 0x50 f
  | .vshl f => .v 0x51 f
  | .vshr f => .v 0x52 f
  | .vsar f => .v 0x53 f
  | .vcmp f => .v 0x54 f
  | .vsel f => .v 0x55 f
  | .vcvt f => .v 0x56 f
  | .vperm f => .v 0x57 f
  | .vbcast f => .v 0x58 f
  | .vreduce f => .v 0x59 f
  | .vscan f => .v 0x5A f
  | .vclmul f => .v 0x5B f
  | .vpopc f => .v 0x5C f
  | .vmov f => .v 0x5D f
  | .vextr f => .v 0x5E f
  | .vinsr f => .v 0x5F f
  | .vld f => .v 0x60 f
  | .vst f => .v 0x61 f
  | .vldx f => .v 0x62 f
  | .vstx f => .v 0x63 f
  | .vldh f => .v 0x64 f
  | .vsth f => .v 0x65 f
  | .viota f => .v 0x66 f
  | .vdot f => .v 0x67 f
  | .vmulh f => .v 0x68 f
  | .vround f => .v 0x69 f
  | .vclass f => .v 0x6A f
  | .mma f => .x 0x80 f
  | .mmaz f => .x 0x81 f
  | .mzero f => .x 0x82 f
  | .mhad f => .x 0x83 f
  | .mdrain f => .x 0x84 f
  | .mdrainv f => .x 0x85 f
  | .mldacc f => .x 0x86 f
  | .mstacc f => .x 0x87 f
  | .mtplLd f => .x 0x88 f
  | .mtplDiff f => .x 0x89 f
  | .mtplSwap f => .x 0x8A f
  | .mtplRd f => .x 0x8B f
  | .mscale f => .x 0x8C f
  | .mscaleRebase f => .x 0x8C f
  | .mstat f => .x 0x8D f
  | .tquant f => .x 0x90 f
  | .tdeq f => .x 0x91 f
  | .ttrn f => .x 0x92 f
  | .tcomp f => .x 0x93 f
  | .tchk f => .x 0x94 f
  | .tpack f => .x 0x95 f
  | .tunpk f => .x 0x96 f
  | .ld f => .m 0xA0 f
  | .st f => .m 0xA1 f
  | .pref f => .m 0xA2 f
  | .fence f => .m 0xA3 f
  | .pub f => .m 0xB1 f
  | .cpy f => .c 0xA8 f
  | .cpyG f => .c 0xA9 f
  | .cpyS f => .c 0xAA f
  | .cpyR f => .c 0xAB f
  | .cpyM f => .c 0xAC f
  | .cpyW f => .c 0xAD f
  | .cpyT f => .c 0xAE f
  | .cpyTs f => .c 0xAF f
  | .cpyF f => .c 0xB0 f
  | .cpyX f => .c 0xB2 f
  | .cpyQ f => .c 0xB3 f
  | .pegPost f => .y 0xC0 f
  | .pegWait f => .y 0xC1 f
  | .pegTake f => .y 0xC2 f
  | .pegRd f => .y 0xC3 f
  | .pegErr f => .y 0xC4 f
  | .bbSet f => .y 0xC8 f
  | .bbClaim f => .y 0xC9 f
  | .bbFill f => .y 0xCA f
  | .bbTake f => .y 0xCB f
  | .bbTakeAt f => .y 0xCB f
  | .bbFree f => .y 0xCC f
  | .bbWaitf f => .y 0xCD f
  | .bbWaite f => .y 0xCE f
  | .bbRd f => .y 0xCF f
  | .sadd f => .y 0xD0 f
  | .swait f => .y 0xD1 f
  | .satom f => .y 0xD2 f
  | .scas f => .y 0xD3 f
  | .serr f => .y 0xD4 f
  | .sget f => .y 0xD5 f
  | .launch f => .y 0xD8 f
  | .tspawn f => .y 0xD9 f
  | .tend f => .y 0xDA f
  | .tabort f => .y 0xDB f
  | .cfr f => .y 0xDC f
  | .tid f => .y 0xDD f
  | .narg f => .y 0xDE f
  | .copyAccept _ => .event
  | .copyBoxStart _ _ => .event
  | .copyComplete _ _ => .event
  | .tableWalk _ _ => .event
  | .faultRecordWrite _ _ => .event
  | .responseRingDoorbell _ _ _ => .event
  | .faultResponseRetry _ _ => .event
  | .faultResponseFail _ _ => .event
  | .atsTranslationCompletion _ _ _ _ _ _ => .event
  | .priPageResponse _ _ _ => .event
  | .atsInvalidationRequest _ _ _ => .event
  | .atsInvalidationCompletion _ => .event
  | .tlbiL2Drop _ _ => .event
  | .tlbiCoreAcknowledge _ => .event
  | .tlbiWatchdogExpiry _ _ => .event
  | .heapWindowWrite _ _ _ => .event
  | .syncWindowWrite _ _ _ => .event
  | .configChangeCut _ => .event
  | .dirtySelWrite _ => .event
  | .timeScaleWrite _ _ => .event
  | .timeOffWrite _ _ => .event
  | .errModeWrite _ => .event
  | .perfSelWrite _ _ _ => .event
  | .groundRemoteArrival _ => .event
  | .bankStarvation _ _ _ => .event
  | .sliceScrubVisit _ _ _ => .event
  | .syncOperationArrival _ => .event
  | .refreshWindowBoundary _ => .event
  | .perBankRefresh _ => .event
  | .refreshEnd _ => .event
  | .rowActivation _ _ _ => .event
  | .disturbIntervalReset _ => .event
  | .chanRetireWrite _ => .event
  | .channelTrainingFail _ _ => .event
  | .stripeRebuild _ => .event
  | .chanSecondFail _ _ => .event
  | .hbmScrubVisit _ _ => .event
  | .tagSweepVisit _ => .event
  | .sweepPassEnd => .event
  | .ownerTableWrite _ _ => .event
  | .peerWindowWrite _ _ => .event
  | .multicastGroupWrite _ _ => .event
  | .peerRequestArrival _ _ _ _ _ _ => .event
  | .leaseEntrySet _ _ => .event
  | .leaseOffer _ _ => .event
  | .leaseReclaimStart _ => .event
  | .borrowEntrySet _ _ => .event
  | .borrowWait _ _ => .event
  | .borrowWithdraw _ => .event
  | .borrowRelease _ => .event
  | .grant _ _ => .event
  | .accept _ _ => .event
  | .refuse _ _ => .event
  | .reclaim _ _ => .event
  | .borrowerFlushDone _ => .event
  | .flushed _ _ => .event
  | .pieceCopyDone _ => .event
  | .pieceMoved _ _ => .event
  | .pieceAck _ _ => .event
  | .done_ _ _ => .event
  | .release_ _ _ => .event
  | .lenderReclaimTimeout _ => .event
  | .borrowerReclaimTimeout _ => .event
  | .peerTimeout _ => .event
  | .flitCheckFail _ => .event
  | .retrainComplete _ => .event
  | .bucketLeak _ => .event
  | .packetUndeliverable _ _ => .event
  | .genAdvAccept => .event
  | .dieCut _ => .event
  | .coreCut _ => .event
  | .sequencerChangeDone => .event
  | .publishPrepare _ _ _ => .event
  | .prepareAck _ _ _ => .event
  | .publishCommit _ _ _ => .event
  | .commitAck _ _ _ => .event
  | .twinSwap _ _ _ => .event
  | .groupDispatch _ _ => .event
  | .groupEnd _ => .event
  | .succDecrement _ => .event
  | .waitTimeout _ => .event
  | .yieldExpiry _ => .event
  | .matrixEntryStart _ => .event
  | .matrixEntryComplete _ => .event
  | .vectorEntryStart _ => .event
  | .launchQueueDoorbell _ _ _ => .event
  | .packetFetch _ _ => .event
  | .launchRetry _ _ => .event
  | .completionRecordWrite _ _ => .event
  | .launchQueueEnable _ _ _ => .event
  | .teardownStart _ _ => .event
  | .teardownWindowExpiry _ _ => .event
  | .queueBlockMove _ _ _ => .event
  | .preemptRequest _ => .event
  | .safePointArrival _ => .event
  | .preemptDeadlineExpiry _ _ => .event
  | .saveComplete _ => .event
  | .restore_ _ => .event
  | .preemptWatchdog _ => .event
  | .taskStart _ _ => .event
  | .taskCommit _ _ => .event
  | .debugAttach _ _ => .event
  | .debugHalt _ _ => .event
  | .debugResume _ _ => .event
  | .debugStep _ _ => .event
  | .debugDataWrite _ _ => .event
  | .hostRegisterWrite _ _ _ _ _ => .event
  | .bar2WinWrite _ _ => .event
  | .hostHeapWrite _ _ _ _ => .event
  | .hostMemoryRead _ _ _ => .event
  | .eventRecordWrite _ => .event
  | .msixUnmask _ _ => .event
  | .mailboxSend _ _ _ => .event
  | .mailboxBusyClear _ _ => .event
  | .vfFunctionLevelReset _ => .event
  | .dieReset _ => .event
  | .devReset => .event
  | .coldReset => .event
  | .fwCmd _ => .event
  | .attCmd _ => .event
  | .clockStep _ => .event
  | .thermalTrip => .event
  | .peerResponseArrival _ _ _ => .event
  | .memoryAccessArrival _ => .event
  | .accessResponseReturn _ => .event
  | .vectorEntryComplete _ => .event
  | .powerLoss => .event
  | .resetEnd _ _ => .event
  | .attestationReportDone => .event
  | .stationUp _ _ => .event

/-! The instruction that an opcode and the fields of its form stand for (R289). -/

def ofA (op : Nat) (f : FA) : Option Instr :=
  match op with
  | 0x01 => some (.nop f)
  | 0x02 => some (.add f)
  | 0x03 => some (.sub f)
  | 0x04 => some (.mul f)
  | 0x05 => some (.mulh f)
  | 0x06 => some (.div f)
  | 0x07 => some (.rem f)
  | 0x08 => some (.and_ f)
  | 0x09 => some (.or_ f)
  | 0x0A => some (.xor f)
  | 0x0B => some (.andn f)
  | 0x0C => some (.shl f)
  | 0x0D => some (.shr f)
  | 0x0E => some (.sar f)
  | 0x0F => some (.rot f)
  | 0x10 => some (.min f)
  | 0x11 => some (.max f)
  | 0x12 => some (.clz f)
  | 0x13 => some (.ctz f)
  | 0x14 => some (.popc f)
  | 0x15 => some (.ext f)
  | 0x16 => some (.ins f)
  | 0x17 => some (.sel f)
  | 0x18 => some (.cmp f)
  | 0x19 => some (.cmps f)
  | 0x1A => some (.mad f)
  | 0x1B => some (.lea f)
  | 0x1C => some (.mov f)
  | 0x1D => some (.plog f)
  | 0x1E => some (.movp f)
  | 0x1F => some (.clmul f)
  | 0x23 => some (.jmp f)
  | 0x25 => some (.callr f)
  | 0x26 => some (.ret f)
  | 0x29 => some (.qpt f)
  | 0x2A => some (.halt f)
  | 0x2B => some (.yield f)
  | 0x2C => some (.rlabel f)
  | 0x2D => some (.trap f)
  | 0x2E => some (.brk f)
  | 0x32 => some (.time f)
  | 0x33 => some (.perf f)
  | 0x34 => some (.genRd f)
  | 0x35 => some (.genAdv f)
  | 0x36 => some (if f.m = 1 then .tlbiAll f else .tlbi f)
  | 0x37 => some (.evpost f)
  | 0x38 => some (.id f)
  | _ => none

def ofB (op : Nat) (f : FB) : Option Instr :=
  match op with
  | 0x20 => some (.br f)
  | 0x21 => some (.brc f)
  | 0x22 => some (.brp f)
  | 0x24 => some (.call f)
  | 0x27 => some (.loop f)
  | 0x28 => some (if f.cond = 1 then .lendCnt f else .lend f)
  | 0x2F => some (.fork f)
  | _ => none

def ofS (op : Nat) (f : FS) : Option Instr :=
  match op with
  | 0x30 => some (.sysrd f)
  | 0x31 => some (.syswr f)
  | _ => none

def ofV (op : Nat) (f : FV) : Option Instr :=
  match op with
  | 0x40 => some (.vadd f)
  | 0x41 => some (.vsub f)
  | 0x42 => some (.vmul f)
  | 0x43 => some (.vfma f)
  | 0x44 => some (.vfms f)
  | 0x45 => some (.vmin f)
  | 0x46 => some (.vmax f)
  | 0x47 => some (.vabs f)
  | 0x48 => some (.vneg f)
  | 0x49 => some (.vrcp f)
  | 0x4A => some (.vrsq f)
  | 0x4B => some (.vsqrt f)
  | 0x4C => some (.vexp2 f)
  | 0x4D => some (.vlog2 f)
  | 0x4E => some (.vand f)
  | 0x4F => some (.vor f)
  | 0x50 => some (.vxor f)
  | 0x51 => some (.vshl f)
  | 0x52 => some (.vshr f)
  | 0x53 => some (.vsar f)
  | 0x54 => some (.vcmp f)
  | 0x55 => some (.vsel f)
  | 0x56 => some (.vcvt f)
  | 0x57 => some (.vperm f)
  | 0x58 => some (.vbcast f)
  | 0x59 => some (.vreduce f)
  | 0x5A => some (.vscan f)
  | 0x5B => some (.vclmul f)
  | 0x5C => some (.vpopc f)
  | 0x5D => some (.vmov f)
  | 0x5E => some (.vextr f)
  | 0x5F => some (.vinsr f)
  | 0x60 => some (.vld f)
  | 0x61 => some (.vst f)
  | 0x62 => some (.vldx f)
  | 0x63 => some (.vstx f)
  | 0x64 => some (.vldh f)
  | 0x65 => some (.vsth f)
  | 0x66 => some (.viota f)
  | 0x67 => some (.vdot f)
  | 0x68 => some (.vmulh f)
  | 0x69 => some (.vround f)
  | 0x6A => some (.vclass f)
  | _ => none

def ofX (op : Nat) (f : FX) : Option Instr :=
  match op with
  | 0x80 => some (.mma f)
  | 0x81 => some (.mmaz f)
  | 0x82 => some (.mzero f)
  | 0x83 => some (.mhad f)
  | 0x84 => some (.mdrain f)
  | 0x85 => some (.mdrainv f)
  | 0x86 => some (.mldacc f)
  | 0x87 => some (.mstacc f)
  | 0x88 => some (.mtplLd f)
  | 0x89 => some (.mtplDiff f)
  | 0x8A => some (.mtplSwap f)
  | 0x8B => some (.mtplRd f)
  | 0x8C => some (if f.m = 1 then .mscaleRebase f else .mscale f)
  | 0x8D => some (.mstat f)
  | 0x90 => some (.tquant f)
  | 0x91 => some (.tdeq f)
  | 0x92 => some (.ttrn f)
  | 0x93 => some (.tcomp f)
  | 0x94 => some (.tchk f)
  | 0x95 => some (.tpack f)
  | 0x96 => some (.tunpk f)
  | _ => none

def ofM (op : Nat) (f : FM) : Option Instr :=
  match op with
  | 0xA0 => some (.ld f)
  | 0xA1 => some (.st f)
  | 0xA2 => some (.pref f)
  | 0xA3 => some (.fence f)
  | 0xB1 => some (.pub f)
  | _ => none

def ofC (op : Nat) (f : FC) : Option Instr :=
  match op with
  | 0xA8 => some (.cpy f)
  | 0xA9 => some (.cpyG f)
  | 0xAA => some (.cpyS f)
  | 0xAB => some (.cpyR f)
  | 0xAC => some (.cpyM f)
  | 0xAD => some (.cpyW f)
  | 0xAE => some (.cpyT f)
  | 0xAF => some (.cpyTs f)
  | 0xB0 => some (.cpyF f)
  | 0xB2 => some (.cpyX f)
  | 0xB3 => some (.cpyQ f)
  | _ => none

def ofY (op : Nat) (f : FY) : Option Instr :=
  match op with
  | 0xC0 => some (.pegPost f)
  | 0xC1 => some (.pegWait f)
  | 0xC2 => some (.pegTake f)
  | 0xC3 => some (.pegRd f)
  | 0xC4 => some (.pegErr f)
  | 0xC8 => some (.bbSet f)
  | 0xC9 => some (.bbClaim f)
  | 0xCA => some (.bbFill f)
  | 0xCB => some (if f.m = 1 then .bbTakeAt f else .bbTake f)
  | 0xCC => some (.bbFree f)
  | 0xCD => some (.bbWaitf f)
  | 0xCE => some (.bbWaite f)
  | 0xCF => some (.bbRd f)
  | 0xD0 => some (.sadd f)
  | 0xD1 => some (.swait f)
  | 0xD2 => some (.satom f)
  | 0xD3 => some (.scas f)
  | 0xD4 => some (.serr f)
  | 0xD5 => some (.sget f)
  | 0xD8 => some (.launch f)
  | 0xD9 => some (.tspawn f)
  | 0xDA => some (.tend f)
  | 0xDB => some (.tabort f)
  | 0xDC => some (.cfr f)
  | 0xDD => some (.tid f)
  | 0xDE => some (.narg f)
  | _ => none

end Sys2Proof
end

