-- ==== Sys2Proof/WellFormed.lean ====
section
/-! DEFINITION. Well-formed instructions: those that pass steps 2 to 5 of R296, that is, those that some instruction word
encodes. Each check names the rule that makes it. The rows that no word encodes are steps of units, and are well formed. -/
namespace Sys2Proof

/-- R280: what an operand field may hold in its role. -/
def Opd.okFor : Role → Opd → Bool
  | .src, .num _ => false
  | .src, _ => true
  | .dst, .reg _ => true
  | .dst, _ => false
  | .sd, .reg _ => true
  | .sd, _ => false
  | .num, .num _ => true
  | .num, _ => false
  | .un, o => decide (o = .imm 0)

/-- Whether an operand takes a literal. -/
def Opd.isLit : Opd → Bool
  | .lit32 _ => true
  | .lit64 _ => true
  | _ => false

/-- R278: at most one operand takes a literal. -/
def oneLit (l : List Opd) : Bool := decide ((l.filter Opd.isLit).length ≤ 1)

/-- R285, R287: the post peg and its increment. -/
def incOk (post : BitVec 8) (inc : BitVec 4) : Bool := if post = 0xFF then decide (inc = 0) else decide (inc ≠ 0)

/-- R337: the control byte. -/
def ctlOk (opx : List Nat) (vc : BitVec 8) : Bool :=
  opx.contains (bits vc.toNat 4 4) && if bit vc.toNat 3 then decide (bits vc.toNat 0 3 ≤ 4) else decide (bits vc.toNat 0 3 = 0)

/-- R285, R364: the zero bits and the field select of a patch literal. -/
def patchOk (v : BitVec 32) : Bool := decide (bits v.toNat 20 12 = 0) && decide (bits v.toNat 16 4 ≤ 8)

def FA.ok (op : Nat) (f : FA) : Bool :=
  match shapeA op f.m.toNat with
  | none => false
  | some (d, a, b, c) => f.d.okFor d && f.a.okFor a && f.b.okFor b && f.c.okFor c && oneLit [f.d, f.a, f.b, f.c]

/-- R282: the condition is not reserved and the offset is a multiple of 4; R315 for the record form of LEND. -/
def FB.ok (op : Nat) (f : FB) : Bool :=
  match shapeB op with
  | none => false
  | some (a, b) => f.a.okFor a && f.b.okFor b && oneLit [f.a, f.b] && decide (f.cond.toNat ≤ 10) &&
    decide (f.off.toNat % 4 = 0) && (op != 0x28 || f.cond != 0 || decide (f.off = 0))

/-- R293: the RZ bits of the identifier. -/
def sysIdOk (id : BitVec 16) : Bool := let s := bits id.toNat 13 3; !(bit id.toNat 12) || decide (s = 1 ∨ s = 2)

def FS.ok (op : Nat) (f : FS) : Bool :=
  match shapeS op with
  | none => false
  | some (d, a) => f.d.okFor d && f.a.okFor a && oneLit [f.d, f.a] && sysIdOk f.id

/-- The Form V fields that step 3 of R296 checks (R284, R337, R338, R347, R349). -/
def vFieldsOk (op : Nat) (sh : ShapeV) (ty vd va vb vc : Nat) (hasBc : Bool) : Bool :=
  decide (ty ≤ 13) && (sh.vd || decide (vd = 0)) && (sh.va || decide (va = 0)) && (sh.vb || decide (vb = 0)) &&
  (match sh.ctl with | none => true | some l => ctlOk l (BitVec.ofNat 8 vc)) &&
  (!(hasBc && sh.repl = 1) || decide (va = 0)) && (!(hasBc && sh.repl = 2) || decide (vb = 0)) &&
  (op != 0x56 || (decide (vb < 128) && decide (vb % 16 ≤ 13))) && (op != 0x58 || decide (vc = 0))

def FV.ok (op : Nat) (f : FV) : Bool :=
  match shapeV op with
  | none => false
  | some sh => f.bc.okFor sh.bc &&
    vFieldsOk op sh f.ty.toNat f.vd.toNat f.va.toNat f.vb.toNat f.vc.toNat (decide (f.bc ≠ .imm 0))

def FX.ok (op : Nat) (f : FX) : Bool :=
  match shapeX op f.m.toNat with
  | none => false
  | some sh => (sh.tpl != 0 || decide (f.tpl = 0)) && (sh.bank || decide (f.bank = 0)) && (sh.sa || decide (f.sa = 0)) &&
    (sh.sb || decide (f.sb = 0)) && incOk f.post f.inc &&
    (match f.patch with | none => true | some v => decide (sh.tpl = 1) && patchOk v)

def FM.ok (op : Nat) (f : FM) : Bool :=
  match shapeM op with
  | none => false
  | some (d, a, b) => f.d.okFor d && f.a.okFor a && f.b.okFor b && oneLit [f.d, f.a, f.b] &&
    formMOk op f.cls.toNat f.ty.toNat f.spc.toNat f.disp.toNat

/-- R287: SPEC 1-56, RAW not 3, a listed KMOD, CT 0 or 1, a bobbin target's upper bits zero. -/
def FC.ok (op : Nat) (f : FC) : Bool :=
  decide (formOf op = some .c) && decide (1 ≤ f.spec.toNat ∧ f.spec.toNat ≤ 56) && decide (f.raw ≠ 3) &&
  kmodOk op f.km.toNat && incOk f.post f.inc && decide (f.ct.toNat ≤ 1) &&
  (f.ct != 1 || f.post == 0xFF || decide (f.post.toNat < 32))

def FY.ok (op : Nat) (f : FY) : Bool :=
  match shapeY op f.m.toNat with
  | none => false
  | some (d, a, b, u) => f.d.okFor d && f.a.okFor a && f.b.okFor b && oneLit [f.d, f.a, f.b] &&
    (match u with | .zero => decide (f.ix = 0) | _ => true)

/-- The rows that share an opcode are told apart by their modifier (R315, R333, R371, R414). -/
def splitOk : Instr → Bool
  | .lend f => f.cond != 1
  | .lendCnt f => f.cond == 1
  | .tlbi f => f.m != 1
  | .tlbiAll f => f.m == 1
  | .mscale f => f.m != 1
  | .mscaleRebase f => f.m == 1
  | .bbTake f => f.m != 1
  | .bbTakeAt f => f.m == 1
  | _ => true

def Form.ok : Form → Bool
  | .a op f => f.ok op
  | .b op f => f.ok op
  | .s op f => f.ok op
  | .v op f => f.ok op
  | .x op f => f.ok op
  | .m op f => f.ok op
  | .c op f => f.ok op
  | .y op f => f.ok op
  | .event => true

/-- An instruction that some instruction word encodes, or a step that no word encodes. -/
def WellFormed (i : Instr) : Bool := i.form.ok && splitOk i

end Sys2Proof
end

