-- ==== Sys2Proof/Decode.lean ====
section
/-! DEFINITION. Decoding a base word and the eight bytes after it (R276-R290, steps 2 to 5 of R296), total on any bits and
rejecting by code; the encoder, written from the same field tables; and the length of an instruction. -/
namespace Sys2Proof

/-- R278: the literal that follows a base word. -/
inductive Lit where
  | none
  | w32 (v : BitVec 32)
  | w64 (v : BitVec 64)
deriving DecidableEq, Repr

/-! ### Operand fields -/

/-- R279: the code of an operand. -/
def Opd.code : Opd → Nat
  | .reg n => n.toNat
  | .imm n => 0x40 + n.toNat
  | .neg n => 0x80 + n.toNat
  | .lit32 _ => 0xFE
  | .lit64 _ => 0xFF
  | .num v => v.toNat

/-- The literal an operand brings. -/
def Opd.lit : Opd → Lit
  | .lit32 v => .w32 v
  | .lit64 v => .w64 v
  | _ => .none

/-- R279, R280: the operand that a field's code stands for in its role; ILLEGAL_OPERAND for a reserved code and for a
constant or literal in a destination. -/
def decodeOpd (r : Role) (code : Nat) (lit : BitVec 64) : Except Code Opd :=
  match r with
  | .num => .ok (.num (BitVec.ofNat 8 code))
  | .un => .ok (.imm 0)
  | .src =>
    if code < 0x40 then .ok (.reg (BitVec.ofNat 6 code))
    else if code < 0x80 then .ok (.imm (BitVec.ofNat 6 (code - 0x40)))
    else if code < 0xA0 then .ok (.neg (BitVec.ofNat 5 (code - 0x80)))
    else if code = 0xFE then .ok (.lit32 (lit.setWidth 32))
    else if code = 0xFF then .ok (.lit64 lit)
    else .error cOperand
  | _ => if code < 0x40 then .ok (.reg (BitVec.ofNat 6 code)) else .error cOperand

/-- R280: an unused operand-code field holds 0x40. -/
def unusedOk (r : Role) (code : Nat) : Bool := r != .un || code == 0x40

/-- R278: whether a field in this role fetches a literal. -/
def fetchesLit (r : Role) (code : Nat) : Bool := (r == .src || r == .dst || r == .sd) && decide (0xFE ≤ code)

/-- R278: more than one literal. -/
def manyLits (l : List (Role × Nat)) : Bool := decide ((l.filter (fun x => fetchesLit x.1 x.2)).length > 1)

/-! ### Forms -/

def decodePred (w : Nat) : Pred := ⟨BitVec.ofNat 3 (bits w 53 3), bit w 52⟩

def decodeA (op w : Nat) (lit : BitVec 64) : Except Code FA :=
  let m := bits w 48 4; let cd := bits w 40 8; let ca := bits w 32 8; let cb := bits w 24 8; let cc := bits w 16 8
  match shapeA op m with
  | none => .error cEncoding
  | some (rd, ra, rb, rc) =>
    if bits w 0 16 ≠ 0 ∨ ¬(unusedOk rd cd && unusedOk ra ca && unusedOk rb cb && unusedOk rc cc) then .error cEncoding
    else if manyLits [(rd, cd), (ra, ca), (rb, cb), (rc, cc)] then .error cOperand
    else do
      let d ← decodeOpd rd cd lit
      let a ← decodeOpd ra ca lit
      let b ← decodeOpd rb cb lit
      let c ← decodeOpd rc cc lit
      .ok ⟨decodePred w, BitVec.ofNat 4 m, d, a, b, c⟩

def decodeB (op w : Nat) (lit : BitVec 64) : Except Code FB :=
  let cond := bits w 48 4; let ca := bits w 40 8; let cb := bits w 32 8; let off := bits w 0 32
  match shapeB op with
  | none => .error cEncoding
  | some (ra, rb) =>
    if ¬(unusedOk ra ca && unusedOk rb cb) ∨ cond > 10 ∨ off % 4 ≠ 0 ∨ (op = 0x28 ∧ cond = 0 ∧ off ≠ 0) then .error cEncoding
    else if manyLits [(ra, ca), (rb, cb)] then .error cOperand
    else do
      let a ← decodeOpd ra ca lit
      let b ← decodeOpd rb cb lit
      .ok ⟨decodePred w, BitVec.ofNat 4 cond, a, b, BitVec.ofNat 32 off⟩

def decodeS (op w : Nat) (lit : BitVec 64) : Except Code FS :=
  let cd := bits w 40 8; let ca := bits w 32 8; let id := BitVec.ofNat 16 (bits w 16 16)
  match shapeS op with
  | none => .error cEncoding
  | some (rd, ra) =>
    if bits w 48 4 ≠ 0 ∨ bits w 0 16 ≠ 0 ∨ sysIdOk id = false then .error cEncoding
    else if manyLits [(rd, cd), (ra, ca)] then .error cOperand
    else do
      let d ← decodeOpd rd cd lit
      let a ← decodeOpd ra ca lit
      .ok ⟨decodePred w, d, a, id⟩

def decodeV (op w : Nat) (lit : BitVec 64) : Except Code FV :=
  let ty := bits w 48 4; let vd := bits w 40 8; let va := bits w 32 8; let vb := bits w 24 8; let vc := bits w 16 8
  let cb := bits w 8 8
  match shapeV op with
  | none => .error cEncoding
  | some sh =>
    if bits w 0 8 ≠ 0 ∨ ¬(unusedOk sh.bc cb) ∨ vFieldsOk op sh ty vd va vb vc (decide (cb ≠ 0x40)) = false then .error cEncoding
    else do
      let b ← decodeOpd sh.bc cb lit
      .ok ⟨decodePred w, BitVec.ofNat 4 ty, BitVec.ofNat 8 vd, BitVec.ofNat 8 va, BitVec.ofNat 8 vb, BitVec.ofNat 8 vc, b⟩

def decodeX (op w : Nat) (lit : BitVec 64) : Except Code FX :=
  let m := bits w 48 3; let tpl := bits w 42 6; let bank := bits w 39 3; let sa := bits w 33 6; let sb := bits w 27 6
  let post := BitVec.ofNat 8 (bits w 8 8); let inc := BitVec.ofNat 4 (bits w 4 4); let pv := lit.setWidth 32
  match shapeX op m with
  | none => .error cEncoding
  | some sh =>
    if bits w 24 3 ≠ 0 ∨ bits w 0 4 ≠ 0 ∨ (sh.tpl = 0 ∧ tpl ≠ 0) ∨ (sh.bank = false ∧ bank ≠ 0) ∨ (sh.sa = false ∧ sa ≠ 0) ∨
        (sh.sb = false ∧ sb ≠ 0) ∨ incOk post inc = false ∨ (bit w 51 ∧ sh.tpl ≠ 1) then .error cEncoding
    else if bit w 51 && !(patchOk pv) then .error cEncoding
    else .ok ⟨decodePred w, BitVec.ofNat 3 m, BitVec.ofNat 6 tpl, BitVec.ofNat 3 bank, BitVec.ofNat 6 sa, BitVec.ofNat 6 sb,
      BitVec.ofNat 8 (bits w 16 8), post, inc, if bit w 51 then some pv else none⟩

def decodeM (op w : Nat) (lit : BitVec 64) : Except Code FM :=
  let cls := bits w 48 4; let cd := bits w 40 8; let ca := bits w 32 8; let cb := bits w 24 8
  let ty := bits w 20 4; let spc := bits w 16 4; let disp := bits w 0 16
  match shapeM op with
  | none => .error cEncoding
  | some (rd, ra, rb) =>
    if ¬(unusedOk rd cd && unusedOk ra ca && unusedOk rb cb) ∨ formMOk op cls ty spc disp = false then .error cEncoding
    else if manyLits [(rd, cd), (ra, ca), (rb, cb)] then .error cOperand
    else do
      let d ← decodeOpd rd cd lit
      let a ← decodeOpd ra ca lit
      let b ← decodeOpd rb cb lit
      .ok ⟨decodePred w, BitVec.ofNat 4 cls, d, a, b, BitVec.ofNat 4 ty, BitVec.ofNat 4 spc, BitVec.ofNat 16 disp⟩

def decodeC (op w : Nat) : Except Code FC :=
  let spec := bits w 42 6; let raw := bits w 40 2; let km := bits w 36 4; let post := BitVec.ofNat 8 (bits w 8 8)
  let inc := BitVec.ofNat 4 (bits w 4 4); let ct := bits w 0 4
  if bits w 24 12 ≠ 0 ∨ raw = 3 ∨ kmodOk op km = false ∨ incOk post inc = false ∨ ct > 1 ∨
      (ct = 1 ∧ post ≠ 0xFF ∧ post.toNat ≥ 32) then .error cEncoding
  else if spec = 0 ∨ spec > 56 then .error cOperand
  else .ok ⟨decodePred w, BitVec.ofNat 4 (bits w 48 4), BitVec.ofNat 6 spec, BitVec.ofNat 2 raw, BitVec.ofNat 4 km,
    BitVec.ofNat 8 (bits w 16 8), post, inc, BitVec.ofNat 4 ct⟩

def decodeY (op w : Nat) (lit : BitVec 64) : Except Code FY :=
  let m := bits w 48 4; let cd := bits w 40 8; let ca := bits w 32 8; let cb := bits w 24 8; let ix := bits w 16 8
  match shapeY op m with
  | none => .error cEncoding
  | some (rd, ra, rb, u) =>
    if bits w 0 16 ≠ 0 ∨ ¬(unusedOk rd cd && unusedOk ra ca && unusedOk rb cb) ∨ (u = .zero ∧ ix ≠ 0) then .error cEncoding
    else if manyLits [(rd, cd), (ra, ca), (rb, cb)] then .error cOperand
    else do
      let d ← decodeOpd rd cd lit
      let a ← decodeOpd ra ca lit
      let b ← decodeOpd rb cb lit
      .ok ⟨decodePred w, BitVec.ofNat 4 m, d, a, b, BitVec.ofNat 8 ix⟩

/-- The instruction that an opcode's table gives, or ILLEGAL_OPCODE. -/
def named (x : Option Instr) : Except Code Instr :=
  match x with
  | some i => .ok i
  | none => .error cOpcode

/-- R289, R296 steps 2 to 5: the instruction of a base word `w` and the bytes `lit` after it, or the trap code. -/
def decode (w lit : BitVec 64) : Except Code Instr :=
  let n := w.toNat; let op := bits n 56 8
  match formOf op with
  | none => .error cOpcode
  | some .a => do let f ← decodeA op n lit; named (ofA op f)
  | some .b => do let f ← decodeB op n lit; named (ofB op f)
  | some .s => do let f ← decodeS op n lit; named (ofS op f)
  | some .v => do let f ← decodeV op n lit; named (ofV op f)
  | some .x => do let f ← decodeX op n lit; named (ofX op f)
  | some .m => do let f ← decodeM op n lit; named (ofM op f)
  | some .c => do let f ← decodeC op n; named (ofC op f)
  | some .y => do let f ← decodeY op n lit; named (ofY op f)

/-! ### The encoder -/

/-- The common fields OPC, PRED and PNEG in place (R277). -/
def encodeHead (op : Nat) (p : Pred) : Nat := op * 2 ^ 56 + p.n.toNat * 2 ^ 53 + (if p.neg then 1 else 0) * 2 ^ 52

/-- The first literal among operands. -/
def firstLit : List Opd → Lit
  | [] => .none
  | o :: t => match o.lit with
    | .none => firstLit t
    | l => l

def encodeA (op : Nat) (f : FA) : Nat :=
  encodeHead op f.pr + f.m.toNat * 2 ^ 48 + f.d.code * 2 ^ 40 + f.a.code * 2 ^ 32 + f.b.code * 2 ^ 24 + f.c.code * 2 ^ 16

def encodeB (op : Nat) (f : FB) : Nat :=
  encodeHead op f.pr + f.cond.toNat * 2 ^ 48 + f.a.code * 2 ^ 40 + f.b.code * 2 ^ 32 + f.off.toNat

def encodeS (op : Nat) (f : FS) : Nat := encodeHead op f.pr + f.d.code * 2 ^ 40 + f.a.code * 2 ^ 32 + f.id.toNat * 2 ^ 16

def encodeV (op : Nat) (f : FV) : Nat :=
  encodeHead op f.pr + f.ty.toNat * 2 ^ 48 + f.vd.toNat * 2 ^ 40 + f.va.toNat * 2 ^ 32 + f.vb.toNat * 2 ^ 24 +
    f.vc.toNat * 2 ^ 16 + f.bc.code * 2 ^ 8

def encodeX (op : Nat) (f : FX) : Nat :=
  encodeHead op f.pr + (if f.patch.isSome then 1 else 0) * 2 ^ 51 + f.m.toNat * 2 ^ 48 + f.tpl.toNat * 2 ^ 42 +
    f.bank.toNat * 2 ^ 39 + f.sa.toNat * 2 ^ 33 + f.sb.toNat * 2 ^ 27 + f.wait.toNat * 2 ^ 16 + f.post.toNat * 2 ^ 8 +
    f.inc.toNat * 2 ^ 4

def encodeM (op : Nat) (f : FM) : Nat :=
  encodeHead op f.pr + f.cls.toNat * 2 ^ 48 + f.d.code * 2 ^ 40 + f.a.code * 2 ^ 32 + f.b.code * 2 ^ 24 +
    f.ty.toNat * 2 ^ 20 + f.spc.toNat * 2 ^ 16 + f.disp.toNat

def encodeC (op : Nat) (f : FC) : Nat :=
  encodeHead op f.pr + f.cls.toNat * 2 ^ 48 + f.spec.toNat * 2 ^ 42 + f.raw.toNat * 2 ^ 40 + f.km.toNat * 2 ^ 36 +
    f.wait.toNat * 2 ^ 16 + f.post.toNat * 2 ^ 8 + f.inc.toNat * 2 ^ 4 + f.ct.toNat

def encodeY (op : Nat) (f : FY) : Nat :=
  encodeHead op f.pr + f.m.toNat * 2 ^ 48 + f.d.code * 2 ^ 40 + f.a.code * 2 ^ 32 + f.b.code * 2 ^ 24 + f.ix.toNat * 2 ^ 16

/-- The base word of a row, if a word encodes it. -/
def encodeWord (i : Instr) : Option (BitVec 64) :=
  match i.form with
  | .a op f => some (BitVec.ofNat 64 (encodeA op f))
  | .b op f => some (BitVec.ofNat 64 (encodeB op f))
  | .s op f => some (BitVec.ofNat 64 (encodeS op f))
  | .v op f => some (BitVec.ofNat 64 (encodeV op f))
  | .x op f => some (BitVec.ofNat 64 (encodeX op f))
  | .m op f => some (BitVec.ofNat 64 (encodeM op f))
  | .c op f => some (BitVec.ofNat 64 (encodeC op f))
  | .y op f => some (BitVec.ofNat 64 (encodeY op f))
  | .event => none

/-- The literal of an instruction (R278; R285 for the patch of Form X). -/
def Instr.literal (i : Instr) : Lit :=
  match i.form with
  | .a _ f => firstLit [f.d, f.a, f.b, f.c]
  | .b _ f => firstLit [f.a, f.b]
  | .s _ f => firstLit [f.d, f.a]
  | .v _ f => f.bc.lit
  | .x _ f => match f.patch with | none => .none | some v => .w32 v
  | .m _ f => firstLit [f.d, f.a, f.b]
  | .c _ _ => .none
  | .y _ f => firstLit [f.d, f.a, f.b]
  | .event => .none

/-- The eight bytes after a base word as a number; the bytes above a literal are what follows it in memory, here zero. -/
def Lit.bits64 : Lit → BitVec 64
  | .none => 0
  | .w32 v => v.setWidth 64
  | .w64 v => v

/-- R276: the length that a literal gives. -/
def Lit.len : Lit → Nat
  | .none => 8
  | .w32 _ => 12
  | .w64 _ => 16

/-- R276: the length of an instruction in bytes. -/
def Instr.len (i : Instr) : Nat := i.literal.len

/-- The words of an instruction: its base word and the literal bytes after it. -/
def encode (i : Instr) : Option (BitVec 64 × BitVec 64) :=
  match encodeWord i with
  | some w => some (w, i.literal.bits64)
  | none => none

/-- The instruction that the decoder reads from the bytes whose little-endian number is `w`, as the opcode table numbers
bits; bytes beyond `nbits` are zero. -/
def decodeTableWord (nbits w : Nat) : Option Instr :=
  let x := w % 2 ^ nbits
  match decode (BitVec.ofNat 64 (x % 2 ^ 64)) (BitVec.ofNat 64 (x / 2 ^ 64)) with
  | .ok i => some i
  | .error _ => none

end Sys2Proof
end

