-- ==== Sys2Proof/Machine/Float.lean ====
section
/-! DEFINITION. Floating-point formats, rounding and the exact operations that every unit shares (R131 to R139): values are a
sign, a natural mantissa and an integer exponent, results are rounded once, flags are a number with FPC's bits. -/
namespace Sys2Proof

/-! ### Flags (R135) -/

def fNV : Nat := 1
def fDZ : Nat := 2
def fOF : Nat := 4
def fUF : Nat := 8
def fNX : Nat := 16

/-! ### Formats (R131) -/

/-- A format: exponent and fraction bits, bias, and which of the three kinds of special values it has. -/
structure Fmt where
  eb : Nat
  fb : Nat
  bias : Nat
  /-- 0 IEEE and BF16; 1 E4M3; 2 E5M2. -/
  kind : Nat
deriving DecidableEq, Repr

def fmt64 : Fmt := ⟨11, 52, 1023, 0⟩
def fmt32 : Fmt := ⟨8, 23, 127, 0⟩
def fmt16 : Fmt := ⟨5, 10, 15, 0⟩
def fmtBf : Fmt := ⟨8, 7, 127, 0⟩
def fmtE4 : Fmt := ⟨4, 3, 7, 1⟩
def fmtE5 : Fmt := ⟨5, 2, 15, 2⟩
def fmt128 : Fmt := ⟨15, 112, 16383, 0⟩

def Fmt.width (f : Fmt) : Nat := 1 + f.eb + f.fb
/-- The encoding of the largest finite magnitude. -/
def Fmt.maxFin (f : Fmt) : Nat := if f.kind = 1 then 0x7E else (2 ^ f.eb - 1) * 2 ^ f.fb - 1
/-- The encoding of infinity; E4M3 has none, and its NaN stands there (R136). -/
def Fmt.infBits (f : Fmt) : Nat := if f.kind = 1 then 0x7F else (2 ^ f.eb - 1) * 2 ^ f.fb
/-- R131: the canonical NaN. -/
def Fmt.nan (f : Fmt) : Nat :=
  if f.kind = 1 then 0x7F else (2 ^ f.eb - 1) * 2 ^ f.fb + 2 ^ (f.fb - 1)
def Fmt.signBit (f : Fmt) (neg : Bool) : Nat := if neg then 2 ^ (f.width - 1) else 0

/-- What an encoding stands for: `num` is m × 2^e. -/
inductive FVal where
  | nan (signalling : Bool)
  | inf (neg : Bool)
  | num (neg : Bool) (m : Nat) (e : Int)
deriving DecidableEq, Repr

/-- R131, R132: decode an encoding. -/
def Fmt.decode (f : Fmt) (x : Nat) : FVal :=
  let x := x % 2 ^ f.width
  let neg := bit x (f.width - 1)
  let ex := bits x f.fb f.eb
  let fr := bits x 0 f.fb
  if ex = 2 ^ f.eb - 1 ∧ (f.kind ≠ 1 ∨ fr = 7) then
    if fr = 0 then .inf neg else .nan (f.kind == 0 && !(bit fr (f.fb - 1)))
  else if ex = 0 then .num neg fr (1 - (f.bias : Int) - f.fb)
  else .num neg (2 ^ f.fb + fr) ((ex : Int) - f.bias - f.fb)

def FVal.isNan : FVal → Bool
  | .nan _ => true
  | _ => false
def FVal.isSnan : FVal → Bool
  | .nan b => b
  | _ => false
def FVal.isZero : FVal → Bool
  | .num _ m _ => m == 0
  | _ => false
def FVal.neg? : FVal → Bool
  | .nan _ => false
  | .inf b => b
  | .num b _ _ => b
def FVal.flip : FVal → FVal
  | .nan b => .nan b
  | .inf b => .inf !b
  | .num b m e => .num (!b) m e

/-! ### Rounding (R134, R136) -/

/-- R134: whether the magnitude r + rem / 2^k rounds up, `odd` the last bit of r. -/
def roundsUp (rm : Nat) (neg odd : Bool) (rem half : Nat) : Bool :=
  match rm with
  | 0 => decide (rem > half) || (rem == half && odd)
  | 1 => false
  | 2 => !neg && decide (rem > 0)
  | 3 => neg && decide (rem > 0)
  | _ => decide (rem ≥ half)

/-- Round the magnitude m × 2^e to a multiple of 2^q: the multiple and whether it is inexact. -/
def roundAt (rm : Nat) (neg : Bool) (m : Nat) (e q : Int) : Nat × Bool :=
  if q ≤ e then (m * 2 ^ (e - q).toNat, false)
  else
    let k := (q - e).toNat
    let r := m / 2 ^ k
    let rem := m % 2 ^ k
    (if roundsUp rm neg (r % 2 == 1) rem (2 ^ (k - 1)) && rem != 0 then r + 1 else r, rem != 0)

/-- What an overflowing result becomes: by mode (R136), or the largest finite value under saturation (R137, R138). -/
def Fmt.overflow (f : Fmt) (rm : Nat) (neg sat : Bool) : Nat :=
  if sat then f.signBit neg + f.maxFin
  else
    let toMax := match rm with
      | 1 => true
      | 2 => neg
      | 3 => !neg
      | _ => false
    if toMax then f.signBit neg + f.maxFin else if f.kind = 1 then 0x7F else f.signBit neg + f.infBits

/-- R134, R136: round ±m × 2^e once to a format: the encoding and the flags. -/
def Fmt.round (f : Fmt) (rm : Nat) (sat neg : Bool) (m : Nat) (e : Int) : Nat × Nat :=
  if m = 0 then (f.signBit neg, 0)
  else
    let ex : Int := (bitLen m : Int) - 1 + e
    let emin : Int := 1 - (f.bias : Int)
    let q := max ex emin - f.fb
    let r := roundAt rm neg m e q
    let enc : Int := if r.1 < 2 ^ f.fb then r.1 else (q + f.fb + f.bias) * 2 ^ f.fb + r.1 - 2 ^ f.fb
    if enc > f.maxFin then (f.overflow rm neg sat, fOF + fNX)
    else
      let unb := roundAt rm neg m e (ex - f.fb)
      let tiny := decide (ex < emin) && !(ex == emin - 1 && unb.1 == 2 ^ (f.fb + 1))
      (f.signBit neg + enc.toNat, if r.2 then (if tiny then fUF + fNX else fNX) else 0)

/-- Round a magnitude that lies strictly between m × 2^e and (m + 1) × 2^e, or is m × 2^e when `sticky` is false; the
quantum of the result must be at least 2^e. -/
def Fmt.roundSticky (f : Fmt) (rm : Nat) (neg : Bool) (m : Nat) (e : Int) (sticky : Bool) : Nat × Nat :=
  f.round rm false neg (4 * m + if sticky then 1 else 0) (e - 2)

/-- A NaN result: the canonical NaN, with NV when it is produced from operands none of which is a NaN, or when one signals. -/
def Fmt.nanResult (f : Fmt) (xs : List FVal) : Nat × Nat :=
  (f.nan, if xs.any (·.isSnan) || !(xs.any (·.isNan)) then fNV else 0)

/-! ### Exact sums and products -/

/-- The integer ±m × 2^(e - q), for q ≤ e. -/
def scaled (neg : Bool) (m : Nat) (e q : Int) : Int :=
  let v : Int := m * 2 ^ (e - q).toNat
  if neg then -v else v

/-- Add two numbers exactly and round once; an exact zero sum of unlike signs is +0, or -0 under RDN. -/
def Fmt.addNum (f : Fmt) (rm : Nat) (n1 : Bool) (m1 : Nat) (e1 : Int) (n2 : Bool) (m2 : Nat) (e2 : Int) : Nat × Nat :=
  let q := min e1 e2
  let v := scaled n1 m1 e1 q + scaled n2 m2 e2 q
  if v = 0 then
    (f.signBit (if m1 = 0 ∧ m2 = 0 ∧ n1 = n2 then n1 else rm == 3), 0)
  else f.round rm false (decide (v < 0)) v.natAbs q

/-- R342: the sum of two values, rounded once to `f`. -/
def Fmt.add (f : Fmt) (rm : Nat) (x y : FVal) : Nat × Nat :=
  match x, y with
  | .nan _, _ => f.nanResult [x, y]
  | _, .nan _ => f.nanResult [x, y]
  | .inf a, .inf b => if a = b then (f.signBit a + f.infBits, 0) else f.nanResult [x, y]
  | .inf a, _ => (f.signBit a + f.infBits, 0)
  | _, .inf b => (f.signBit b + f.infBits, 0)
  | .num n1 m1 e1, .num n2 m2 e2 => f.addNum rm n1 m1 e1 n2 m2 e2

/-- The exact product of two values; a quiet NaN for infinity times zero. -/
def FVal.mul (x y : FVal) : FVal :=
  match x, y with
  | .nan a, .nan b => .nan (a || b)
  | .nan a, _ => .nan a
  | _, .nan b => .nan b
  | .inf a, .inf b => .inf (a != b)
  | .inf a, .num b m _ => if m = 0 then .nan false else .inf (a != b)
  | .num a m _, .inf b => if m = 0 then .nan false else .inf (a != b)
  | .num a m e, .num b k g => .num (a != b) (m * k) (e + g)

/-- Round a value to a format under R136; NaN flags come from the operands. -/
def Fmt.ofVal (f : Fmt) (rm : Nat) (x : FVal) : Nat × Nat :=
  match x with
  | .nan _ => (f.nan, 0)
  | .inf a => (f.signBit a + f.infBits, 0)
  | .num a m e => f.round rm false a m e

/-- The product of two values, rounded once. -/
def Fmt.mul (f : Fmt) (rm : Nat) (x y : FVal) : Nat × Nat :=
  match x.mul y with
  | .nan _ => f.nanResult [x, y]
  | p => f.ofVal rm p

/-- x × y + z, rounded once; infinity times zero is invalid whatever z is. -/
def Fmt.fma (f : Fmt) (rm : Nat) (x y z : FVal) : Nat × Nat :=
  let p := x.mul y
  if p.isNan then
    (f.nan, if x.isSnan || y.isSnan || z.isSnan || !(x.isNan || y.isNan) then fNV else 0)
  else if z.isNan then (f.nan, if z.isSnan then fNV else 0)
  else
    let r := f.add rm p z
    r

/-! ### Comparison -/

/-- The order of two values that are not NaN: whether x < y. Zeros of both signs are equal. -/
def FVal.lt (x y : FVal) : Bool :=
  match x, y with
  | .nan _, _ => false
  | _, .nan _ => false
  | .inf a, .inf b => a && !b
  | .inf a, _ => a
  | _, .inf b => !b
  | .num a m e, .num b k g => let q := min e g; decide (scaled a m e q < scaled b k g q)

def FVal.eqv (x y : FVal) : Bool := !x.isNan && !y.isNan && !(x.lt y) && !(y.lt x)

/-! ### Conversions (R137 to R139) -/

/-- Convert a value to a format; `sat` as R137 (.sat) and R138 (unless .nsat) give it. -/
def Fmt.convert (f : Fmt) (rm : Nat) (sat : Bool) (x : FVal) : Nat × Nat :=
  match x with
  | .nan b => (f.nan, if b then fNV else 0)
  | .inf a => if sat then (f.signBit a + f.maxFin, fNX) else if f.kind = 1 then (0x7F, fNX) else (f.signBit a + f.infBits, 0)
  | .num a m e => f.round rm sat a m e

/-- R139: convert a value to an integer type of `w` bits. -/
def toIntType (w : Nat) (signed : Bool) (rm : Nat) (x : FVal) : Nat × Nat :=
  let lo : Int := if signed then -(2 ^ (w - 1)) else 0
  let hi : Int := if signed then 2 ^ (w - 1) - 1 else 2 ^ w - 1
  match x with
  | .nan _ => (0, fNV)
  | .inf a => (ofI w (if a then lo else hi), fNV)
  | .num a m e =>
    let r := roundAt rm a m e 0
    let v : Int := if a then -(r.1 : Int) else r.1
    if v < lo then (ofI w lo, fNV) else if v > hi then (ofI w hi, fNV) else (ofI w v, if r.2 then fNX else 0)

/-- R343: round to an integral value in the format. -/
def Fmt.roundIntegral (f : Fmt) (rm : Nat) (x : Nat) : Nat × Nat :=
  match f.decode x with
  | .nan b => (f.nan, if b then fNV else 0)
  | .inf a => (f.signBit a + f.infBits, 0)
  | .num a m e =>
    let r := roundAt rm a m e (max e 0)
    ((f.round rm false a r.1 (max e 0)).1, if r.2 then fNX else 0)

/-! ### Roots, reciprocals, powers and logarithms (R344) -/

/-- The integer square root of `n < 4^k`, bit by bit from bit k - 1. -/
def isqrt : Nat → Nat → Nat → Nat
  | 0, _, r => r
  | k + 1, n, r => if (r + 2 ^ k) * (r + 2 ^ k) ≤ n then isqrt k n (r + 2 ^ k) else isqrt k n r

/-- Square root of m × 2^e to at least 128 bits: mantissa, exponent, whether inexact. -/
def sqrtParts (m : Nat) (e : Int) : Nat × Int × Bool :=
  let s := 280 - (bitLen m : Int)
  let s := if (e - s) % 2 = 0 then s else s + 1
  let n := if s < 0 then m else m * 2 ^ s.toNat
  let r := isqrt 142 n 0
  (r, (e - s) / 2, r * r != n)

def Fmt.sqrt (f : Fmt) (rm : Nat) (x : FVal) : Nat × Nat :=
  match x with
  | .nan _ => f.nanResult [x]
  | .inf a => if a then f.nanResult [x] else (f.infBits, 0)
  | .num a m e =>
    if m = 0 then (f.signBit a, 0) else if a then f.nanResult [x]
    else let r := sqrtParts m e; f.roundSticky rm false r.1 r.2.1 r.2.2

def Fmt.rcp (f : Fmt) (rm : Nat) (x : FVal) : Nat × Nat :=
  match x with
  | .nan _ => f.nanResult [x]
  | .inf a => (f.signBit a, 0)
  | .num a m e =>
    if m = 0 then (f.signBit a + f.infBits, fDZ)
    else let k := bitLen m + 128
      f.roundSticky rm a (2 ^ k / m) (-(k : Int) - e) (2 ^ k % m != 0)

/-- 1 / sqrt(m × 2^e) as sqrt(2^(-e) / m). -/
def Fmt.rsqrt (f : Fmt) (rm : Nat) (x : FVal) : Nat × Nat :=
  match x with
  | .nan _ => f.nanResult [x]
  | .inf a => if a then f.nanResult [x] else (0, 0)
  | .num a m e =>
    if m = 0 then (f.signBit a + f.infBits, fDZ) else if a then f.nanResult [x]
    else
      let k : Nat := 280 + bitLen m
      let k := if (-(k : Int) - e) % 2 = 0 then k else k + 1
      let n := 2 ^ k / m
      let r := isqrt 142 n 0
      f.roundSticky rm false r ((-(k : Int) - e) / 2) (r * r != n || 2 ^ k % m != 0)

/-- Multiply `acc` (1 + fraction of `p` bits) by 2^(2^-1), 2^(2^-2), … where the bits of `fr`, from the highest of `n`, are
set; `root` is 2^(2^-j) in the same fixed point. Log entry 20 (PRESUMED). -/
def pow2Frac (p : Nat) : Nat → Nat → Nat → Nat → Nat
  | 0, _, _, acc => acc
  | n + 1, fr, root, acc =>
    let root := isqrt (p + 2) (root * 2 ^ p) 0
    pow2Frac p n fr root (if bit fr n then acc * root / 2 ^ p else acc)

/-- 2^x, rounded once; exact only for an integral x. Log entry 20 (PRESUMED). -/
def Fmt.exp2 (f : Fmt) (rm : Nat) (x : FVal) : Nat × Nat :=
  match x with
  | .nan _ => f.nanResult [x]
  | .inf a => if a then (0, 0) else (f.infBits, 0)
  | .num a m e =>
    if m = 0 then f.round rm false false 1 0
    else
      let big := decide ((bitLen m : Int) + e > 16)
      if big then (if a then f.round rm false false 1 (-(2 ^ 17)) else f.round rm false false 1 (2 ^ 17))
      else
        let v := scaled a m (e + 192) (min (e + 192) 0)
        let sh := (-(min (e + 192) 0)).toNat
        let fx := v / (2 ^ sh : Int)
        let cut := v % (2 ^ sh : Int) != 0
        let n := fx / (2 ^ 192 : Int)
        let fr := (fx % (2 ^ 192 : Int)).toNat
        let r := pow2Frac 256 192 fr (2 ^ 257) (2 ^ 256)
        f.roundSticky rm false r (n - 256) (fr != 0 || cut)

/-- The first `n` binary digits of log2 of y / 2^p, for y / 2^p in [1, 2). Log entry 20 (PRESUMED). -/
def log2Frac (p : Nat) : Nat → Nat → Nat → Nat
  | 0, _, r => r
  | n + 1, y, r =>
    let z := y * y / 2 ^ p
    if z ≥ 2 ^ (p + 1) then log2Frac p n (z / 2) (2 * r + 1) else log2Frac p n z (2 * r)

/-- log2 x, rounded once; exact only for a power of two. Log entry 20 (PRESUMED). -/
def Fmt.log2 (f : Fmt) (rm : Nat) (x : FVal) : Nat × Nat :=
  match x with
  | .nan _ => f.nanResult [x]
  | .inf a => if a then f.nanResult [x] else (f.infBits, 0)
  | .num a m e =>
    if m = 0 then (f.signBit true + f.infBits, fDZ) else if a then f.nanResult [x]
    else
      let l := bitLen m
      let ex : Int := (l : Int) - 1 + e
      if m = 2 ^ (l - 1) then f.round rm false (decide (ex < 0)) ex.natAbs 0
      else
        let fr := log2Frac 640 192 (m * 2 ^ (641 - l)) 0
        let v : Int := ex * 2 ^ 192 + fr
        if v < 0 then f.roundSticky rm true (v.natAbs - 1) (-192) true else f.roundSticky rm false v.toNat (-192) true

end Sys2Proof
end

