-- ==== Sys2Proof/Config.lean ====
section
/-! DEFINITION. What the spec leaves open: values with no body, so that no proof can see what they are (log entries 2, 7,
9, 11), and the numbers of R2 that describe the THM-9416. -/
namespace Sys2Proof.Config

/-- R2: dies, bays per die, cores per bay. -/
def dies : Nat := 4
def cores : Nat := 192
def strands : Nat := 768
/-- R2, R53: bytes of a scratchpad slice. -/
def sliceBytes : Nat := 0x180000
/-- R84: the end of device memory. -/
def hbmBytes : Nat := 0x7C00000000

/-- Which of several agents that the spec does not order moves next: applied to State.free and to how many there are. -/
opaque pick : Nat → Nat → Nat
/-- R78 to R81, R85: the error that an access meets in a step, if any (the last number is not 0): the kind of its place, two numbers that
name it, and 1 correctable, 2 of data, 3 of a tag. -/
opaque upset : Nat → Nat × Nat × Nat × Nat
/-- R228: entries that a die's spill area holds; the spec gives its bytes and no size of an entry. -/
opaque spillEntries : Nat
/-- R228: the bytes that a spill writes, by place in the spill area; the spec gives an entry no layout. -/
opaque spillCells : Nat → List (Nat × Byte)
/-- R109: the station that a request of a target and an address goes to, of the stations that are up. -/
opaque stationHash : Nat → Nat → Nat
/-- R26, R96: the entry that a full TLB, walk cache or hot-page tracker gives up; the spec names no replacement. -/
opaque victim : Nat → Nat → Nat
/-- R26: the set of the L2 TLB that a translation of a slot and an address enters. -/
opaque tlbSet : Nat → Nat → Nat
/-- R27: the bay of a die through which its walkers read a table entry. -/
opaque walkBay : Nat → Nat
/-- R73: the bay of the home die through which a sync variable of the overflow area is reached, by granule. -/
opaque syncBay : Nat → Nat
/-- R258, R329: what a performance counter of a timing event holds when it is read. -/
opaque perfTimed : Nat → BitVec 48
/-- R31: a function's allocation of outstanding page requests, which the host sets. -/
opaque priAllocation : Nat → Nat
/-- R447, R451: what the power sensor (0) and the temperature sensors of the dies (1 to 4) read next: the outside world's, in W and °C. -/
opaque sensor : Nat → Nat → BitVec 16
/-- R445: the Ed448 signature of a report; the key never leaves the device. -/
opaque sign : Nat → BitVec 912
/-- R444: one of the four key digests held in fuses; none once it is revoked. -/
opaque keyFuse : Nat → Option (BitVec 512)
/-- R444: the fused minimum of the SVN. -/
opaque minSvn : Nat
/-- R443: the image that the module is made with, as a number of bytes. -/
opaque factory : Nat
/-- R445: the identity certificate chain, given at manufacture. -/
opaque idcert : Nat → Byte
/-- A value that the spec does not state (R133 leaves none; used where an operation's result has no stated value). -/
opaque freeValue : Nat → W64
/-- R110, R439: how a device event packs the values of its detail into bytes 8-15 (low half) and 24-31 (high half), by code;
the spec lists the values and gives no places. -/
opaque eventDetail : Nat → List Nat → BitVec 128
/-- R450: UNIT (low byte) and DETAIL of a black-box entry, by code and detail values; the spec says per code and unit only. -/
opaque boxDetail : Nat → List Nat → BitVec 120
/-- R439, R450: CODE of the black-box entry of a ring record whose TYPE (program event 2, tier demotion 0x41) R450 gives no code. -/
opaque boxCode : Nat → Nat
/-- R87, R89: pseudo-channels of a channel and banks of a pseudo-channel, which the spec does not number. -/
opaque pseudoChannels : Nat
opaque memBanks : Nat

end Sys2Proof.Config
end

