-- ==== Sys2Proof/Machine/State.lean ====
section
/-! DEFINITION. The machine's state, all of it plain data: the strands, cores, dies, slots and package registers that the
spec names, memory with its tags, the queues of every engine, what is in flight, and the model's own few fields. -/
namespace Sys2Proof.Machine

/-- Why a step stops the machine. The spec gives every instruction and every event of the table an effect, so the model stops
only where its own agenda is not one of events. -/
inductive Fault where
  /-- Raised by `step` when `State.turn` or the first entry of `State.inputs` names a strand's instruction, which no agent but a
  strand executes. Safe: no behaviour of the hardware is meant. -/
  | notAnEvent
deriving DecidableEq, Repr

/-- Why a step has no meaning. -/
inductive Refusal where
  /-- An instruction of the opcode table that the model gives no meaning yet; raised by Dispatch alone. Safe. -/
  | notModelled (mnemonic : String)
deriving DecidableEq, Repr

/-- An element under an owner tag, with its poison mark (R81, R111). -/
structure Tagged (α : Type) where
  val : α
  tag : Tag
  poison : Bool
deriving DecidableEq, Repr

/-! ### Memory -/

/-- The tag, lease bit and poison bit of a 64-byte granule (R85, R111). -/
structure Gran where
  tag : Tag
  lease : Bool
  poison : Bool
deriving DecidableEq, Repr

/-- The zero state of a granule's side bits (R112). -/
def Gran.zero : Gran := ⟨0, false, false⟩

/-- Bytes by address, with the side bits of their granules. -/
structure TMem where
  bytes : List Host.Cell
  side : Tbl Gran
deriving DecidableEq, Repr

/-- R298: what an aligned 4-byte word of device memory held before a write, with its granule's side bits and the cycle of the write. -/
structure Past where
  word : Nat
  v : BitVec 32
  gran : Gran
  time : Nat
deriving DecidableEq, Repr

/-- Where the bytes of an access lie: device memory, the ground, host memory, a peer. -/
inductive Place where
  | none
  | hbm (a : Nat)
  | ground (a : Nat)
  | host (a : Nat)
  | peer (dev a : Nat)
  /-- Peer memory that this device's bay caches may hold (MODE 0b10, R95). -/
  | cached (dev a : Nat)
  /-- R173: a TWIN read that a replica holds: handle and offset. -/
  | twin (h o : Nat)
deriving DecidableEq, Repr

/-! ### Physical errors -/

/-- Where an error is met: in an array (0 slices, 1 sync SRAM, 2 bay caches, 3 twin tables) at an address, in a granule of device
memory, in an element of a core (R78 to R81, R85). -/
inductive Site where
  | array (arr addr : Nat)
  | hbm (gran : Nat)
  | elem (e : Elem)
deriving DecidableEq, Repr

/-- An error that an access meets; `err` 1 correctable, 2 of data, 3 of a tag. -/
structure Upset where
  site : Site
  err : Nat
deriving DecidableEq, Repr

/-! ### Strands -/

/-- R205: the states of a strand; DEBUG is a mark over the former state. -/
inductive SState where
  | free | running | blocked | parked | halted | taskwait
deriving DecidableEq, Repr

/-- R328: a table entry being staged. -/
structure Staging where
  table : Nat
  entry : Nat
  mask : Nat
  w0 : W64
  w1 : W64
  w2 : W64
deriving DecidableEq, Repr

structure Strand where
  st : SState
  dbg : Bool
  /-- R257: a single step through the port is under way. -/
  oneStep : Bool
  /-- R320: the length of the BRK that the strand stands at in DEBUG, 0 otherwise. -/
  brkLen : Nat
  /-- R320: A of that BRK, which the debug port reads. -/
  brkVal : W64
  grp : Option Nat
  pc : Tagged W64
  sregs : Tbl (Tagged W64)
  pregs : Tbl (Tagged W64)
  /-- The space-0 registers by NUM: FPC, LC, LPH, ITER, RLBL, RCOST (R325). -/
  ctl : Tbl (Tagged W64)
  staged : Option Staging
  /-- Scalars (n), predicates (64 + n) and FPC (72) that earlier instructions have yet to produce (R217, R323). -/
  pend : List Nat
  yieldUntil : Nat
  /-- The key of the running ordered task: its sequence number (R215). -/
  task : Option Nat
  swait : Bool
  /-- R248, R251: the last safe point and the length of the last kernel iteration. -/
  spLph : W64
  spIter : W64
  spCycle : Nat
  iterLen : Option Nat
  atSafe : Bool
  /-- R212: it has issued nothing since it was started. -/
  fresh : Bool
  /-- What the strand has begun and waits for (R217): 0 nothing, 1 a peg or bobbin, 2 a PUB, 3 a GEN.ADV, 4 the peg of a copy
  command, 5 its save or discard, which found it RUNNING, 6 its fetch, which a cut has made old (R298). -/
  stall : Nat
  /-- R175: a peer failed to acknowledge a write of the strand within the link timeout, and no FENCE has reported it yet. -/
  peerLost : Bool
deriving DecidableEq, Repr

/-! ### Core objects -/

/-- R150-R152, R372: an accumulator bank; `x` means mode ACC.X. -/
structure Bank where
  elems : Tbl (BitVec 128)
  anchor : BitVec 16
  x : Bool
  ovf : Bool
  inexact : Bool
deriving DecidableEq, Repr

structure Peg where
  posted : W64
  taken : W64
  latch : Code
deriving DecidableEq, Repr

/-- R62, R413: a bobbin; `size` counts 64-byte units. -/
structure Bob where
  base : BitVec 24
  size : BitVec 16
  count : BitVec 16
  claimed : W64
  filled : W64
  freed : W64
  latch : Code
deriving DecidableEq, Repr

/-- What an engine entry writes when its latency ends (R339, R357). -/
inductive Wr where
  | vreg (n : Nat) (mask val : VReg) (whole : Bool)
  | scalar (n : Nat) (v : W64)
  | pred (n : Nat) (mask v : W64)
  | flags (f : Nat)
  | bank (n : Nat) (b : Bank)
  | tplActive (n : Nat) (v : BitVec 256)
  | tplStandby (n : Nat) (v : BitVec 256)
  /-- Bytes of the core's slice, by slice offset. -/
  | slice (cells : List Host.Cell)
  | load (reg lo w : Nat) (p : Place)
  | store (p : Place) (data : List Byte)
deriving DecidableEq, Repr

/-- An entry of the matrix or vector queue: who issued it and under which tenancy, the instruction, the values read at
issue, and its writes once it has started. -/
structure Ent where
  strand : Nat
  gid : Nat
  slot : Nat
  gen : Nat
  ins : Instr
  pc : W64
  a : W64
  b : W64
  mask : W64
  rm : Nat
  /-- The task that issued it; of a vector entry the entry of the flight list that stands for its memory access (0 for none),
  of a matrix entry the number that the next access would have had at its issue (R359). -/
  task : Option Nat
  acc : Nat
  /-- R367: whether the entry holds its token (or needs none), and the latch code that its wait gave. -/
  tok : Bool
  lat : Code
  started : Option (List Wr)
  poison : Bool
  /-- R341, R360: whether a scalar or predicate that it read at its issue was poisoned. -/
  srcBad : Bool
  /-- Its number of the core's (R126). -/
  num : Nat
deriving DecidableEq, Repr

/-- A waiter on a peg or bobbin of a core (R412): a strand (its global number), or the matrix engine. -/
structure Waiter where
  who : Option Nat
  bob : Bool
  ix : Nat
  /-- 0 PEG.WAIT, 1 PEG.TAKE, 2 BB.CLAIM, 3 BB.TAKE, 4 BB.TAKE.at, 5 BB.WAITF, 6 BB.WAITE, 7 the WAIT of a copy command,
  8 the WAIT of a matrix entry. -/
  kind : Nat
  n : W64
  d : Nat
  len : Nat
  tag : Tag
  deadline : Option Nat
deriving DecidableEq, Repr

/-- R26: a translation; 64 KiB pages and larger, `size` its log2 in bytes. -/
structure Tlb where
  slot : Nat
  gen : Nat
  va : Nat
  size : Nat
  frame : Nat
  mode : Nat
  peer : Nat
  thr : Nat
  host : Bool
  pin : Bool
  cache : Bool
  rd : Bool
  wr : Bool
  /-- Whether D was already set when the walk ended. -/
  dirty : Bool
  /-- The intermediate 64 KiB page behind it (R96). -/
  ipage : Nat
  /-- The address of the leaf that gave PEER, MODE, THR and PIN (R96). -/
  leaf : Nat
deriving DecidableEq, Repr

/-- One access of a copy box (R396): `n` bytes from a source effective address to a destination effective address; `op` 0 reads
and writes, 1 only reads, 2 only writes. -/
structure Piece where
  src : Nat
  dst : Nat
  n : Nat
  op : Nat
deriving DecidableEq, Repr

/-- A box of a copy command under way (R40, R247): its accesses, those done, whether it faulted; what a tile box has read; the
buffer that a TWIN source resolved to; whether an access of it failed; the accesses whose last translation was of the companion bytes of
RAW.TAG (R130). -/
structure Box where
  num : Nat
  pieces : List Piece
  doneMask : W64
  held : Bool
  buf : List Byte
  twin : Option (Place × Nat)
  bad : Bool
  tagSide : W64
deriving DecidableEq, Repr

/-- R170: a granule of this package (in the ground or not, number) of which a command has read the bytes `got`; `old` is what it held
before a tile record was written there since. -/
structure Half where
  gran : Bool × Nat
  got : W64
  old : Option (List Byte × Gran)
deriving DecidableEq, Repr

/-- A copy command from its issue to its end (R392). -/
structure Copy where
  seq : Nat
  strand : Nat
  gid : Nat
  slot : Nat
  gen : Nat
  ins : Instr
  pc : W64
  /-- The number that the next access would have had at its issue (R168). -/
  stamp : Nat
  cs : List W64
  /-- A copy node's launch reference (R209). -/
  node : Option (BitVec 32)
  /-- R392, R427: its words, as they stood at its issue, are `cs`. Whether the wait for the peg is over, and the latch code that it gave. -/
  tok : Bool
  lat : Code
  accepted : Bool
  /-- Number of boxes, fixed at acceptance; BOX_LO and the completed-box bitmap (R246); boxes completed; the next to start. -/
  boxes : Nat
  boxLo : Nat
  doneBoxes : Tbl Bool
  count : Nat
  next : Nat
  open_ : List Box
  /-- The status so far, the box that gave it, its address and subcode (R394); no further box starts once it has ended. -/
  code : Code
  codeBox : Nat
  codeAddr : W64
  sub : Nat
  ended : Bool
  /-- R404: the lowest bad tile, and whether it was poisoned. -/
  tileBad : Option Nat
  tilePoison : Bool
  /-- R402: the destinations captured, their window and the bitmap of refusals; R406: the cursor. -/
  dests : List Nat
  window : Nat
  bitmap : Nat
  cursor : Nat
  /-- R396: the handle whose shadow buffer is the destination, the buffer resolved at acceptance and its length. -/
  twinDst : Option (Nat × Place × Nat)
  /-- R396: where a TWIN source's buffer begins within a granule, at acceptance. -/
  al : Nat
  /-- R407: whether the entry is installed. R403: whether the counter's update was sent, and then (`bound`) answered. -/
  bound : Bool
  sent : Bool
  poison : Bool
  /-- R251: dropped by a discard: it ends without a target update. -/
  quiet : Bool
  /-- R316: issued after a QPT whose acknowledgement is outstanding. -/
  hold : Bool
  /-- R171, R174, R395: the keys of the peer-cached sectors that it wrote, each with the effective address of its first write there. -/
  wrote : List (Nat × Nat)
  /-- R170: the granules that it has read in part. -/
  halves : List Half
deriving DecidableEq, Repr

/-- R228: what a queue of the task hierarchy holds: the next group of a launch, or a resumed group. -/
structure QEnt where
  slot : Nat
  gen : Nat
  prio : Nat
  level : Nat
  order : Nat
  ref : BitVec 32
  resumed : Option Nat
  /-- A token's number of its launch's, in the order in which they are handed out (R227). -/
  num : Nat
deriving DecidableEq, Repr

/-- R238: a 64-byte granule buffered for a task: space (0 heap, 1 ground), its number, the bytes written. -/
structure Pillow where
  task : Nat
  ground : Bool
  gran : Nat
  data : Tbl Byte
  slot : Nat
  gen : Nat
  isArgs : Bool
deriving DecidableEq, Repr

structure Core where
  vregs : Tbl (Tagged VReg)
  banks : Tbl (Tagged Bank)
  pegs : Tbl (Tagged Peg)
  bobs : Tbl (Tagged Bob)
  tplA : Tbl (Tagged (BitVec 256))
  tplS : Tbl (Tagged (BitVec 256))
  mq : List Ent
  vq : List Ent
  cq : List Copy
  /-- R34: the sequence number of the next copy command. -/
  cmdSeq : Nat
  rot : Nat
  waiters : List Waiter
  l1 : List Tlb
  l1Held : List Nat
  queue : List QEnt
  deficit : Tbl Int
  served : Tbl Nat
  chargedAt : Nat
  perf : Tbl (Tagged (BitVec 48))
  pillow : List Pillow
  port : Option Nat
  /-- QPT reached with invalidations pending (R42): the engine starts no box. -/
  qpt : Bool
  /-- R43: the slots whose invalidations' watchdogs expired while a box was mid-way. -/
  forced : List Nat
  /-- R316: the strands that have issued a QPT whose acknowledgements are outstanding. -/
  qptBy : List Nat
  /-- R43: the cycle in which the core reached a QPT, until it acknowledges. -/
  qptAt : Option Nat
  /-- R254: the core has been contained and has taken no group since. -/
  contained : Bool
  /-- The number of the next entry of an engine's queue. -/
  entSeq : Nat
deriving DecidableEq, Repr

/-! ### Die objects -/

structure SyncVar where
  v : W64
  latch : Code
deriving DecidableEq, Repr

/-- R74: a twin-table entry. -/
structure Twin where
  pubseq : W64
  pend : Bool
  loc : Nat
  len : Nat
  shd : Nat
  vis : Nat
deriving DecidableEq, Repr

/-- R71: where a sync variable lives. -/
inductive SLoc where
  | sram (die off : Nat)
  | ovf (die pa : Nat)
deriving DecidableEq, Repr

/-- A SWAIT at its sync engine (R416): `loc` its variable, `d` the result register. -/
structure SyncWait where
  strand : Nat
  slot : Nat
  gen : Nat
  die : Nat
  off : Nat
  loc : SLoc
  bound : W64
  d : Nat
  deadline : Option Nat
deriving DecidableEq, Repr

/-- R172, R173, R407: a publish, or the installation of an entry, at its home. -/
structure Publish where
  slot : Nat
  gen : Nat
  h : Nat
  /-- Scope DIE or PACKAGE. -/
  pkg : Bool
  /-- The strand that waits, with its result register and the length of its PUB; or the copy command (core, seq) that binds. -/
  strand : Option (Nat × Nat × Nat)
  bind : Option (Nat × Nat × Twin)
  started : Bool
  prepared : List Nat
  acked : List Nat
  swapped : List Nat
  done : List Nat
  committed : Bool
deriving DecidableEq, Repr

/-- R28: a walk in progress or waiting. -/
structure Walk where
  slot : Nat
  gen : Nat
  va : Nat
  wr : Bool
  core : Nat
  /-- The accesses that wait: core, command, box, access. -/
  waiters : List (Nat × Nat × Nat × Nat)
  /-- R41 item 2: an L2 drop met the walk. -/
  dropped : Bool
deriving DecidableEq, Repr

/-- R34: a fault record in the device. -/
structure FRec where
  ix : Nat
  slot : Nat
  gen : Nat
  stage2 : Bool
  hostRing : Bool
  addr : Nat
  cause : Nat
  wr : Bool
  level : Nat
  core : Nat
  seq : Nat
  box : Nat
  waiters : List (Nat × Nat × Nat × Nat)
  written : Bool
deriving DecidableEq, Repr

/-- R433: an entry of the walk cache. -/
structure WalkEnt where
  slot : Nat
  gen : Nat
  addr : Nat
  val : W64
deriving DecidableEq, Repr

/-- R66: a valid sector of a bay cache. The bytes of a peer-cached sector are held here; those of device memory, which the
directory keeps coherent, stand in `State.hbm`, and `under` is what HBM itself still holds beneath a dirty sector. -/
structure Sector where
  dirty : Bool
  tag : Tag
  poison : Bool
  data : List Byte
  under : Option (Gran × List Byte)
deriving DecidableEq, Repr

/-- R65: a line of 128 bytes, of device memory or of a peer's (its device number): PA[39:19] and two sectors. -/
structure Line where
  peer : Option Nat
  tag : Nat
  s0 : Option Sector
  s1 : Option Sector
deriving DecidableEq, Repr

/-- R65: a bay cache: its lines by set × 16 + way, the tree of each set, bit k the node k; and the bay's queue (R228). -/
structure Bay where
  lines : Tbl Line
  plru : Tbl Nat
  queue : List QEnt
deriving DecidableEq, Repr

/-- R68: the reader marks of a sector. -/
structure Marks where
  m0 : Option Nat
  m1 : Option Nat
  more : Bool
deriving DecidableEq, Repr

inductive StoreSt where
  | free | pending | live
deriving DecidableEq, Repr

/-- R219: an entry of the pending-launch store. -/
structure StoreEnt where
  st : StoreSt
  pkt : BitVec 2048
  epoch : BitVec 8
  slot : Nat
  gen : Nat
  pred : Nat
  next : Nat
  given : Nat
  ended : Nat
  failed : Code
  q : Option Nat
  order : Nat
  /-- The groups that it will have run: NGROUPS, or fewer after a teardown or a cut. -/
  total : Nat
  /-- R208: the cores on which a group of it has been placed, whose dies' guards hold its operands until the node ends. -/
  ran : List Nat
deriving DecidableEq, Repr

/-- R245: the record of a group that ends with a code other than NONE. -/
structure TrapRec where
  code : Code
  sub : Nat
  flags : Nat
  core : Nat
  strand : Nat
  pc : W64
  ins : W64
  addr : W64
  time : W64
  taskts : W64
deriving DecidableEq, Repr

/-- R234: the states of an ordered task. -/
inductive TState where
  | ready | running | stalled | finished | faulted
deriving DecidableEq, Repr

/-- R233-R237: an uncommitted task. -/
structure Task where
  seq : Nat
  ts : W64
  slot : Nat
  gen : Nat
  entry : W64
  arg0 : W64
  arg1 : W64
  parent : Option Nat
  st : TState
  pool : Option Nat
  strand : Option Nat
  /-- R237: the serving group whose strand last ran it. -/
  gid : Option Nat
  /-- The core that ran it last (R329). -/
  ran : Option Nat
  nonspec : Bool
  /-- Deferred sync operations in program order. -/
  deferred : List Nat
  fault : Option TrapRec
deriving DecidableEq, Repr

structure HotPage where
  slot : Nat
  page : Nat
  count : Nat
deriving DecidableEq, Repr

/-- R450: an entry of the black box. -/
structure BoxEnt where
  ref : W64
  seq : Nat
  code : Nat
  unit : Nat
  slot : Nat
  core : Nat
  detail : Nat
deriving DecidableEq, Repr

structure Die where
  l2 : List Tlb
  walkCache : List WalkEnt
  walks : List Walk
  walkQ : List Walk
  frecs : List FRec
  sync : Tbl (Tagged SyncVar)
  syncWaits : List SyncWait
  twins : Tbl (Tagged Twin)
  holds : List Nat
  pubs : List Publish
  mcast : Tbl (Tagged (BitVec 256))
  bays : Tbl Bay
  marks : Tbl Marks
  store : Tbl StoreEnt
  queue : List QEnt
  spill : List QEnt
  spillBase : BitVec 40
  stray : BitVec 32
  ceSlice : BitVec 32
  ceBayc : BitVec 32
  ceSync : BitVec 32
  /-- R78: the words corrected in this pass, by array and address: the 32-byte words of the slices and bay caches, the words of the sync SRAM. -/
  ceSeen : List (Nat × Nat)
  tasks : List Task
  nextSeq : Nat
  hot : List HotPage
  errFreeze : Bool
  thermFreeze : Bool
  /-- R450: the ring of 4,096 entries, by index. -/
  bbox : Tbl BoxEnt
  bbSeq : Nat
  resetting : Bool
deriving DecidableEq, Repr

/-! ### Slots and functions -/

/-- R221: a host launch queue and its completion records that wait. -/
structure LQueue where
  base : W64
  cbase : W64
  en : Bool
  td : Bool
  die : Nat
  loc : Bool
  size : Nat
  pi : BitVec 32
  ci : BitVec 32
  cpi : BitVec 32
  cci : BitVec 32
  waiting : List (BitVec 128)
  /-- R223: the packet at LQ_CI was refused with FULL. -/
  full : Bool
  /-- R232: when the teardown window ends, and the groups that were ended there. -/
  tdUntil : Nat
  tdCount : Option Nat
deriving DecidableEq, Repr

/-- R33: one ring of a page-request queue. -/
structure Ring where
  base : W64
  size : Nat
  pi : BitVec 32
  ci : BitVec 32
deriving DecidableEq, Repr

/-- R10, R70, R119, R230, R242: the context registers of a slot. -/
structure Ctx where
  gen : BitVec 16
  genLw : BitVec 16
  genDrops : BitVec 32
  heapBase : BitVec 56
  heapLimit : BitVec 40
  heapOff : BitVec 40
  s1Root : BitVec 48
  s2Root : BitVec 48
  pasid : BitVec 20
  maskA : W64
  maskB : W64
  maskC : W64
  syncLimit : BitVec 32
  sramBase : BitVec 23
  sramLen : BitVec 23
  ovfBase : BitVec 40
  dirtyEn : Bool
  tlbiWdog : BitVec 16
  tlbiPosted : Nat
  tlbiDone : W64
  tlbiForced : Nat
  timeScale : W64
  timeOff : W64
  timeExempt : Bool
  schedSlice : BitVec 16
  schedWeight : BitVec 8
  tdWindow : BitVec 16
  preemptDl : BitVec 16
  saveBase : BitVec 40
  saveFrames : BitVec 13
  dbgEn : Bool
  lostPosts : BitVec 32
  perfSel : Tbl (BitVec 16)
  /-- Save frames held: frame number and group (R250). -/
  frames : Tbl Nat
  refusals : Nat
  /-- R89: bytes charged to the slot's HBM bandwidth budget. -/
  bwCharge : Nat
deriving DecidableEq, Repr

/-- R30, R31: host accesses to one 4 KiB page that wait; `ea` is the address that the first of them asked for; `st` 0 for a translation, 1 for the response to a page request, 2 for
room to make one, 3 for the second translation; the accesses are core, command, box, access. -/
structure AtsWait where
  va : Nat
  ea : Nat
  wr : Bool
  st : Nat
  waiters : List (Nat × Nat × Nat × Nat)
deriving DecidableEq, Repr

/-- The host-facing registers of a function (R33, R221, R435-R442, R449). -/
structure Fn where
  lq : Tbl LQueue
  gFault : Ring
  gResp : Ring
  hFault : Ring
  hResp : Ring
  ignored : Nat
  evBase : W64
  evSize : Nat
  evPi : BitVec 32
  evCi : BitVec 32
  evWb : W64
  evLost : BitVec 32
  evBuf : List (BitVec 512)
  msixMask : Tbl Bool
  msixPend : Tbl Bool
  msixTbl : Tbl (BitVec 128)
  mbOut : BitVec 512
  mbIn : BitVec 512
  mbOutBusy : Bool
  mbInBusy : Bool
  mbDrop : Bool
  badAccess : BitVec 32
  bar2Win : Nat
  dbgCore : Nat
  dbgSel : W64
  staged : Option Staging
  atsEn : Bool
  priEn : Bool
  pageReqs : Nat
  atsWait : List AtsWait
  /-- R32: the invalidations to be completed: where each begins, and the boxes (core, command, box) that used what it removed. -/
  atsInv : List (Nat × List (Nat × Nat × Nat))
  resetting : Bool
deriving DecidableEq, Repr

/-! ### The package -/

/-- R121: a change that the generation sequencer carries. -/
inductive SeqReq where
  | genAdv (slot strand d len : Nat)
  | heap (slot : Nat) (base limit off : Nat)
  | sync (slot : Nat) (limit base len ovf : Nat)
  | dirtySel (v : Bool)
  | perfSel (slot k old : Nat)
  | owner (block v old : Nat)
deriving DecidableEq, Repr

structure SeqRun where
  req : SeqReq
  dies : List Nat
  cores : List Nat
deriving DecidableEq, Repr

/-- R41: a posted invalidation. -/
structure Tlbi where
  slot : Nat
  n : Nat
  lo : Nat
  hi : Nat
  all : Bool
  dies : List Nat
  cores : List Nat
  postedAt : Nat
deriving DecidableEq, Repr

/-- R98: a lease entry; `st` 0 FREE, 1 OFFERED, 2 ACTIVE, 3 RECLAIMING. -/
structure Lease where
  st : Nat
  ltag : BitVec 16
  bdev : Nat
  bslot : Nat
  block : Nat
  moved : Nat
  flushed : Bool
  fbk : Nat
  bgen : Nat
  copied : Nat
  since : Nat
  /-- The borrow entry that ACCEPT named. -/
  bidx : Nat
deriving DecidableEq, Repr

/-- R98: a borrow entry; `st` 0 FREE, 1 WAITING, 2 ACTIVE, 3 RECLAIMING, 4 REVOKED. -/
structure Borrow where
  st : Nat
  l3b : Nat
  l3a : Nat
  ipa : Nat
  fbk : Nat
  ltag : BitVec 16
  lblock : Nat
  ldev : Nat
  slot : Nat
  moved : Nat
  lidx : Nat
  flushed : Bool
  since : Nat
deriving DecidableEq, Repr

/-- R94: a peer window. -/
structure Window where
  src : Nat
  owner : Nat
  v : Bool
  wr : Bool
  rd : Bool
  len : Nat
  base : Nat
deriving DecidableEq, Repr

/-- R90: a stack; `st` 0 NORMAL, 1 REBUILDING, 2 RETIRED, 3 FAILED. -/
structure Stack where
  st : Nat
  retCh : Nat
  rbPtr : Nat
deriving DecidableEq, Repr

/-- R89: an entry of a disturbance tracker. -/
structure Track where
  row : Nat
  count : Nat
  slot : Nat
  conf : Nat
deriving DecidableEq, Repr

/-- R87, R89: a bank of memory; `burst` counts the all-bank refreshes that remain. -/
structure MBank where
  debt : Nat
  busy : Bool
  burst : Bool
  track : List Track
  mitig : Tbl Nat
  throttled : List Nat
deriving DecidableEq, Repr

/-- R108: a station; `st` 0 UP, 1 RETRAINING, 2 RETIRED, 3 not yet up. -/
structure Station where
  st : Nat
  level : Nat
  /-- Failed replays by flit of the replay buffer. -/
  fails : Tbl Nat
deriving DecidableEq, Repr

/-- What the device sends to the outside: to a peer, to the host. -/
inductive Msg where
  | krytyth (dev : Nat) (m : BitVec 128)
  | peerReq (dev slot pa : Nat) (wr : Bool) (data : List Byte) (op : Option (Nat × Nat)) (poison : Bool)
  /-- R107: data of a multicast box at an offset of a window; the box has `len` bytes from offset `lo`. -/
  | cast (dev slot window off lo len : Nat) (data : List Byte) (op : Option (Nat × Nat)) (poison : Bool)
  /-- The answer to a request: 0 data or acknowledgement, 1 refused, 2 MOVED, 3 data of a poisoned granule, 4 CONTAINED. -/
  | peerReply (dev ttag code : Nat) (data : List Byte)
  /-- R101: the eviction writes of a piece: every granule whole, under a tag; the bytes that are not zero, the poisoned granules. -/
  | evict (dev slot pa : Nat) (tag : Tag) (cells : List Host.Cell) (bad : List Nat)
  | counter (dev window off die : Nat) (v : W64) (status : Code)
  | msix (fn vec : Nat)
  /-- R30, R31: a translation request and a page request: slot, PASID, address; of a page request whether it is the last of its
  group. -/
  | ats (slot pasid va : Nat)
  | pageReq (slot pasid va : Nat) (wr last : Bool)
  /-- R176: a PCIe memory write of a function and whether it sets Relaxed Ordering; the zero-length read of a FENCE. -/
  | hostWrite (fn : Nat) (ro : Bool) (a : Nat) (data : List Byte)
  | flush (fn : Nat)
  | atsInvDone (slot : Nat)
  | hostRead (data : List Byte)
deriving DecidableEq, Repr

/-- A request sent to a peer and not answered (R95, R109). -/
structure PeerReq where
  id : Nat
  dev : Nat
  slot : Nat
  gen : Nat
  pa : Nat
  wr : Bool
  n : Nat
  /-- Whose access: a flight entry, or a copy command (core, seq) with what it sent (0 data, 1 counter, 2 multicast box to
  destination `x`, 3 the part at byte `x` of an element that it has combined). -/
  acc : Option Nat
  cmd : Option (Nat × Nat × Nat × Nat)
  /-- R174: the key of the peer-cached sector that this writes back, and the strands whose FENCE waits for it. -/
  wb : Option Nat
  fences : List Nat
  poison : Bool
  data : List Byte
  /-- R401: the operation and type of a reducing store's element. -/
  op : Option (Nat × Nat)
  /-- R174: a fetch of a sector for a bay, and whether a write-back or an invalidation has overtaken it. -/
  fetch : Bool
  stale : Bool
  station : Nat
  sentAt : Nat
  /-- What was sent, for sending it again (R108, R109). -/
  msg : Msg
deriving DecidableEq, Repr

/-- A sync operation: 0 SADD, 1 SWAIT, 2+op SATOM, 20 SCAS, 21 SERR, 22 SGET, 23 SGET.err. -/
structure SyncOp where
  op : Nat
  die : Nat
  off : Nat
  b : W64
  e : W64
  deadline : Option Nat
  /-- R72: the sync window (limit, SRAM base, SRAM length, overflow base) that the issuing unit used. -/
  win : Nat × Nat × Nat × Nat
  /-- R177, R239: the ordered task that deferred it, whose writes perform first. -/
  late : Option Nat
deriving DecidableEq, Repr

/-- Why an access is in flight. -/
inductive Why where
  /-- A load of a strand into scalar `d` with type code `ty`. -/
  | load (d ty : Nat)
  | store
  | sync (op : SyncOp) (d : Nat)
  /-- R356: the access of a vector instruction that has not started, or of a store that enters a task's pillow. -/
  | vec (store : Bool)
  /-- R164, R356: an element of a vector load for entry `ent`: register, first bit, width; an element of a vector store. -/
  | vld (ent reg lo w : Nat)
  | vst
  /-- An access of a copy box: core, command, box, access. -/
  | piece (core seq box k : Nat)
  /-- R177: a granule's write of a committed task of a slot of die `die`. -/
  | commit (die : Nat)
  /-- R176: the zero-length read of a FENCE at SYSTEM scope. -/
  | flush
  /-- R417: the packet of a LAUNCH, whose D is scalar `d`. -/
  | launch (d : Nat)
deriving DecidableEq, Repr

/-- An access between its issue and its return (R162, R217): `done` once it has performed, with the bytes read. -/
structure Acc where
  id : Nat
  /-- Its place in the order of issue: its own number, or that of the vector instruction whose element it is. -/
  ord : Nat
  strand : Nat
  core : Nat
  slot : Nat
  gen : Nat
  why : Why
  cls : Nat
  scope : Nat
  src : Place
  dst : Place
  n : Nat
  data : List Byte
  /-- Of an access of a copy box: the places still to be read, and those still to be written, with their lengths. -/
  rsegs : List (Place × Nat)
  wsegs : List (Place × Nat)
  /-- R22: the granules that it reads and those that it writes through pages with CACHE 0. -/
  runc : List Nat
  wunc : List Nat
  /-- The ordered task that the access belongs to. -/
  task : Option Nat
  /-- The PC and first word of the instruction and its effective address, for a trap record. -/
  pc : W64
  ins : W64
  ea : W64
  done : Bool
  /-- R421: a TWIN read, which ordered tasks neither mark nor stall. -/
  twin : Bool
  /-- A code that the access ends with: CONTAINED at a frozen die, UNCORRECTABLE for a poisoned granule of its owner; NONE
  otherwise. -/
  code : Code
deriving DecidableEq, Repr

/-! ### Groups -/

inductive GState where
  | running
  /-- Pre-empted and saved, waiting to resume; its cores and strands are those it last ran on. -/
  | saved
  | restoring
deriving DecidableEq, Repr

/-- R200: a dispatched group. -/
structure Group where
  slot : Nat
  gen : Nat
  ref : BitVec 32
  idx : Nat
  level : Nat
  cores : List Nat
  strands : List Nat
  pkt : BitVec 2048
  /-- First vector register of each strand, by global strand number (R197). -/
  vbase : Tbl Nat
  pro : W64
  ker : W64
  epi : W64
  trip : W64
  st : GState
  q : Option Nat
  /-- R230, R249: when pre-emption was requested, and each core's choice (0 none, 1 drain, 2 save, 3 discard). -/
  pre : Option Nat
  choice : Tbl Nat
  /-- R252, R257: when a strand of the group entered DEBUG, while one is in it. -/
  dbgSince : Option Nat
  frame0 : Option Nat
  copies : List Copy
  dispatched : Nat
  /-- R244: what ends the group; its strands issue no more, and GROUP_END follows when its engines have stopped. -/
  fail : Option TrapRec
deriving DecidableEq, Repr

structure Package where
  dirtyBase : W64
  dirtySel : Bool
  dirtyShown : Bool
  errMode : Bool
  scrubPct : BitVec 4
  distLimit : BitVec 16
  distThrottle : BitVec 8
  lgen : BitVec 16
  stk : Tbl Stack
  owner : Tbl (BitVec 8)
  windows : Tbl Window
  leases : Tbl Lease
  borrows : Tbl Borrow
  chanCorr : Tbl (BitVec 32)
  chanBurst : Tbl (BitVec 32)
  chanUnc : Tbl Nat
  mbanks : Tbl MBank
  seqQ : List SeqReq
  seqRun : Option SeqRun
  tlbis : List Tlbi
  /-- R96: the pages offered, by slot and page, with the address of the leaf whose rewriting ends it. -/
  offered : List (Nat × Nat × Nat)
  passGen : Tbl (BitVec 16)
  /-- R126: the elements visited since the pass began. -/
  visited : List Site
  low : BitVec 16
  stations : Tbl Station
  routes : Tbl (BitVec 16)
  everUp : Bool
  devNo : Nat
  peers : List PeerReq
  /-- R108: requests from peers performed, by device, transaction tag and cycle. -/
  seen : List (Nat × Nat × Nat)
  /-- R101: accesses to a piece being copied: device, slot, request, data, transaction tag. -/
  held : List (Nat × Nat × PeerWhat × BitVec 512 × Nat)
  decs : List (BitVec 32 × Nat × Nat)
  discarded : Nat
  fwStage : W64
  fwStatus : W64
  fwBank : Bool
  /-- FW_CMD has written the other bank since the last reset. -/
  fwNew : Bool
  flash0 : Nat
  flash1 : Nat
  pwrLimit : BitVec 12
  /-- PWR_NOW, and TEMP0-TEMP3 by die, as the sensors read at present. -/
  pwrNow : BitVec 16
  temps : Tbl (BitVec 16)
  attBusy : Bool
  attNonce : BitVec 512
  attOut : BitVec 4096
  meas0 : BitVec 512
  meas1 : BitVec 512
  meas2 : BitVec 512
  meas3 : BitVec 512
  debugStrap : Bool
  clock : Nat
  resetting : Bool
deriving DecidableEq, Repr

/-- Which agent moves next. -/
inductive Turn where
  | strand (n : Nat)
  | event (i : Instr)
deriving DecidableEq, Repr

/-- The whole package. -/
structure State where
  strands : Tbl Strand
  cores : Tbl Core
  dies : Tbl Die
  ctx : Tbl Ctx
  fns : Tbl Fn
  pkg : Package
  hbm : TMem
  ground : TMem
  host : List Host.Cell
  groups : Tbl Group
  flight : List Acc
  sent : List Msg
  ref : W64
  /-- The heap triples and sync windows that units still use between a change's acceptance and their cut (R18, R72): by
  unit (core, or 192 + die) and slot. -/
  oldHeap : Tbl (Nat × Nat × Nat)
  oldSync : Tbl (Nat × Nat × Nat × Nat)
  /-- The model's own: the strand whose instruction is executed, the agent that moves next if pinned, events from outside
  that wait, errors about to be met, steps counted, free values used, the next identifier. -/
  cur : Nat
  turn : Option Turn
  inputs : List Instr
  /-- Errors that accesses meet at the next step. -/
  upsets : List Upset
  /-- R298: the words that writes have replaced while groups ran. -/
  past : List Past
  cycle : Nat
  free : Nat
  nextId : Nat
deriving DecidableEq, Repr

/-! ### The state after reset -/

/-- The zero state of a tagged element (R112). -/
def Tagged.zero {α : Type} (v : α) : Tagged α := ⟨v, 0, false⟩

/-- A zero register. -/
def zReg : Tagged W64 := ⟨0, 0, false⟩
def zVReg : Tagged VReg := ⟨0, 0, false⟩
def zBank0 : Bank := ⟨[], 0, false, false, false⟩
def zBank : Tagged Bank := ⟨zBank0, 0, false⟩
def zPeg : Tagged Peg := ⟨⟨0, 0, 0⟩, 0, false⟩
def zBob : Tagged Bob := ⟨⟨0, 0, 0, 0, 0, 0, 0⟩, 0, false⟩
def zTpl : Tagged (BitVec 256) := ⟨0, 0, false⟩
def zSync : Tagged SyncVar := ⟨⟨0, 0⟩, 0, false⟩
def zTwin0 : Twin := ⟨0, false, 0, 0, 0, 0⟩
def zTwin : Tagged Twin := ⟨zTwin0, 0, false⟩
def zMcast : Tagged (BitVec 256) := ⟨0, 0, false⟩
def zCnt : Tagged (BitVec 48) := ⟨0, 0, false⟩

/-- Log entry 3 (DESIGN CHOICE). -/
def Strand.init : Strand :=
  { st := .free, dbg := false, oneStep := false, brkLen := 0, brkVal := 0, grp := none, pc := zReg, sregs := [], pregs := [], ctl := [], staged := none, pend := [],
    yieldUntil := 0, task := none, swait := false, spLph := 0, spIter := 0, spCycle := 0, iterLen := none, atSafe := false, fresh := false,
    stall := 0, peerLost := false }

/-- R216: the rotation pointer is 3 after core reset. Log entry 4 (DESIGN CHOICE). -/
def Core.init : Core :=
  { vregs := [], banks := [], pegs := [], bobs := [], tplA := [], tplS := [], mq := [], vq := [], cq := [], cmdSeq := 0, rot := 3,
    waiters := [], l1 := [], l1Held := [], queue := [], deficit := [], served := [], chargedAt := 0, perf := [], pillow := [], port := none, qpt := false, forced := [], qptBy := [], qptAt := none, contained := false, entSeq := 0 }

def Bay.init : Bay := ⟨[], [], []⟩
def Line.init : Line := ⟨none, 0, none, none⟩
def Marks.none : Marks := ⟨.none, .none, false⟩
def StoreEnt.init : StoreEnt := ⟨.free, 0, 0, 0, 0, 0, 0, 0, 0, 0, none, 0, 0, []⟩

/-- Log entry 4 (DESIGN CHOICE). -/
def Die.init : Die :=
  { l2 := [], walkCache := [], walks := [], walkQ := [], frecs := [], sync := [], syncWaits := [], twins := [], holds := [],
    pubs := [], mcast := [], bays := [], marks := [], store := [], queue := [], spill := [], spillBase := 0, stray := 0,
    ceSlice := 0, ceBayc := 0, ceSync := 0, ceSeen := [], tasks := [], nextSeq := 0, hot := [], errFreeze := false,
    thermFreeze := false, bbox := [], bbSeq := 0, resetting := false }

/-- The reset values of R10, R70, R119, R230, R242. Log entry 4 (DESIGN CHOICE). -/
def Ctx.init : Ctx :=
  { gen := 0, genLw := 0, genDrops := 0, heapBase := 0, heapLimit := 0, heapOff := 0, s1Root := 0, s2Root := 0, pasid := 0,
    maskA := 0, maskB := 0, maskC := 0, syncLimit := 0, sramBase := 0, sramLen := 0, ovfBase := 0, dirtyEn := false,
    tlbiWdog := 100, tlbiPosted := 0, tlbiDone := 0, tlbiForced := 0, timeScale := 0x100000000, timeOff := 0,
    timeExempt := false, schedSlice := 1000, schedWeight := 1, tdWindow := 100, preemptDl := 50, saveBase := 0,
    saveFrames := 0, dbgEn := false, lostPosts := 0, perfSel := [], frames := [], refusals := 0, bwCharge := 0 }

def LQueue.init : LQueue := ⟨0, 0, false, false, 0, false, 0, 0, 0, 0, 0, [], false, 0, none⟩
def Ring.init : Ring := ⟨0, 0, 0, 0⟩

/-- Log entries 4 (DESIGN CHOICE), 5 (PRESUMED). -/
def Fn.init : Fn :=
  { lq := [], gFault := .init, gResp := .init, hFault := .init, hResp := .init, ignored := 0, evBase := 0, evSize := 0,
    evPi := 0, evCi := 0, evWb := 0, evLost := 0, evBuf := [], msixMask := [], msixPend := [], msixTbl := [], mbOut := 0,
    mbIn := 0, mbOutBusy := false, mbInBusy := false, mbDrop := false, badAccess := 0, bar2Win := 0, dbgCore := 0,
    dbgSel := 0, staged := none, atsEn := false, priEn := false, pageReqs := 0, atsWait := [], atsInv := [],
    resetting := false }

def Lease.init : Lease := ⟨0, 0, 0, 0, 0, 0, false, 0, 0, 0, 0, 0⟩
def Borrow.init : Borrow := ⟨0, 0, 0, 0, 0, 0, 0, 0, 0, 0, 0, false, 0⟩
def Window.init : Window := ⟨0, 0, false, false, false, 0, 0⟩
def Stack.init : Stack := ⟨0, 0, 0⟩
def MBank.init : MBank := ⟨0, false, false, [], [], []⟩
/-- R330: no station has reached UP since reset. -/
def Station.init : Station := ⟨3, 0, []⟩

/-- Log entries 4 (DESIGN CHOICE), 6 (DESIGN CHOICE). -/
def Package.init : Package :=
  { dirtyBase := 0, dirtySel := false, dirtyShown := false, errMode := false, scrubPct := 2, distLimit := 1024,
    distThrottle := 8, lgen := 0, stk := [], owner := [], windows := [], leases := [], borrows := [], chanCorr := [],
    chanBurst := [], chanUnc := [], mbanks := [], seqQ := [], seqRun := none, tlbis := [], offered := [], passGen := [], visited := [], low := 0,
    stations := [], routes := [], everUp := false, devNo := 0, peers := [], seen := [], held := [], decs := [], discarded := 0, fwStage := 0,
    fwStatus := 0, fwBank := false, fwNew := false, flash0 := 0, flash1 := 0, pwrLimit := 2800, pwrNow := 0, temps := [], attBusy := false, attNonce := 0,
    attOut := 0, meas0 := 0, meas1 := 0, meas2 := 0, meas3 := 0, debugStrap := false, clock := 3000, resetting := false }

/-- The machine right after device reset (R129, R442). Log entries 3 (DESIGN CHOICE), 4 (DESIGN CHOICE), 8 (DESIGN CHOICE). -/
def State.reset : State :=
  { strands := [], cores := [], dies := [], ctx := [], fns := [], pkg := Package.init, hbm := ⟨[], []⟩, ground := ⟨[], []⟩,
    host := [], groups := [], flight := [], sent := [], ref := 0, oldHeap := [], oldSync := [], cur := 0, turn := none,
    inputs := [], upsets := [], past := [], cycle := 0, free := 0, nextId := 1 }

end Sys2Proof.Machine
end

