-- ==== Sys2Proof/Machine/Ops.lean ====
section
/-! DEFINITION. The named operations over registers, memory, pegs, bobbins and sync variables; posting of events; ending of
copy commands and groups; taking a trap and containing a core (R244, R245, R254). -/
namespace Sys2Proof.Machine

/-- The answer of every meaning. -/
abbrev Out := Host.Outcome State Fault Refusal

/-! ### Looking things up -/

/-- The value listed under a key. -/
def find {α : Type} : Tbl α → Nat → Option α
  | [], _ => none
  | (j, v) :: t, k => if k = j then some v else find t k

def State.strand (s : State) (n : Nat) : Strand := Tbl.get Strand.init s.strands n
def State.core (s : State) (c : Nat) : Core := Tbl.get Core.init s.cores c
def State.die (s : State) (d : Nat) : Die := Tbl.get Die.init s.dies d
def State.ctxOf (s : State) (k : Nat) : Ctx := Tbl.get Ctx.init s.ctx k
def State.fn (s : State) (k : Nat) : Fn := Tbl.get Fn.init s.fns k
def State.group (s : State) (g : Nat) : Option Group := find s.groups g

def State.mapStrand (s : State) (n : Nat) (f : Strand → Strand) : State :=
  { s with strands := Tbl.upd Strand.init s.strands n f }
def State.mapCore (s : State) (c : Nat) (f : Core → Core) : State := { s with cores := Tbl.upd Core.init s.cores c f }
def State.mapDie (s : State) (d : Nat) (f : Die → Die) : State := { s with dies := Tbl.upd Die.init s.dies d f }
def State.mapCtx (s : State) (k : Nat) (f : Ctx → Ctx) : State := { s with ctx := Tbl.upd Ctx.init s.ctx k f }
def State.mapFn (s : State) (k : Nat) (f : Fn → Fn) : State := { s with fns := Tbl.upd Fn.init s.fns k f }
def State.mapGroup (s : State) (g : Nat) (f : Group → Group) : State :=
  match s.group g with
  | none => s
  | some x => { s with groups := Tbl.ins s.groups g (f x) }
def State.mapPkg (s : State) (f : Package → Package) : State := { s with pkg := f s.pkg }

/-- R185: the core, die and bay of a strand; the die of a core. -/
def coreOf (n : Nat) : Nat := n / 4
def dieOf (n : Nat) : Nat := n / 192
def dieOfCore (c : Nat) : Nat := c / 48
def bayOfCore (c : Nat) : Nat := c / 8

/-- R113: the owner tag of a slot and a generation. -/
def tagOf (slot gen : Nat) : Tag := BitVec.ofNat 16 (slot * 1024 + gen % 1024)
/-- The current tag of a slot. -/
def State.slotTag (s : State) (k : Nat) : Tag := tagOf k (s.ctxOf k).gen.toNat

/-- R82: a die is frozen. -/
def State.frozen (s : State) (d : Nat) : Bool := (s.die d).errFreeze || (s.die d).thermFreeze

/-- R252, R257: a strand of a group enters DEBUG. -/
def State.debugFrom (s : State) (n : Nat) : State :=
  match (s.strand n).grp with
  | none => s
  | some g => s.mapGroup g fun g => { g with dbgSince := some (g.dbgSince.getD s.cycle) }

/-- The group that holds a strand. -/
def State.groupOf (s : State) (n : Nat) : Option Group :=
  match (s.strand n).grp with
  | none => none
  | some g => s.group g

/-- R118: the slot and the issue generation of a strand: its group's. -/
def State.slotOf (s : State) (n : Nat) : Nat := match s.groupOf n with | some g => g.slot | none => 0
def State.genOf (s : State) (n : Nat) : Nat := match s.groupOf n with | some g => g.gen | none => 0
def State.tagOfStrand (s : State) (n : Nat) : Tag := tagOf (s.slotOf n) (s.genOf n)

/-- The next number of the model's free values. -/
def State.tick (s : State) : State := { s with free := s.free + 1 }

/-! ### Tagged elements (R113 to R115, R81) -/

/-- R114: an element that is not current reads as zero. -/
def Tagged.read {α : Type} (x : Tagged α) (t : Tag) (z : α) : α := if x.tag = t then x.val else z
/-- R81: whether the owner meets poison in the element. -/
def Tagged.bad {α : Type} (x : Tagged α) (t : Tag) : Bool := x.poison && x.tag == t
/-- A write of the whole element. -/
def Tagged.whole {α : Type} (t : Tag) (v : α) : Tagged α := ⟨v, t, false⟩
/-- R115, R81: a write that reads the element as R114 gives and keeps its owner's poison. -/
def Tagged.part {α : Type} (x : Tagged α) (t : Tag) (z : α) (f : α → α) : Tagged α := ⟨f (x.read t z), t, x.bad t⟩

/-! ### Strand registers -/

/-- R7: s0 reads zero. -/
def Strand.s (x : Strand) (t : Tag) (i : Nat) : W64 := if i = 0 then 0 else (Tbl.get zReg x.sregs i).read t 0
/-- R7: s0 ignores writes. -/
def Strand.setS (x : Strand) (t : Tag) (i : Nat) (v : W64) : Strand :=
  if i = 0 then x else { x with sregs := Tbl.put zReg x.sregs i (Tagged.whole t v) }
/-- R7: p0 reads all ones. -/
def Strand.p (x : Strand) (t : Tag) (i : Nat) : W64 := if i = 0 then BitVec.allOnes 64 else (Tbl.get zReg x.pregs i).read t 0
/-- R7: p0 ignores writes. -/
def Strand.setP (x : Strand) (t : Tag) (i : Nat) (v : W64) : Strand :=
  if i = 0 then x else { x with pregs := Tbl.put zReg x.pregs i (Tagged.whole t v) }

/-- R81: a write of the bits `m` of a predicate; one that leaves bits as they are leaves poison too. -/
def Strand.maskP (x : Strand) (t : Tag) (i : Nat) (m v : W64) : Strand :=
  if m = BitVec.allOnes 64 then x.setP t i v
  else if i = 0 then x
  else { x with pregs := Tbl.upd zReg x.pregs i fun y => y.part t 0 fun o => (o &&& ~~~m) ||| (v &&& m) }

/-- The NUM of a space-0 register (R325). -/
def nFPC : Nat := 0
def nLC : Nat := 1
def nLPH : Nat := 2
def nITER : Nat := 3
def nRLBL : Nat := 4
def nRCOST : Nat := 5

def Strand.ctlReg (x : Strand) (t : Tag) (k : Nat) : W64 := (Tbl.get zReg x.ctl k).read t 0
def Strand.setCtl (x : Strand) (t : Tag) (k : Nat) (v : W64) : Strand :=
  { x with ctl := Tbl.put zReg x.ctl k (Tagged.whole t v) }

/-- PC is read under the strand's tag like every register. -/
def Strand.getPc (x : Strand) (t : Tag) : W64 := x.pc.read t 0
def Strand.setPc (x : Strand) (t : Tag) (v : W64) : Strand := { x with pc := Tagged.whole t v }

/-- R81: whether a scalar or a predicate that an instruction reads is poisoned for its owner. -/
def Strand.sBad (x : Strand) (t : Tag) (i : Nat) : Bool := i != 0 && (Tbl.get zReg x.sregs i).bad t
def Strand.pBad (x : Strand) (t : Tag) (i : Nat) : Bool := i != 0 && (Tbl.get zReg x.pregs i).bad t
def Strand.ctlBad (x : Strand) (t : Tag) (k : Nat) : Bool := (Tbl.get zReg x.ctl k).bad t

/-- The numbers of the scoreboard (R217): scalar n, predicate 64 + n, space-0 register 72 + n. -/
def pendP (n : Nat) : Nat := 64 + n
def pendC (n : Nat) : Nat := 72 + n

/-- A result reaches scalar `i` of strand `n`, under the tag of the operation that produced it. Log entry 88 (DEDUCED). -/
def State.resultS (s : State) (n : Nat) (t : Tag) (i : Nat) (v : W64) : State :=
  s.mapStrand n fun x => { (x.setS t i v) with pend := x.pend.filter (· != i) }

/-! ### Bytes under tags -/

/-- R97, R113: a granule is current for a local access when L = 0 and for a lease access when L = 1, and its tag matches. -/
def Gran.current (g : Gran) (l : Bool) (t : Tag) : Bool := g.tag == t && g.lease == l

/-- The side bits of the granule that holds address `a`. -/
def TMem.gran (m : TMem) (a : Nat) : Gran := Tbl.get Gran.zero m.side (a / 64)
/-- The stored byte whatever its tag. -/
def TMem.raw (m : TMem) (a : Nat) : Byte := Tbl.get 0 m.bytes a
/-- R114: one byte as an operation with tag `t` reads it. -/
def TMem.byte (m : TMem) (l : Bool) (t : Tag) (a : Nat) : Byte := if (m.gran a).current l t then m.raw a else 0
/-- `n` bytes from `a`. -/
def TMem.read (m : TMem) (l : Bool) (t : Tag) (a : Nat) : Nat → List Byte
  | 0 => []
  | n + 1 => m.byte l t a :: TMem.read m l t (a + 1) n
/-- R79: whether one of `n` bytes from `a` lies in a granule that is current and poisoned. -/
def TMem.bad (m : TMem) (l : Bool) (t : Tag) (a : Nat) : Nat → Bool
  | 0 => false
  | n + 1 => ((m.gran a).current l t && (m.gran a).poison) || TMem.bad m l t (a + 1) n

/-- Put bytes, without regard to tags. -/
def putCells : List Host.Cell → List Host.Cell → List Host.Cell
  | b, [] => b
  | b, c :: t => putCells (Tbl.put 0 b c.1 c.2) t

/-- R115, R79: prepare granule `g` for a write: a granule that is not current loses every byte and takes the tag; a current
one keeps its poison unless the write covers it whole. -/
def TMem.claim (m : TMem) (l : Bool) (t : Tag) (g : Nat) (whole : Bool) : TMem :=
  let e := Tbl.get Gran.zero m.side g
  if e.current l t then
    if whole && e.poison then { m with side := Tbl.put Gran.zero m.side g ⟨t, l, false⟩ } else m
  else { bytes := m.bytes.filter (fun c => c.1 / 64 != g), side := Tbl.put Gran.zero m.side g ⟨t, l, false⟩ }

/-- The granules that cells lie in, each once. -/
def gransOf (cs : List Host.Cell) : List Nat := cs.foldl (fun l c => addOnce (c.1 / 64) l) []

/-- Whether cells cover granule `g` whole. -/
def covers (cs : List Host.Cell) (g : Nat) : Bool := (List.range 64).all fun i => cs.any fun c => c.1 == g * 64 + i

/-- R115: one write of cells by an operation with tag `t`. -/
def TMem.write (m : TMem) (l : Bool) (t : Tag) (cs : List Host.Cell) : TMem :=
  let m1 := (gransOf cs).foldl (fun m g => m.claim l t g (covers cs g)) m
  { m1 with bytes := putCells m1.bytes cs }

/-- Poison the granules that cells lie in (R79: a copy of a poisoned source). -/
def TMem.spoil (m : TMem) (cs : List Host.Cell) : TMem :=
  (gransOf cs).foldl (fun m g => { m with side := Tbl.upd Gran.zero m.side g (fun e => { e with poison := true }) }) m

/-- R125, R97: write granule `g` to the zero state. -/
def TMem.zeroGran (m : TMem) (g : Nat) : TMem :=
  { bytes := m.bytes.filter (fun c => c.1 / 64 != g), side := Tbl.del m.side g }

/-- Consecutive cells from `a`. -/
def cellsAt : Nat → List Byte → List Host.Cell
  | _, [] => []
  | a, b :: t => (a, b) :: cellsAt (a + 1) t

/-- The memory lists every byte once, in address order, and no byte that is zero; the same of the side bits. -/
def TMem.wf (m : TMem) : Bool := Tbl.wf 0 m.bytes && Tbl.wf Gran.zero m.side

/-- All of memory is in its one form. -/
def Memory.wf (s : State) : Bool := s.hbm.wf && s.ground.wf && Tbl.wf 0 s.host

/-! ### Cuts and old operations (R121 to R123) -/

/-- The slot whose generation advance is under way. -/
def State.advancing (s : State) (slot : Nat) : Option SeqRun :=
  match s.pkg.seqRun with
  | some r => match r.req with
    | .genAdv k _ _ _ => if k = slot then some r else none
    | _ => none
  | none => none

/-- R122: whether an operation is an old one at the holders of die `d`: its generation is not the slot's and the die has made
its cut. -/
def State.oldAtDie (s : State) (d slot gen : Nat) : Bool :=
  gen != (s.ctxOf slot).gen.toNat && match s.advancing slot with | some r => !(r.dies.contains d) | none => true

/-- R123: the same at a core, or at the launch machinery of a die whose lowest core it is. -/
def State.oldAtCore (s : State) (c slot gen : Nat) : Bool :=
  gen != (s.ctxOf slot).gen.toNat && match s.advancing slot with | some r => !(r.cores.contains c) | none => true

/-- R122: each old operation dropped or answered with zero is counted. Log entry 75 (DEDUCED). -/
def State.countDrop (s : State) (slot : Nat) : State :=
  s.mapCtx slot fun x => { x with genDrops := if x.genDrops = BitVec.allOnes 32 then x.genDrops else x.genDrops + 1 }

/-- R18, R72: the heap triple (base, limit, offset) that unit `u` (core, or 192 + die) uses for a slot. -/
def State.heapTriple (s : State) (u slot : Nat) : Nat × Nat × Nat :=
  match find s.oldHeap (u * 64 + slot) with
  | some x => x
  | none => let c := s.ctxOf slot; (c.heapBase.toNat, c.heapLimit.toNat, c.heapOff.toNat)

/-- R72: the sync window (limit, SRAM base, SRAM length, overflow base) that unit `u` uses for a slot. -/
def State.syncWindow (s : State) (u slot : Nat) : Nat × Nat × Nat × Nat :=
  match find s.oldSync (u * 64 + slot) with
  | some x => x
  | none => let c := s.ctxOf slot; (c.syncLimit.toNat, c.sramBase.toNat, c.sramLen.toNat, c.ovfBase.toNat)

/-- R10: whether core `c` is in the slot's core mask. -/
def State.maskBit (s : State) (slot c : Nat) : Bool :=
  let x := s.ctxOf slot
  bit (x.maskA.toNat + x.maskB.toNat * 2 ^ 64 + x.maskC.toNat * 2 ^ 128) c

/-- R84: the die whose stacks hold a device-physical address. -/
def dieOfPa (a : Nat) : Nat := a / 0x1F00000000

/-- R12: the entry of the block owner table; 0xFF is unowned (log entry 6). Log entry 6 (DESIGN CHOICE). -/
def State.owner (s : State) (block : Nat) : Nat := (Tbl.get (0xFF : BitVec 8) s.pkg.owner block).toNat

/-- R93: the owner of a block that the units of die `d` use: until the die's cut, the one before an accepted change. -/
def State.ownerFor (s : State) (d block : Nat) : Nat :=
  match s.pkg.seqRun with
  | some r => match r.req with
    | .owner b _ old => if b = block ∧ r.dies.contains d then old else s.owner block
    | _ => s.owner block
  | none => s.owner block
/-- The owner that the holders of the block use: those of its home die. -/
def State.ownerNow (s : State) (block : Nat) : Nat := s.ownerFor (block / 62) block

/-- Whether every block that [a, a + n) touches is owned by the slot (R13, R72, R228). -/
def State.ownsRange (s : State) (slot a n : Nat) : Bool :=
  n == 0 || (decide (a + n ≤ Config.hbmBytes) &&
    (List.range ((a + n - 1) / 0x80000000 - a / 0x80000000 + 1)).all fun i => s.owner (a / 0x80000000 + i) == slot)

/-! ### Messages, events and the black box (R439, R440, R450) -/

def State.send (s : State) (m : Msg) : State := { s with sent := s.sent ++ [m] }

/-- R440: signal a vector of a function: one message, or its pending bit while the vector is masked. -/
def State.signal (s : State) (k vec : Nat) : State :=
  if Tbl.get true (s.fn k).msixMask vec then s.mapFn k fun f => { f with msixPend := Tbl.put false f.msixPend vec true }
  else s.send (.msix k vec)

/-- R450: an entry of a die's black box, at index SEQ mod 4,096, for something at core `core` of the package. Log entry 14 (DESIGN CHOICE). -/
def State.logBox (s : State) (d code slot core : Nat) (detail : List Nat) : State :=
  let x := (Config.boxDetail code detail).toNat
  s.mapDie d fun y => { y with
    bbox := Tbl.ins y.bbox (y.bbSeq % 4096) ⟨s.ref, y.bbSeq, code, x % 256, slot, core, x / 256⟩
    bbSeq := (y.bbSeq + 1) % 2 ^ 32 }

/-- R450: an entry for what is the die's own: its CORE names the die and core 0 of it. Log entry 14 (DESIGN CHOICE). -/
def State.logDie (s : State) (d code slot : Nat) (detail : List Nat) : State := s.logBox d code slot (d * 48) detail

/-- R450: the same in the ring of every die, for what is the package's. -/
def State.logAll (s : State) (code slot : Nat) (detail : List Nat) : State := (List.range 4).foldl (fun s d => s.logDie d code slot detail) s

/-- R439: a record waits in the function's buffer of 64, or is dropped and counted. -/
def State.postRecord (s : State) (k : Nat) (r : BitVec 512) : State :=
  s.mapFn k fun f =>
    if f.evBuf.length < 64 then { f with evBuf := f.evBuf ++ [r] }
    else { f with evLost := if f.evLost = BitVec.allOnes 32 then f.evLost else f.evLost + 1 }

/-- A record of 64 bytes from its fields in ascending order: width in bytes, value. -/
def record (fs : List (Nat × Nat)) : BitVec 512 :=
  BitVec.ofNat 512 (fs.foldr (fun f r => f.2 % 256 ^ f.1 + 256 ^ f.1 * r) 0)

/-- R439: the device event with bytes 8-15 `d1` and 24-31 `d2`, to a function's ring, and into the black box of a die. -/
def State.eventTo (s : State) (k d code slot d1 d2 : Nat) : State :=
  (s.postRecord k (record [(1, 3), (1, code), (1, slot), (5, 0), (8, d1), (8, s.ref.toNat), (8, d2)])).logDie d code slot
    [d1, d2]

/-- R110: an event to the administrator with its listed detail. Log entry 14 (DESIGN CHOICE). -/
def State.event (s : State) (d code slot : Nat) (detail : List Nat) : State :=
  let x := (Config.eventDetail code detail).toNat
  s.eventTo 0 d code slot (x % 2 ^ 64) (x / 2 ^ 64)

/-! ### Waiters (R218, R409 to R412) -/

def sat64 (n : Nat) : W64 := if n < 2 ^ 64 then BitVec.ofNat 64 n else BitVec.allOnes 64

def Core.peg (x : Core) (t : Tag) (i : Nat) : Peg := (Tbl.get zPeg x.pegs i).read t ⟨0, 0, 0⟩
def Core.bob (x : Core) (t : Tag) (i : Nat) : Bob := (Tbl.get zBob x.bobs i).read t ⟨0, 0, 0, 0, 0, 0, 0⟩
def Core.setPeg (x : Core) (t : Tag) (i : Nat) (f : Peg → Peg) : Core :=
  { x with pegs := Tbl.upd zPeg x.pegs i (fun y => y.part t ⟨0, 0, 0⟩ f) }
def Core.setBob (x : Core) (t : Tag) (i : Nat) (f : Bob → Bob) : Core :=
  { x with bobs := Tbl.upd zBob x.bobs i (fun y => y.part t ⟨0, 0, 0, 0, 0, 0, 0⟩ f) }

/-- R414: the slice offset of the slot of a counter value. -/
def Bob.slot (b : Bob) (n : Nat) : Nat :=
  (b.base.toNat + (if b.count = 0 then 0 else n % b.count.toNat) * (64 * b.size.toNat)) % 2 ^ 64

/-- R410: the result of a wait that returns an offset and ended with a code. -/
def offsetFail (c : Code) : W64 := BitVec.ofNat 64 (2 ^ 63 + c.toNat)

/-- What the object of a waiter gives it: `none` while it waits, else the code, the result and the object changed. -/
def waitOutcome (x : Core) (w : Waiter) : Option (Code × W64 × Core) :=
  if w.bob then
    let b := x.bob w.tag w.ix
    let n := w.n.toNat
    if b.latch ≠ 0 then
      some (b.latch, if w.kind ≤ 4 then offsetFail b.latch else b.latch.setWidth 64, x)
    else match w.kind with
      | 2 => if b.claimed.toNat + n ≤ b.freed.toNat + b.count.toNat then
          some (0, BitVec.ofNat 64 (b.slot b.claimed.toNat), x.setBob w.tag w.ix fun y => { y with claimed := y.claimed + w.n })
        else none
      | 3 => if b.freed.toNat + n ≤ b.filled.toNat then some (0, BitVec.ofNat 64 (b.slot b.freed.toNat), x) else none
      | 4 => if n < b.filled.toNat then some (0, BitVec.ofNat 64 (b.slot n), x) else none
      | 5 => if n ≤ b.filled.toNat then some (0, 0, x) else none
      | _ => if n ≤ b.freed.toNat then some (0, 0, x) else none
  else
    let p := x.peg w.tag w.ix
    let n := w.n.toNat
    if p.latch ≠ 0 then some (p.latch, p.latch.setWidth 64, x)
    else if p.taken.toNat + n ≤ p.posted.toNat then
      if w.kind = 0 then some (0, 0, x)
      else some (0, 0, x.setPeg w.tag w.ix fun y => { y with taken := sat64 (y.taken.toNat + n) })
    else none

/-- R409: the result of a wait that ends with a code other than by its object: expired, or cut. -/
def waitFail (w : Waiter) (c : Code) : W64 := if w.bob && w.kind ≤ 4 then offsetFail c else c.setWidth 64

/-- A strand's wait ends: D takes the result, the instruction is complete, and the strand may issue. -/
def State.endWait (s : State) (n d len : Nat) (t : Tag) (v : W64) : State :=
  s.mapStrand n fun x =>
    { ((x.setS t d v).setPc t (x.getPc t + BitVec.ofNat 64 len)) with
      st := if x.st = .blocked then .running else x.st, stall := 0 }

/-- R357: the place of the matrix entry that starts next. -/
def Core.mqNext (x : Core) : Nat := x.mq.findIdx (·.started.isNone)

/-- The token of an engine entry's wait peg: taken, or refused with the latched code. Kind 7 is the copy command with sequence
number `d`, whose strand goes on when it has the token (R392); kind 8 the matrix entry that starts next. -/
def State.engineToken (s : State) (c : Nat) (w : Waiter) (code : Code) : State :=
  if w.kind = 8 then
    s.mapCore c fun x => { x with mq := updAt x.mq x.mqNext fun e => { e with tok := true, lat := code } }
  else
    let s' := s.mapCore c fun x => { x with cq := x.cq.map fun k => if k.seq = w.d then { k with tok := true, lat := code } else k }
    match (s.core c).cq.find? (·.seq == w.d) with
    | none => s'
    | some k =>
      if code ≠ 0 then s'
      else s'.mapStrand k.strand fun x =>
        { (x.setPc w.tag (x.getPc w.tag + 8)) with st := if x.st = .blocked then .running else x.st, stall := 0 }

/-- Give waiter `w` of core `c` its outcome. -/
def State.release (s : State) (c : Nat) (w : Waiter) (code : Code) (v : W64) (x : Core) : State :=
  let s := s.mapCore c fun y => { y with pegs := x.pegs, bobs := x.bobs }
  match w.who with
  | some n => s.endWait n w.d w.len w.tag v
  | none => s.engineToken c w code

/-- R218: whether a wait with this deadline ended by its timeout in an earlier cycle. -/
def State.expired (s : State) (deadline : Option Nat) : Bool := match deadline with | some t => decide (t < s.cycle) | none => false

/-- R412, R218: serve the waiters in order of arrival; one whose timeout ran out in an earlier cycle ended so, whatever has happened
since; one whose condition does not hold keeps its place and holds back none. -/
def serveList (c : Nat) : List Waiter → State → State × List Waiter
  | [], s => (s, [])
  | w :: t, s =>
    if s.expired w.deadline then serveList c t (s.release c w cWatchdog (waitFail w cWatchdog) (s.core c))
    else match waitOutcome (s.core c) w with
    | some (code, v, x) => serveList c t (s.release c w code v x)
    | none => let r := serveList c t s; (r.1, w :: r.2)

def State.serve (s : State) (c : Nat) : State :=
  let r := serveList c (s.core c).waiters s
  r.1.mapCore c fun x => { x with waiters := r.2 }

/-! ### Performance counters (R258, R329) -/

/-- R258, R18: the selection of counter `i` of a slot that core `c` uses. -/
def State.perfSelOf (s : State) (c slot i : Nat) : Nat :=
  let new := (Tbl.get (0 : BitVec 16) (s.ctxOf slot).perfSel i).toNat
  match s.pkg.seqRun with
  | some r => match r.req with
    | .perfSel k j old => if k = slot ∧ j = i ∧ r.cores.contains c then old else new
    | _ => new
  | none => new

/-- R258: `n` events of kind `ev` at core `c` by an operation of (slot, gen); an old operation changes no counter of a core that has
cut (R123, R124). -/
def State.countPerf (s : State) (c slot gen ev n : Nat) : State :=
  if s.oldAtCore c slot gen then s else (List.range 8).foldl (fun s i =>
    if s.perfSelOf c slot i = ev then
      s.mapCore c fun x => { x with
        perf := Tbl.upd zCnt x.perf (slot * 8 + i) fun y => y.part (tagOf slot gen) 0 fun v => v + BitVec.ofNat 48 n }
    else s) s

/-- R329: events that only timing gives; the model does not count them, and a read of such a counter is a free value. Log entry 55 (DESIGN CHOICE). -/
def perfFree (ev : Nat) : Bool := decide (ev ∈ [1, 3, 4, 5, 9, 0xB, 0xD])

/-- R258: the counters of (slot, gen) on a core that count time have begun. -/
def State.touchPerf (s : State) (c slot gen : Nat) : State :=
  (List.range 8).foldl (fun s i =>
    if perfFree (s.perfSelOf c slot i) then
      s.mapCore c fun x => { x with perf := Tbl.upd zCnt x.perf (slot * 8 + i) fun y => y.part (tagOf slot gen) 0 id }
    else s) s

/-! ### Posts, fills and latches on a core's pegs and bobbins -/

/-- The range of a group's object numbers (R190): base and count. -/
def resVreg (w : W64) : Nat := bits w.toNat 58 6
def resAcc (w : W64) : Nat × Nat := (bits w.toNat 55 3, bits w.toNat 51 4)
def resTpl (w : W64) : Nat × Nat := (bits w.toNat 45 6, bits w.toNat 38 7)
def resBob (w : W64) : Nat × Nat := (bits w.toNat 33 5, bits w.toNat 27 6)
def resPeg (w : W64) : Nat × Nat := (bits w.toNat 19 8, bits w.toNat 10 9)
/-- R191: the scratchpad allotment: first byte and length. -/
def spadRange (w : W64) : Nat × Nat := (bits w.toNat 9 9 * 4096, bits w.toNat 0 9 * 4096)
def inRange (r : Nat × Nat) (i : Nat) : Bool := decide (r.1 ≤ i) && decide (i < r.1 + r.2)

/-- Word `k` of a launch packet (R187). -/
def pktW (p : BitVec 2048) (k : Nat) : W64 := p.extractLsb' (64 * k) 64
def Group.w (g : Group) (k : Nat) : W64 := pktW g.pkt k

/-- R214: bit TASK of CTRL: a group that serves ordered tasks. -/
def Group.serves (g : Group) : Bool := bit (g.w 0).toNat 52

/-- R256: whether some group of the slot holds the peg or bobbin on the core. -/
def State.holdsObj (s : State) (slot c : Nat) (bob : Bool) (ix : Nat) : Bool :=
  s.groups.any fun g => g.2.slot == slot && g.2.cores.contains c && g.2.st != .saved &&
    inRange (if bob then resBob (g.2.w 2) else resPeg (g.2.w 2)) ix

/-- R256: a post that no group of the slot is there to receive is counted. -/
def State.countLost (s : State) (slot c : Nat) (bob : Bool) (ix : Nat) : State :=
  if s.holdsObj slot c bob ix then s
  else s.mapCtx slot fun x => { x with lostPosts := if x.lostPosts = BitVec.allOnes 32 then x.lostPosts else x.lostPosts + 1 }

/-- R411: a post of `n`; the count saturates. -/
def State.pegPost (s : State) (c : Nat) (t : Tag) (ix n : Nat) : State :=
  (s.mapCore c fun x => x.setPeg t ix fun p => { p with posted := sat64 (p.posted.toNat + n) }).serve c

/-- R411, R415, R203: an error latch takes a code unless it holds one, and the waiters are released with it. -/
def State.pegLatch (s : State) (c : Nat) (t : Tag) (ix : Nat) (code : Code) : State :=
  (s.mapCore c fun x => x.setPeg t ix fun p => { p with latch := if p.latch = 0 then code else p.latch }).serve c

def State.bobLatch (s : State) (c : Nat) (t : Tag) (ix : Nat) (code : Code) : State :=
  (s.mapCore c fun x => x.setBob t ix fun p => { p with latch := if p.latch = 0 then code else p.latch }).serve c

/-- R414, R415: a fill of `n`; a completion fill past claimed is not made and latches ILLEGAL_OPERAND. -/
def State.bobFill (s : State) (c : Nat) (t : Tag) (ix n : Nat) : State :=
  let b := (s.core c).bob t ix
  if b.filled.toNat + n ≤ b.claimed.toNat then
    (s.mapCore c fun x => x.setBob t ix fun p => { p with filled := p.filled + BitVec.ofNat 64 n }).serve c
  else s.bobLatch c t ix cOperand

/-- R81: whether a post or fill meets poison in its object. -/
def State.objBad (s : State) (c : Nat) (t : Tag) (bob : Bool) (ix : Nat) : Bool :=
  if bob then (Tbl.get zBob (s.core c).bobs ix).bad t else (Tbl.get zPeg (s.core c).pegs ix).bad t

/-! ### Sync variables (R69 to R72, R416) -/

/-- R71: the variable at offset `x` of die `d` in a sync window (limit, SRAM base, SRAM length, overflow base). -/
def syncAt (w : Nat × Nat × Nat × Nat) (d x : Nat) : SLoc :=
  let m := min w.2.2.1 w.1
  if x < m then .sram d (w.2.1 + x)
  else .ovf d (w.2.2.2 + d * roundUp (2 * (w.1 - m)) 65536 + 2 * (x - m))
/-- The same in the window that unit `u` uses for a slot. -/
def State.syncLocate (s : State) (u slot d x : Nat) : SLoc := syncAt (s.syncWindow u slot) d x

def SLoc.die : SLoc → Nat
  | .sram d _ => d
  | .ovf d _ => d

/-- R46, R47: the half of the dirty bitmap that die `d` uses. -/
def State.dirtyHalf (s : State) (d : Nat) : Bool :=
  match s.pkg.seqRun with
  | some r => match r.req with
    | .dirtySel v => if r.dies.contains d then s.pkg.dirtyShown else v
    | _ => s.pkg.dirtyShown
  | none => s.pkg.dirtyShown

/-! ### Bay caches (R65 to R67) -/

def State.bay (s : State) (b : Nat) : Bay := Tbl.get Bay.init (s.die (b / 6)).bays (b % 6)
def State.mapBay (s : State) (b : Nat) (f : Bay → Bay) : State :=
  s.mapDie (b / 6) fun x => { x with bays := Tbl.upd Bay.init x.bays (b % 6) f }

/-- R65: the set of an address, and its tag. -/
def baySet (a : Nat) : Nat := bits a 7 12 ^^^ bits a 19 12
def lineTag (a : Nat) : Nat := bits a 19 21
/-- R66: the sector of a line that holds an address. -/
def Line.sector (l : Line) (a : Nat) : Option Sector := if bit a 6 then l.s1 else l.s0
def Line.put (l : Line) (a : Nat) (v : Option Sector) : Line := if bit a 6 then { l with s1 := v } else { l with s0 := v }
/-- The way that holds the line of an address, of device memory or of a peer. -/
def Bay.way (x : Bay) (peer : Option Nat) (a : Nat) : Option Nat :=
  firstBelow 16 fun w => match find x.lines (baySet a * 16 + w) with | some l => l.peer == peer && l.tag == lineTag a | none => false
def Bay.sector (x : Bay) (peer : Option Nat) (a : Nat) : Option Sector :=
  match x.way peer a with
  | some w => (Tbl.get Line.init x.lines (baySet a * 16 + w)).sector a
  | none => none
/-- Change or drop a sector of a line that the bay holds. -/
def Bay.setSector (x : Bay) (peer : Option Nat) (a : Nat) (v : Option Sector) : Bay :=
  match x.way peer a with
  | none => x
  | some w =>
    let k := baySet a * 16 + w
    let l := (Tbl.get Line.init x.lines k).put a v
    { x with lines := if l.s0.isNone && l.s1.isNone then Tbl.del x.lines k else Tbl.ins x.lines k l }

/-- R67: what the directory records of a sector: the bays that hold it. -/
def State.holders (s : State) (peer : Option Nat) (a : Nat) : List Nat := (List.range 24).filter fun b => ((s.bay b).sector peer a).isSome

/-- R66: an access that the memory controller serves: no bay holds the granules any more; what was dirty is written back. -/
def State.uncache (s : State) (gs : List Nat) : State :=
  gs.foldl (fun s g => (s.holders none (g * 64)).foldl (fun s b => s.mapBay b fun x => x.setSector none (g * 64) none) s) s

/-- R67: a write through one bay leaves no copy in another. -/
def State.uncacheOthers (s : State) (own a : Nat) : State :=
  ((s.holders none a).filter (· != own)).foldl (fun s b => s.mapBay b fun x => x.setSector none a none) s

/-- R298: the words that a write is about to replace are remembered while a group runs. -/
def State.keepPast (s : State) (cs : List Host.Cell) : State :=
  if s.groups.isEmpty then s
  else
    let ws := cs.foldl (fun l c => addOnce (c.1 / 4) l) []
    { s with past := s.past ++ ws.map fun w =>
      ⟨w, BitVec.ofNat 32 (ofLe ((List.range 4).map fun i => s.hbm.raw (4 * w + i))), s.hbm.gran (4 * w), s.cycle⟩ }

/-- R96: a page whose leaf is written may be offered again. -/
def State.rewritten (s : State) (cs : List Host.Cell) : State :=
  if s.pkg.offered.isEmpty then s
  else s.mapPkg fun p => { p with offered := p.offered.filter fun o => !(cs.any fun c => decide (o.2.2 ≤ c.1) && decide (c.1 < o.2.2 + 8)) }

/-- Cells are set at the memory controller. Log entry 94 (DESIGN CHOICE). -/
def State.memSet (s : State) (l : Bool) (t : Tag) (cs : List Host.Cell) : State :=
  { (s.uncache (gransOf cs)).keepPast cs with hbm := s.hbm.write l t cs }
/-- A write at the memory controller. -/
def State.memWrite (s : State) (l : Bool) (t : Tag) (cs : List Host.Cell) : State := (s.memSet l t cs).rewritten cs

/-- R46, R47: a covered write of a tracked slot to 64 KiB page `p`, performed at a unit of die `d`, sets the page's bit in the half
that this unit uses; a frozen die takes no such write (R82). The bitmap is slot 0's. Log entry 15 (DEDUCED). -/
def State.markDirty (s : State) (slot d p : Nat) : State :=
  let a := s.pkg.dirtyBase.toNat + (if s.dirtyHalf d then 0xF8000 else 0) + p / 8
  if (s.ctxOf slot).dirtyEn && !(s.frozen (dieOfPa a)) then
    let t := tagOf 0 0
    s.memWrite false t [(a, s.hbm.byte false t a ||| BitVec.ofNat 8 (2 ^ (p % 8)))]
  else s

/-- A write to device memory, with the dirty bits of `slot` where R46 covers it; `at_` gives the die of the unit that performs a granule's
write. Log entry 53 (DEDUCED). -/
def State.hbmPut (s : State) (slot : Option Nat) (at_ : Nat → Nat) (t : Tag) (cs : List Host.Cell) : State :=
  let s := State.rewritten { s.keepPast cs with hbm := s.hbm.write false t cs } cs
  match slot with
  | none => s
  | some slot => ((gransOf cs).foldl (fun l g => if l.contains (at_ g, g / 1024) then l else l ++ [(at_ g, g / 1024)]) []).foldl (fun s p => s.markDirty slot p.1 p.2) s

/-- The die that is home to a granule. -/
def homeOf (g : Nat) : Nat := dieOfPa (g * 64)
/-- The same at the memory controller. -/
def State.hbmWrite (s : State) (slot : Nat) (t : Tag) (cs : List Host.Cell) : State := (s.uncache (gransOf cs)).hbmPut (some slot) homeOf t cs

/-- Whether an access is a SWAIT, which stays in the list until it returns (R166). -/
def Acc.isSwait (a : Acc) : Bool := match a.why with | .sync o _ => o.op == 1 | _ => false

/-- A SWAIT returns to its strand. -/
def State.endSwait (s : State) (w : SyncWait) (code : Code) : State :=
  let s := (s.resultS w.strand (tagOf w.slot w.gen) w.d (code.setWidth 64)).mapStrand w.strand fun x => { x with swait := false }
  { s with flight := s.flight.filter fun a => !(a.strand == w.strand && a.isSwait) }

/-! ### Traps and containment (R237, R244, R245, R254) -/

/-- R245: LREF of a group's launch and the CORE byte. -/
def coreByte (c : Nat) : Nat := dieOfCore c * 64 + c % 48

/-- Whether a place is in the slice of core `c`. -/
def Place.onCore (p : Place) (c : Nat) : Bool := match p with | .ground a => a / Config.sliceBytes == c | _ => false

/-- Whether an access goes when its vector entry does: all but the elements of a store that executes, of which those to the core's
own slice, core state, go too (R244). -/
def Acc.ofEntry (a : Acc) : Bool :=
  match a.why with | .vec _ => true | .vld _ _ _ _ => true | .vst => a.dst.onCore a.core | _ => false

/-- R392, R244: whether an accepted command is in progress: a box of it has started, or its entry is being installed. -/
def Copy.begun (k : Copy) : Bool := k.accepted && (decide (0 < k.next) || (match k.ins with | .cpyX _ => true | _ => false))

/-- R247: the boxes that commands satisfying `p` hold leave the fault records of the core's die. -/
def State.leaveRecs (s : State) (c : Nat) (p : Copy → Bool) : State :=
  let mine := (s.core c).cq.filter p
  s.mapDie (dieOfCore c) fun x => { x with frecs := x.frecs.map fun r =>
    { r with waiters := r.waiters.filter fun w => !(w.1 == c && mine.any fun k => k.seq == w.2.1) } }

/-- R244 steps 2 to 4: the group's strands issue no more, its queued engine instructions go, its commands in progress stop at
their next box boundary with the code, CONTAINED on a core that is contained (R254), its queued ones go unstarted. The strands that a saved
group had are others' by now. GROUP_END follows when the engines have stopped. An earlier cause stands (R253). -/
def State.failGroup (s : State) (gid : Nat) (r : TrapRec) : State :=
  match s.group gid with
  | none => s
  | some g =>
    if g.fail.isSome then s else
    let mine := if g.st = .saved then [] else g.strands
    let s := s.mapGroup gid fun g => { g with fail := some r }
    let s := { s with flight := s.flight.filter fun a => !(mine.contains a.strand && (a.isSwait || a.ofEntry)) }
    let s := [0, 1, 2, 3].foldl (fun s d => s.mapDie d fun x => { x with syncWaits := x.syncWaits.filter fun w => !(mine.contains w.strand) }) s
    let code (x : Core) : Code := if r.flags % 2 = 1 ∧ x.contained then cContained else r.code
    g.cores.foldl (fun s c => (s.leaveRecs c (·.gid == gid)).mapCore c fun x => { x with
      mq := x.mq.filter (·.gid != gid)
      vq := x.vq.filter (·.gid != gid)
      waiters := x.waiters.filter fun w => match w.who with
        | some n => !(mine.contains n)
        | none => if w.kind = 8 then x.mq[x.mqNext]?.any (·.gid != gid) else x.cq.any fun k => k.seq == w.d && k.gid != gid
      cq := (x.cq.filter fun k => k.gid != gid || k.begun).map fun k =>
        if k.gid = gid then { k with ended := true, code := if k.ended ∧ k.code ≠ 0 then k.code else code x, open_ := k.open_.filter (!·.held) } else k }) s

/-- R254: a core is contained: its engine queues go. -/
def State.sealCore (s : State) (c : Nat) : State := s.mapCore c fun x => { x with mq := [], vq := [], contained := true }
/-- R254: contain core `c`: every group with a strand or resources on it ends; `why` gives the cause of the group whose fault
it was. -/
def State.contain (s : State) (c : Nat) (why : Nat → TrapRec) : State :=
  let s := s.sealCore c
  (s.groups.filter fun g => g.2.cores.contains c && g.2.st != .saved).foldl (fun s g => s.failGroup g.1 (why g.1)) s

/-- A group-end record with no trapping instruction. -/
def State.plainRec (s : State) (code : Code) (flags c : Nat) : TrapRec :=
  { code := code, sub := 0, flags := flags, core := c, strand := 0, pc := 0, ins := 0, addr := 0, time := s.ref, taskts := 0 }

/-- R244, R254: the trap `r` of group `gid`, raised on core `c`: UNCORRECTABLE contains the core, and ends the group wherever it is by
now (R237). -/
def State.trapGroup (s : State) (gid c : Nat) (r : TrapRec) : State :=
  if r.code = cUncorrectable then
    ((s.logBox (dieOfCore c) 0x04 (match s.group gid with | some g => g.slot | none => 0) c [0]).contain c fun g =>
      if g = gid then { r with flags := r.flags ||| 1 } else s.plainRec cContained 1 c).failGroup gid { r with flags := r.flags ||| 1 }
  else s.failGroup gid r

/-- R233: a task of die `d`. -/
def Die.task (x : Die) (seq : Nat) : Option Task := x.tasks.find? (·.seq == seq)
/-- R240: whether key (ts, seq) lies before another. -/
def keyLt (a b : Task) : Bool := decide (a.ts.toNat < b.ts.toNat) || (a.ts == b.ts && decide (a.seq < b.seq))
/-- The oldest uncommitted task of a slot on a die. -/
def Die.oldest (x : Die) (slot : Nat) : Option Task :=
  (x.tasks.filter (·.slot == slot)).foldl (fun o t => match o with | none => some t | some u => if keyLt t u then some t else some u) none
def Die.isOldest (x : Die) (t : Task) : Bool := match x.oldest t.slot with | some u => u.seq == t.seq | none => false
def State.mapTask (s : State) (d seq : Nat) (f : Task → Task) : State :=
  s.mapDie d fun x => { x with tasks := x.tasks.map fun t => if t.seq = seq then f t else t }

/-- Task `seq` gives up the reader marks of its pool index (R68); OVER clears when no other task of the die is in flight. -/
def Die.clearMarks (x : Die) (seq : Nat) (pool : Option Nat) : Die :=
  let one (m : Marks) : Marks :=
    { m with m0 := if m.m0 = pool then none else m.m0, m1 := if m.m1 = pool then none else m.m1 }
  let busy := x.tasks.any fun t => t.seq != seq && t.pool.isSome
  { x with
    marks := x.marks.filterMap fun e =>
      let m := one e.2
      let m := if busy then m else { m with more := false }
      if m = Marks.none then none else some (e.1, m) }

/-- The pillow of a core gives up a task's granules. -/
def Core.dropPillow (x : Core) (seq : Nat) : Core := { x with pillow := x.pillow.filter (·.task != seq) }

/-- R234: a strand that ran a task goes back to TASKWAIT. -/
def State.taskWait (s : State) (n : Nat) : State :=
  s.mapStrand n fun x => { x with st := .taskwait, atSafe := true, task := none, stall := 0, yieldUntil := 0, pend := [] }

/-- R234: discard a task's pillow, deferred operations and marks, and free its strand; only what it writes directly (R239) is past recall. -/
def State.shedTask (s : State) (d : Nat) (t : Task) : State :=
  let s := match t.strand with
    | none => s
    | some n => if (s.strand n).task = some t.seq then s.taskWait n else s
  let s := (List.range 48).foldl (fun s i => s.mapCore (d * 48 + i) fun x => x.dropPillow t.seq) s
  let s := (List.range 48).foldl (fun s i => s.mapCore (d * 48 + i) fun x => { x with
    mq := x.mq.filter (·.task != some t.seq), vq := x.vq.filter (·.task != some t.seq) }) s
  let s := { s with flight := s.flight.filter fun a =>
    !(a.task == some t.seq && dieOf a.strand == d && !(t.nonspec && (a.why == Why.store || a.why == Why.vst))) }
  (s.mapTask d t.seq fun t => { t with deferred := [], fault := none, pool := none }).mapDie d fun x => x.clearMarks t.seq t.pool

/-- R329 event 0x000C: a task that had run on a core is restarted or removed. -/
def State.countRan (s : State) (t : Task) : State :=
  match t.ran with
  | some c => s.countPerf c t.slot t.gen 0xC 1
  | none => s

/-- R234: remove a task and its children, and theirs in turn; `fuel` bounds the generations of children. -/
def removeTask : Nat → Nat → Nat → State → State
  | 0, _, _, s => s
  | fuel + 1, d, seq, s =>
    match (s.die d).task seq with
    | none => s
    | some t =>
      let s := (s.shedTask d t).countRan t
      let kids := ((s.die d).tasks.filter (·.parent == some seq)).map (·.seq)
      let s := s.mapDie d fun x => { x with tasks := x.tasks.filter (·.seq != seq) }
      kids.foldl (fun s k => removeTask fuel d k s) s

def State.removeTask (s : State) (d seq : Nat) : State := Machine.removeTask 4352 d seq s

/-- R237: the recorded fault of the oldest task takes effect: the trap is delivered to the serving group whose strand last ran
it, and every task of the slot on the die goes. -/
def State.deliverFault (s : State) (d : Nat) (t : Task) : State :=
  match t.fault with
  | none => s
  | some r =>
    let s := ((s.die d).tasks.filter (·.slot == t.slot)).foldl (fun s u => s.removeTask d u.seq) s
    match t.gid with
    | none => s
    | some g => s.trapGroup g r.core r

/-- R234, R237: after any change of a slot's tasks on a die, a FAULTED task that is now the oldest delivers its fault. Log entry 90 (DEDUCED). -/
def State.settleTasks (s : State) (d slot : Nat) : State :=
  match (s.die d).oldest slot with
  | none => s
  | some t => if t.st = .faulted then s.deliverFault d t else s

/-- R237: record a fault in the task and stop it. -/
def State.faultTask (s : State) (d seq n : Nat) (r : TrapRec) : State :=
  match (s.die d).task seq with
  | none => s
  | some t => ((s.mapTask d seq fun t =>
      { t with st := .faulted, fault := some { r with flags := 2, taskts := t.ts } }).taskWait n).settleTasks d t.slot

/-- TAKING A TRAP (R244): the trap of strand `n` with code, subcode, failing address and the trapping instruction's PC and
first eight bytes. An instruction of an ordered task has it deferred (R237, R296), and it vanishes with the task. -/
def State.trapIn (s : State) (n : Nat) (task : Option Nat) (code : Code) (sub : Nat) (addr pc ins : W64) : State :=
  let r : TrapRec :=
    { code := code, sub := sub, flags := 0, core := coreOf n, strand := n, pc := pc, ins := ins, addr := addr, time := s.ref,
      taskts := 0 }
  match task with
  | some seq => if (s.strand n).task = some seq then s.faultTask (dieOf n) seq n r else s
  | none =>
    match (s.strand n).grp with
    | none => s
    | some g => s.trapGroup g (coreOf n) r

/-- A trap of the instruction that the strand executes. -/
def State.trap (s : State) (n : Nat) (code : Code) (sub : Nat) (addr pc ins : W64) : State :=
  s.trapIn n (s.strand n).task code sub addr pc ins

/-- R82: a die freezes: every core of it is contained, and slot 0 is told. -/
def State.freeze (s : State) (d : Nat) (thermal : Bool) : State :=
  let s := s.mapDie d fun x => if thermal then { x with thermFreeze := true } else { x with errFreeze := true }
  let s := (List.range 48).foldl (fun s i => s.sealCore (d * 48 + i)) s
  let s := (List.range 48).foldl (fun s i => s.contain (d * 48 + i) fun _ => s.plainRec cContained 1 (d * 48 + i)) s
  (s.logDie d 0x02 0 [0]).signal 0 7

/-- R442: a write to a function whose reset runs is dropped. -/
def State.deaf (s : State) (k : Nat) : Bool := (s.fn k).resetting || s.pkg.resetting
/-- R444: no image runs: only the registers of R451 answer, and no slot runs. -/
def State.noImage (s : State) : Bool := s.pkg.fwStatus.toNat % 256 != 0
/-- R442, R444: whether a write of the host to what is no register of R451 is dropped. -/
def State.shut (s : State) (k : Nat) : Bool := s.deaf k || s.noImage

end Sys2Proof.Machine
end

