-- ==== Sys2Proof/Machine/Flags.lean ====
section
/-! DEFINITION. FPC (R135, R136): its rounding mode, its sticky flags; the conditions of compares and branches (R301). -/
namespace Sys2Proof.Machine

/-- R135: the default rounding mode of a strand. -/
def fpcRm (fpc : W64) : Nat := bits fpc.toNat 8 3
/-- R136: flags are sticky. -/
def fpcRaise (fpc : W64) (f : Nat) : W64 := fpc ||| BitVec.ofNat 64 (f % 32)
/-- R135: the RZ bits of FPC. -/
def fpcRzOk (v : W64) : Bool := bits v.toNat 11 53 == 0 && bits v.toNat 5 3 == 0
/-- R135: a rounding mode that may be written. -/
def fpcRmOk (v : W64) : Bool := decide (bits v.toNat 8 3 ≤ 4)

/-- R81, R136: an operation of strand `n` under tag `t` raises flags, which clears no poison; no flag, no write. -/
def State.raiseFlags (s : State) (n : Nat) (t : Tag) (f : Nat) : State :=
  if f % 32 = 0 then s
  else s.mapStrand n fun x => { x with ctl := Tbl.upd zReg x.ctl nFPC fun y => y.part t 0 fun v => fpcRaise v f }

end Sys2Proof.Machine
end

