-- ==== Sys2Proof/Machine/Operands.lean ====
section
/-! DEFINITION. Operand values (R279), the issue of a strand instruction (R217, R296 steps 6 to 14), the checks of an effective
address (R14 to R17) and the naming of engine objects (R198). -/
namespace Sys2Proof

/-- The scalar that a destination field names; a field that names none stands for s0, which ignores writes. -/
def Opd.dest : Opd → Nat
  | .reg i => i.toNat
  | _ => 0

/-- A register-number field. -/
def Opd.number : Opd → Nat
  | .num v => v.toNat
  | .reg i => i.toNat
  | _ => 0

end Sys2Proof

namespace Sys2Proof.Machine

/-! ### What an instruction comes to -/

/-- A trap that a check raises: code, subcode, failing address. -/
structure Trap where
  code : Code
  sub : Nat
  addr : W64
deriving DecidableEq, Repr

/-- A checked value. -/
abbrev Chk (α : Type) := Except Trap α

def trapOf {α : Type} (c : Code) : Chk α := .error ⟨c, 0, 0⟩
def trapAt {α : Type} (c : Code) (a : Nat) : Chk α := .error ⟨c, 0, BitVec.ofNat 64 a⟩
/-- A check: the trap `c` unless `b`. -/
def need (b : Bool) (c : Code) : Chk Unit := if b then .ok () else trapOf c

/-- What a strand instruction does once its predicate and operands are there: it completes, it cannot issue yet (R217), or it
traps. -/
inductive Res where
  | done (s : State)
  | wait (s : State)
  | trap (e : Trap)
  /-- A trap that leaves a trace beside the trap itself: the state to take it in. -/
  | trapIn (s : State) (e : Trap)

/-- A checked next state as a result. -/
def Chk.res (x : Chk State) : Res :=
  match x with
  | .ok s => .done s
  | .error e => .trap e

/-! ### Operands (R279) -/

/-- The value of an operand for strand `n`. -/
def State.opd (s : State) (n : Nat) (o : Opd) : W64 :=
  match o with
  | .reg i => (s.strand n).s (s.tagOfStrand n) i.toNat
  | .imm i => i.setWidth 64
  | .neg i => i.setWidth 64 - 32
  | .lit32 v => v.signExtend 64
  | .lit64 v => v
  | .num v => v.setWidth 64

/-- The scoreboard numbers of scalars among operands. -/
def opdRegs : List Opd → List Nat
  | [] => []
  | .reg i :: t => i.toNat :: opdRegs t
  | _ :: t => opdRegs t

/-- Write scalar `i` of strand `n` under its own tag. -/
def State.setS (s : State) (n i : Nat) (v : W64) : State := s.mapStrand n fun x => x.setS (s.tagOfStrand n) i v
/-- Write predicate `i` of strand `n`. -/
def State.setP (s : State) (n i : Nat) (v : W64) : State := s.mapStrand n fun x => x.setP (s.tagOfStrand n) i v
def State.getP (s : State) (n i : Nat) : W64 := (s.strand n).p (s.tagOfStrand n) i
def State.getPc (s : State) (n : Nat) : W64 := (s.strand n).getPc (s.tagOfStrand n)
def State.setPc (s : State) (n : Nat) (v : W64) : State := s.mapStrand n fun x => x.setPc (s.tagOfStrand n) v
def State.getCtl (s : State) (n k : Nat) : W64 := (s.strand n).ctlReg (s.tagOfStrand n) k
def State.setCtl (s : State) (n k : Nat) (v : W64) : State := s.mapStrand n fun x => x.setCtl (s.tagOfStrand n) k v
/-- Mark scalar `i` as not yet produced (R217); s0 is always there. -/
def State.owe (s : State) (n i : Nat) : State :=
  if i = 0 then s else s.mapStrand n fun x => { x with pend := addOnce i x.pend }

/-! ### Issue -/

/-- PC moves past the instruction, and the strand is RUNNING. -/
def State.adv (s : State) (n : Nat) (i : Instr) : State :=
  s.mapStrand n fun x =>
    { (x.setPc (s.tagOfStrand n) (x.getPc (s.tagOfStrand n) + BitVec.ofNat 64 i.len)) with
      st := if x.st = .blocked then .running else x.st }

/-- PC takes a value, and the strand is RUNNING (R310). -/
def State.jump (s : State) (n : Nat) (v : W64) : State :=
  s.mapStrand n fun x => { (x.setPc (s.tagOfStrand n) v) with st := if x.st = .blocked then .running else x.st }

/-- R217: the strand cannot issue; its instruction is tried again. -/
def State.block (s : State) (n : Nat) : State :=
  s.mapStrand n fun x => { x with st := if x.st = .running then .blocked else x.st }

/-- The trap of the current instruction of strand `n`. -/
def State.trapNow (s : State) (n : Nat) (i : Instr) (e : Trap) : State :=
  s.trap n e.code e.sub e.addr (s.getPc n) ((encodeWord i).getD 0)

/-- R81: whether a source, by its scoreboard number, is poisoned for the strand. -/
def Strand.srcBad (x : Strand) (t : Tag) (k : Nat) : Bool :=
  if k < 64 then x.sBad t k else if k < 72 then x.pBad t (k - 64) else x.ctlBad t (k - 72)

/-- R277: whether the predicate lets the instruction execute. Log entry 23 (DEDUCED). -/
def State.predOn (s : State) (n : Nat) (p : Pred) : Bool := (s.getP n p.n.toNat).getLsbD 0 != p.neg

/-- R427: whether scalar `d` is among CS0-CS7 of a copy command that strand `n` issued and that is not yet accepted. -/
def State.specHeld (s : State) (n d : Nat) : Bool :=
  d != 0 && (s.core (coreOf n)).cq.any fun k => k.strand == n && !k.accepted && k.node.isNone &&
    (match k.ins.form with | .c _ f => decide (f.spec.toNat ≤ d) && decide (d < f.spec.toNat + 8) | _ => false)

/-- The issue of instruction `i` by the current strand: the predicate (step 6 of R296; a vector instruction has a lane mask
instead, `gate` false), operands that an earlier instruction has yet to produce (R217), the instruction's own checks and effect
`k`, and the poison of its sources (step 13), which comes before an instruction's own trap (step 14); of an engine's instruction (`late`)
its entry keeps it for the start (R341, R360). Log entries 16 (DEDUCED), 23 (DEDUCED). -/
def State.issueAs (s : State) (gate late : Bool) (i : Instr) (p : Pred) (srcs dsts : List Nat) (k : Res) : Out :=
  let n := s.cur
  let x := s.strand n
  let t := s.tagOfStrand n
  let bad := !late && srcs.any (x.srcBad t)
  if x.pend.contains (pendP p.n.toNat) then .next (s.block n)
  else if (gate || !late) && x.pBad t p.n.toNat then .next (s.trapNow n i ⟨cUncorrectable, 0, 0⟩)
  else if gate && !(s.predOn n p) then .next (s.adv n i)
  else if (srcs ++ dsts).any x.pend.contains || dsts.any (s.specHeld n) then .next (s.block n)
  else match k with
    | .trap e =>
      if bad && (e.code == cSoftTrap || e.code == cBreak) then .next (s.trapNow n i ⟨cUncorrectable, 0, 0⟩)
      else .next (s.trapNow n i e)
    | .trapIn s' e => .next (if bad then s.trapNow n i ⟨cUncorrectable, 0, 0⟩ else s'.trapNow n i e)
    | .wait s' => .next (s'.block n)
    | .done s' => if bad then .next (s.trapNow n i ⟨cUncorrectable, 0, 0⟩) else .next s'

/-- The issue of an instruction under bit 0 of its predicate. Log entry 16 (DEDUCED). -/
def State.issue (s : State) (i : Instr) (p : Pred) (srcs dsts : List Nat) (k : Res) : Out := s.issueAs true false i p srcs dsts k

/-- Whether the sources of an entry of strand `n` are poisoned at its issue. -/
def State.entBad (s : State) (n : Nat) (p : Pred) (srcs : List Nat) : Bool :=
  let t := s.tagOfStrand n
  (s.strand n).pBad t p.n.toNat || srcs.any ((s.strand n).srcBad t)

/-- A Form A instruction that writes one scalar: `g` gives the value from A, B, C and the old D. -/
def State.alu (s : State) (i : Instr) (f : FA) (old : Bool) (g : W64 → W64 → W64 → W64 → Chk W64) : Out :=
  let n := s.cur
  let d := f.d.dest
  let srcs := opdRegs [f.a, f.b, f.c] ++ (if old then [d] else [])
  s.issue i f.pr srcs [d] (
    match g (s.opd n f.a) (s.opd n f.b) (s.opd n f.c) (s.opd n f.d) with
    | .error e => .trap e
    | .ok v => .done ((s.setS n d v).adv n i))

/-- Whether strand `n` runs an ordered task. -/
def State.inTask (s : State) (n : Nat) : Bool := (s.strand n).task.isSome

/-- R234, R239: whether the strand's task is STALLED, or goes on and waits for its deferred sync operations. -/
def State.taskStalled (s : State) (n : Nat) : Bool :=
  match (s.strand n).task with
  | some q => match (s.die (dieOf n)).task q with
    | some t => t.st == .stalled || (t.nonspec && s.flight.any fun a => t.deferred.contains a.id && !a.done)
    | none => false
  | none => false

/-- R301, R421: an instruction that traps `c` inside an ordered task. -/
def State.notInTask (s : State) (n : Nat) (c : Code) : Chk Unit := need (!(s.inTask n)) c

/-! ### Conditions (R282) -/

def condition (c : Nat) (a b : W64) : Bool :=
  match c with
  | 0 => true
  | 1 => a == b
  | 2 => a != b
  | 3 => a.slt b
  | 4 => !(a.slt b)
  | 5 => a.ult b
  | 6 => !(a.ult b)
  | 7 => !(b.slt a)
  | 8 => b.slt a
  | 9 => !(b.ult a)
  | _ => b.ult a

/-! ### Objects of the group (R198) -/

def State.resOf (s : State) (n : Nat) : W64 := match s.groupOf n with | some g => g.w 2 | none => 0
def State.spadOf (s : State) (n : Nat) : Nat × Nat := match s.groupOf n with | some g => spadRange (g.w 3) | none => (0, 0)
def State.pegOk (s : State) (n ix : Nat) : Bool := inRange (resPeg (s.resOf n)) ix
def State.bobOk (s : State) (n ix : Nat) : Bool := decide (ix < 32) && inRange (resBob (s.resOf n)) ix
def State.accOk (s : State) (n ix : Nat) : Bool := inRange (resAcc (s.resOf n)) ix
def State.tplOk (s : State) (n ix : Nat) : Bool := inRange (resTpl (s.resOf n)) ix
/-- R198: vector register `v` of the strand's allotment. -/
def State.vregOk (s : State) (n v : Nat) : Bool := decide (v < resVreg (s.resOf n) * 8)
/-- The register of the core that a strand's vector register is. -/
def State.vregIx (s : State) (n v : Nat) : Nat := (match s.groupOf n with | some g => Tbl.get 0 g.vbase n | none => 0) + v

/-! ### Effective addresses (R14 to R17) -/

/-- Bytes of the slices, all in one numbering. -/
def sliceAt (c o : Nat) : Nat := c * Config.sliceBytes + o

/-- Where an access of a strand goes: place and access scope (R159). -/
structure Target where
  place : Place
  scope : Nat
deriving DecidableEq, Repr

/-- R74: the fields of a twin entry. -/
def twinOf (v : BitVec 256) : Twin :=
  { pubseq := v.extractLsb' 128 64, pend := v.getLsbD 114, loc := bits v.toNat 112 2, len := bits v.toNat 80 32,
    shd := bits v.toNat 40 40, vis := bits v.toNat 0 40 }

/-- R74: a slot's entry in the replica of a die. -/
def State.twin (s : State) (d slot h : Nat) (t : Tag) : Twin := (Tbl.get zTwin (s.die d).twins (slot * 1024 + h)).read t zTwin0
def State.twinBad (s : State) (d slot h : Nat) (t : Tag) : Bool := (Tbl.get zTwin (s.die d).twins (slot * 1024 + h)).bad t

/-- R14: the flat slice address of a GROUND address; `none` out of bounds. Log entry 21 (DEDUCED). -/
def groundFlat (a n : Nat) : Option (Nat × Nat) :=
  let o := a % 2 ^ 21
  let c := bits a 21 6
  let d := bits a 27 2
  if a ≥ 2 ^ 29 ∨ c ≥ 48 ∨ o + n > Config.sliceBytes then none else some (d * 48 + c, sliceAt (d * 48 + c) o)

/-- R159: the scope of an access from core `c` to core `k`. -/
def groundScope (c k : Nat) : Nat := if c = k then 0 else if dieOfCore c = dieOfCore k then 1 else 2

/-- R14: resolve `n` bytes at effective address `ea` in a space for strand `k` (steps 10 and 11 of R296); a TWIN read finds its buffer
when it reaches its replica (R75, R426). Log entries 21 (DEDUCED), 109 (DEDUCED). -/
def State.resolve (s : State) (k : Nat) (store : Bool) (spc ea n : Nat) : Chk Target :=
  let c := coreOf k
  let slot := s.slotOf k
  match spc with
  | 0 =>
    let r := s.spadOf k
    if ea ≥ 2 ^ 21 ∨ ea < r.1 ∨ ea + n > r.1 + r.2 then trapAt cBound ea else .ok ⟨.ground (sliceAt c ea), 0⟩
  | 1 =>
    let tc := bits ea 27 2 * 48 + bits ea 21 6
    if ea < 2 ^ 29 ∧ bits ea 21 6 < 48 ∧ tc ≠ c ∧ s.maskBit slot tc = false then trapAt cSpace ea
    else match groundFlat ea n with
      | none => trapAt cBound ea
      | some (t, a) => .ok ⟨.ground a, groundScope c t⟩
  | 2 =>
    let h := s.heapTriple c slot
    if ea + n > h.2.1 then trapAt cBound ea else .ok ⟨.hbm (h.2.2 + ea), 2⟩
  | 4 =>
    if store then trapAt cSpace ea
    else if ea ≥ 2 ^ 42 then trapAt cBound ea
    else
      let hd := bits ea 32 10
      let o := ea % 2 ^ 32
      let d := dieOf k
      let t := s.tagOfStrand k
      let e := s.twin d slot hd t
      if s.twinBad d slot hd t then trapAt cUncorrectable ea
      else if (e.loc = 1 ∨ e.loc = 2) ∧ o + n ≤ e.len then .ok ⟨.twin hd o, 2⟩
      else trapAt cBound ea
  | _ => trapAt cSpace ea

/-- R286, R284: the size in bytes of a type code. -/
def tyBytes (ty : Nat) : Nat :=
  match ty with
  | 0 => 1 | 1 => 1 | 12 => 1 | 13 => 1
  | 2 => 2 | 3 => 2 | 8 => 2 | 9 => 2
  | 4 => 4 | 5 => 4 | 10 => 4
  | _ => 8

/-- R389: the value that a load of type `ty` gives. -/
def loadExt (ty x : Nat) : W64 :=
  let w := 8 * tyBytes ty
  if ty = 0 ∨ ty = 2 ∨ ty = 4 then sext64 w x else BitVec.ofNat 64 (x % 2 ^ w)

/-- R389: A + B + sext(DISP) modulo 2^64. -/
def effAddr (a b : W64) (disp : BitVec 16) : W64 := a + b + disp.signExtend 64

end Sys2Proof.Machine
end

