-- ==== Sys2Proof/Machine/System.lean ====
section
/-! DEFINITION. System registers (R293, R294, R322 to R328), time, counters, identity, generations, invalidation and program
events (R329 to R334), with the checks and effects of every register's defining rule. -/
namespace Sys2Proof.Machine

/-! ### Ordering that these instructions need -/

/-- R166: every earlier access of strand `n` whose scope is at most `sc` has performed. -/
def State.performedTo (s : State) (n sc : Nat) : Bool := s.flight.all fun a => a.strand != n || a.done || decide (a.scope > sc)

/-- R323: instructions that can raise FPC flags. -/
def canRaise (i : Instr) : Bool :=
  match i with
  | .vcvt f => decide (8 ≤ f.ty.toNat) || decide (8 ≤ bits f.vb.toNat 0 4)
  | .vdot f => decide (8 ≤ f.ty.toNat)
  | .mdrain _ => true
  | .mdrainv _ => true
  | .tquant _ => true
  | .tdeq _ => true
  | .tcomp _ => true
  | i => match i.form with
    | .v _ f => decide (8 ≤ f.ty.toNat)
    | _ => false

/-- R323: an instruction of strand `n` that can raise flags is still queued. -/
def State.flagsDue (s : State) (n : Nat) : Bool :=
  let c := s.core (coreOf n)
  (c.vq ++ c.mq).any fun e => e.strand == n && canRaise e.ins

/-! ### Event rings (R439) -/

def ringOn (size lo hi : Nat) : Bool := decide (lo ≤ size) && decide (size ≤ hi)

/-- Write bytes of host memory. -/
def State.hostWrite (s : State) (a : Nat) (d : List Byte) : State := { s with host := putCells s.host (cellsAt a d) }
/-- Log entry 8 (DESIGN CHOICE). -/
def State.hostRead (s : State) (a : Nat) (n : Nat) : List Byte := (List.range n).map fun i => Tbl.get 0 s.host (a + i)

/-- Whether a function's event ring takes a record now. -/
def Fn.evRoom (f : Fn) : Bool := ringOn f.evSize 6 16 && decide ((f.evPi - f.evCi).toNat < 2 ^ f.evSize)

/-- R439: write a record, then the producer index, then signal vector 0. -/
def State.ringWrite (s : State) (k : Nat) (r : BitVec 512) : State :=
  let f := s.fn k
  let s := s.hostWrite (f.evBase.toNat + f.evPi.toNat % 2 ^ f.evSize * 64) (leBytes 64 r.toNat)
  let s := s.mapFn k fun f => { f with evPi := f.evPi + 1 }
  (s.hostWrite f.evWb.toNat (leBytes 8 (f.evPi + 1).toNat)).signal k 0

/-! ### Flight: groups that are in flight (R200) -/

def State.storeBusy (s : State) (p : StoreEnt → Bool) : Bool := s.dies.any fun d => d.2.store.any fun e => e.2.st != .free && p e.2
def State.anyInFlight (s : State) : Bool := !s.groups.isEmpty || s.storeBusy fun _ => true
def State.slotInFlight (s : State) (k : Nat) : Bool := s.groups.any (·.2.slot == k) || s.storeBusy (·.slot == k)

/-! ### Virtual time (R50 to R52) -/

/-- The scaled part of TIME. -/
def scaledTime (ref scale : W64) : W64 := BitVec.ofNat 64 (ref.toNat * scale.toNat / 2 ^ 32)
def State.timeOf (s : State) (k : Nat) : W64 := scaledTime s.ref (s.ctxOf k).timeScale + (s.ctxOf k).timeOff

/-- R51: the new slope, and the offset that keeps TIME. -/
def State.setTimeScale (s : State) (k : Nat) (v : W64) : State :=
  let t := s.timeOf k
  s.mapCtx k fun x => { x with timeScale := v, timeOff := t - scaledTime s.ref v }

/-- R52: a write of TIME_OFF that is checked, and one that is exempt, uses the exemption up. -/
def State.spendExempt (s : State) (k : Nat) : State := s.mapCtx k fun x => { x with timeExempt := false }

/-- R52: refused when TIME would fall, but for one exempt write after a GEN.ADV. -/
def State.setTimeOff (s : State) (k : Nat) (v : W64) : Chk State :=
  let x := s.ctxOf k
  let quiet := !(s.slotInFlight k) && ((s.fn k).lq.all fun q => !q.2.en)
  let exempt := x.timeExempt && quiet
  let s' := s.mapCtx k fun x => { x with timeOff := v, timeExempt := false }
  if exempt || decide ((s.timeOf k).toNat ≤ (s'.timeOf k).toNat) then .ok s' else trapOf cOperand

/-! ### Changes that the generation sequencer carries (R18, R47, R72, R93, R258) -/

def allCores : List Nat := List.range 192
def allDies : List Nat := List.range 4

/-- R121: the sequencer takes one change at a time. Log entry 24 (DEDUCED). -/
def State.seqIdle (s : State) : Bool := s.pkg.seqRun.isNone && s.pkg.seqQ.isEmpty

def State.seqStart (s : State) (r : SeqReq) (dies cores : List Nat) : State :=
  s.mapPkg fun p => { p with seqRun := some ⟨r, dies, cores⟩ }

/-- R10, R13: whether a heap triple may stand for a slot. -/
def State.heapOk (s : State) (k base limit off : Nat) : Bool :=
  base % 65536 == 0 && limit % 65536 == 0 && off % 65536 == 0 && decide (base < 2 ^ 55) &&
  (limit == 0 || (s.ownsRange k off limit && decide (base + limit ≤ 2 ^ 55)))

/-- HEAP_BASE (0), HEAP_LIMIT (1), HEAP_OFF (2) of slot `k`: checked whole (R13); until its cut each core uses the old triple
(R18). -/
def State.heapWrite (s : State) (which k : Nat) (v : W64) : Chk State :=
  let x := s.ctxOf k
  let w := v.toNat
  let old := (x.heapBase.toNat, x.heapLimit.toNat, x.heapOff.toNat)
  let nb := if which = 0 then w else old.1
  let nl := if which = 1 then w else old.2.1
  let no := if which = 2 then w else old.2.2
  if w ≥ 2 ^ (if which = 0 then 56 else 40) ∨ s.heapOk k nb nl no = false then trapOf cOperand
  else
    let s := { s with oldHeap := allCores.foldl (fun t c => Tbl.ins t (c * 64 + k) old) s.oldHeap }
    let s := s.mapCtx k fun x =>
      { x with heapBase := BitVec.ofNat 56 nb, heapLimit := BitVec.ofNat 40 nl, heapOff := BitVec.ofNat 40 no }
    .ok (s.seqStart (.heap k nb nl no) [] allCores)

/-- R71: the overflow area of a slot: base and length over the four dies. -/
def ovfArea (limit len ovf : Nat) : Nat × Nat := (ovf, 4 * roundUp (2 * (limit - min len limit)) 65536)

/-- R72: whether sync-window values may stand for slot `k`. -/
def State.syncOk (s : State) (k limit base len ovf : Nat) : Bool :=
  limit % 8 == 0 && base % 64 == 0 && len % 64 == 0 && ovf % 65536 == 0 && decide (base + len ≤ 0x600000) &&
  ((List.range 64).all fun j => j == k ||
    (let y := s.ctxOf j
     len == 0 || y.sramLen.toNat == 0 || decide (base + len ≤ y.sramBase.toNat) || decide (y.sramBase.toNat + y.sramLen.toNat ≤ base))) &&
  (let a := ovfArea limit len ovf; a.2 == 0 || s.ownsRange 0 a.1 a.2)

/-- SYNC_LIMIT (0), SYNC_SRAM_BASE (1), SYNC_SRAM_LEN (2), SYNC_OVF_BASE (3). -/
def State.syncWrite (s : State) (which k : Nat) (v : W64) : Chk State :=
  let x := s.ctxOf k
  let w := v.toNat
  let old := (x.syncLimit.toNat, x.sramBase.toNat, x.sramLen.toNat, x.ovfBase.toNat)
  let nl := if which = 0 then w else old.1
  let nb := if which = 1 then w else old.2.1
  let nn := if which = 2 then w else old.2.2.1
  let no := if which = 3 then w else old.2.2.2
  let width := match which with | 0 => 32 | 1 => 23 | 2 => 23 | _ => 40
  if w ≥ 2 ^ width ∨ s.syncOk k nl nb nn no = false then trapOf cOperand
  else
    let s := { s with oldSync := (List.range 196).foldl (fun t u => Tbl.ins t (u * 64 + k) old) s.oldSync }
    let s := s.mapCtx k fun x =>
      { x with syncLimit := BitVec.ofNat 32 nl, sramBase := BitVec.ofNat 23 nb, sramLen := BitVec.ofNat 23 nn, ovfBase := BitVec.ofNat 40 no }
    .ok (s.seqStart (.sync k nl nb nn no) allDies allCores)

/-- R47: DIRTY_SEL; it reads back the old value until every unit has switched. -/
def State.dirtySelWrite (s : State) (v : W64) : Chk State :=
  if v.toNat ≥ 2 then trapOf cOperand
  else .ok ((s.mapPkg fun p => { p with dirtySel := v == 1 }).seqStart (.dirtySel (v == 1)) allDies [])

/-- R83. -/
def State.errModeWrite (s : State) (v : W64) : Chk State :=
  if v.toNat ≥ 2 ∨ s.anyInFlight then trapOf cOperand else .ok (s.mapPkg fun p => { p with errMode := v == 1 })

/-- R258, R329: PERF_SEL_k; the counter restarts at each core's cut. -/
def State.perfSelWrite (s : State) (k i : Nat) (v : W64) : Chk State :=
  if v.toNat > 0xD then trapOf cOperand
  else .ok ((s.mapCtx k fun x => { x with perfSel := Tbl.put 0 x.perfSel i (v.setWidth 16) }).seqStart (.perfSel k i (Tbl.get (0 : BitVec 16) (s.ctxOf k).perfSel i).toNat) [] allCores)

/-- R94: the fields of a peer window. -/
def windowOf (v : BitVec 128) : Window :=
  { src := bits v.toNat 73 10, owner := bits v.toNat 67 6, v := bit v.toNat 66, wr := bit v.toNat 65, rd := bit v.toNat 64,
    len := bits v.toNat 40 24, base := bits v.toNat 16 24 }
def wordOfWindow (w : Window) : Nat :=
  w.base * 2 ^ 16 + w.len * 2 ^ 40 + (if w.rd then 2 ^ 64 else 0) + (if w.wr then 2 ^ 65 else 0) + (if w.v then 2 ^ 66 else 0) +
    w.owner * 2 ^ 67 + w.src * 2 ^ 73

def State.window (s : State) (i : Nat) : Window := Tbl.get Window.init s.pkg.windows i

/-- R94: an RZ bit gives ILLEGAL_ENCODING; V with bytes that OWNER does not own ILLEGAL_OPERAND. -/
def State.windowWrite (s : State) (i : Nat) (v : BitVec 128) : Chk State :=
  let w := windowOf v
  if bits v.toNat 83 45 ≠ 0 ∨ bits v.toNat 0 16 ≠ 0 then trapOf cEncoding
  else if w.v ∧ s.ownsRange w.owner (w.base * 65536) (w.len * 65536) = false then trapOf cOperand
  else .ok (s.mapPkg fun p => { p with windows := Tbl.put Window.init p.windows i w })

/-- R105, R106: multicast entry (die × 64 + slot) × 64 + group, installed whole under the slot's current tag. RZ bytes give
ILLEGAL_ENCODING, a count above 16 or a window above 63 ILLEGAL_OPERAND; a destination past the count is kept as written. Log entry 116
(DESIGN CHOICE). -/
def State.mcastWrite (s : State) (e : Nat) (v : BitVec 256) : Chk State :=
  let d := e / 4096
  let slot := e / 64 % 64
  if bits v.toNat 16 16 ≠ 0 ∨ bits v.toNat 192 64 ≠ 0 then trapOf cEncoding
  else if bits v.toNat 0 8 > 16 ∨ bits v.toNat 8 8 > 63 then trapOf cOperand
  else .ok (s.mapDie d fun x => { x with mcast := Tbl.put zMcast x.mcast (e % 4096) (Tagged.whole (s.slotTag slot) v) })

/-- R98: whether a lease names the block while it is OFFERED, ACTIVE or RECLAIMING. -/
def State.leasedBlock (s : State) (b : Nat) : Bool := s.pkg.leases.any fun l => l.2.block == b && l.2.st != 0

/-- Whether [a, a + n) touches block `b`. -/
def touches (b a n : Nat) : Bool := decide (0 < n) && decide (a < (b + 1) * 0x80000000) && decide (b * 0x80000000 < a + n)

/-- R93: whether the owner entry of block `b` may change to `v`; of the peer windows those with V = 1 hold it back. Log entry 103 (DESIGN CHOICE). -/
def State.ownerOk (s : State) (b v : Nat) : Bool :=
  let cur := s.owner b
  (decide (v < 64) || v == 0xFE || v == 0xFF) && (v != 0xFE || cur == 0xFE) && !(cur == 0xFE && s.leasedBlock b) &&
  ((List.range 64).all fun k =>
    let x := s.ctxOf k
    !(touches b x.heapOff.toNat x.heapLimit.toNat) &&
    (let a := ovfArea x.syncLimit.toNat x.sramLen.toNat x.ovfBase.toNat; !(touches b a.1 a.2))) &&
  !(s.pkg.borrows.any fun e => e.2.st != 0 && e.2.fbk == b) &&
  !(s.pkg.windows.any fun w => w.2.v && touches b (w.2.base * 65536) (w.2.len * 65536))

def State.ownerWrite (s : State) (b : Nat) (v : W64) : Chk State :=
  if v.toNat ≥ 256 then trapOf cEncoding
  else if s.ownerOk b v.toNat = false then trapOf cOperand
  else
    let old := s.owner b
    .ok ((s.mapPkg fun p => { p with owner := Tbl.put 0xFF p.owner b (v.setWidth 8) }).seqStart (.owner b v.toNat old) allDies [])

/-- R90: a channel is retired: cause 0 command, 1 training, 2 error count. -/
def State.retireChannel (s : State) (st ch cause : Nat) : State :=
  (s.mapPkg fun p => { p with stk := Tbl.put Stack.init p.stk st ⟨1, ch, 0⟩ }).event (st / 2) 0x52 0 [st, ch, cause]

def State.stackOf (s : State) (st : Nat) : Stack := Tbl.get Stack.init s.pkg.stk st

def State.chanRetireWrite (s : State) (v : W64) : Chk State :=
  let st := bits v.toNat 5 3
  if v.toNat ≥ 256 ∨ (s.stackOf st).st ≠ 0 then trapOf cOperand else .ok (s.retireChannel st (bits v.toNat 0 5) 0)

/-! ### The register tables (R324 to R327) -/

/-- R324: the access codes. -/
inductive Acs where
  | rw | a | a0 | r | r0 | w0
deriving DecidableEq, Repr

/-- The access of the register that SPACE and NUM name; `none` for a number that names none. -/
def sysAccess (space num : Nat) : Option Acs :=
  match space with
  | 0 => if num ≤ 1 then some .rw else if num ≤ 5 then some .r else none
  | 1 =>
    if num ≤ 2 then some .r else if num = 3 then some .r0
    else if num ∈ [0x10, 0x11, 0x12] then some .a
    else if num = 0x18 then some .rw else if num ∈ [0x19, 0x1A] then some .a
    else if num ∈ [0x20, 0x21, 0x22, 0x28, 0x29, 0x2A, 0x2B, 0x30, 0x31] then some .a
    else if num = 0x32 then some .r
    else if num ∈ [0x38, 0x39, 0x40, 0x41, 0x42, 0x48] then some .a
    else if num ∈ [0x49, 0x4A] then some .rw else if num = 0x4B then some .a else if num = 0x4C then some .r
    else if 0x50 ≤ num ∧ num ≤ 0x57 then some .rw else none
  | 2 => if num ≤ 7 then some .r else none
  | 3 => if num = 0 then some .a0 else if num ≤ 2 then some .r else if num ∈ [8, 9, 10, 11] then some .r0 else none
  | 4 =>
    if num = 0 then some .r0 else if num ∈ [1, 2, 3, 4, 8, 9] then some .a0 else if num = 0xA then some .w0
    else if 0x10 ≤ num ∧ num ≤ 0x18 then some .r0 else none
  | 5 => if num ≤ 2 then some .a0 else if num = 3 then some .r0 else none
  | _ => none

/-- Step 7 (R294, R324): whether the issuing slot may read or write. -/
def mayRead (c : Acs) (slot : Nat) : Bool := match c with | .a0 => slot == 0 | .r0 => slot == 0 | .w0 => slot == 0 | _ => true
def mayWrite (c : Acs) (slot : Nat) : Bool := match c with | .rw => true | .a => slot == 0 | .a0 => slot == 0 | .w0 => slot == 0 | _ => false

/-- R293: the index: the slot, core, die or table word that it names. -/
def sysIndex (space : Nat) (other : Bool) (num slot : Nat) (a : W64) : Chk (Nat × Nat) :=
  let x := a.toNat
  match space with
  | 1 => if other then (if x < 64 then .ok (x, 0) else trapOf cOperand) else if x = 0 then .ok (slot, 0) else trapOf cOperand
  | 2 =>
    let c := x % 256
    let t := x / 256
    if c ≥ 192 then trapOf cOperand
    else if other then (if t < 64 then .ok (t, c) else trapOf cOperand) else if t = 0 then .ok (slot, c) else trapOf cOperand
  | 3 => if x < 4 then .ok (slot, x) else trapOf cOperand
  | 5 =>
    let size := match num with | 0 => 248 | 1 => 128 | 2 => 65536 | _ => 256
    if x < size then .ok (slot, x) else trapOf cOperand
  | _ => if x = 0 then .ok (slot, 0) else trapOf cOperand

/-- R91: STACK_STATE. -/
def stackWord (x : Stack) : W64 := BitVec.ofNat 64 (x.rbPtr * 256 + x.st * 64 + x.retCh)

/-- R241: the key of a slot's oldest task on a die. -/
def State.cfrTs (s : State) (d k : Nat) : W64 := match (s.die d).oldest k with | some t => t.ts | none => BitVec.allOnes 64
def State.cfrSeq (s : State) (d k : Nat) : W64 :=
  match (s.die d).oldest k with | some t => BitVec.ofNat 64 t.seq | none => BitVec.ofNat 64 (2 ^ 48 - 1)

/-- R258: whether counter `i` of a slot, which counts time, may have counted since its restart: an instruction of the slot has issued on
the core since, or it counts the cycles of the groups that run there. -/
def State.perfLive (s : State) (c k i : Nat) (t : Tag) : Bool :=
  (Tbl.get zCnt (s.core c).perf (k * 8 + i)).tag == t ||
    ((s.perfSelOf c k i == 1 || s.perfSelOf c k i == 3) && s.groups.any fun g => g.2.slot == k && g.2.st == .running && g.2.cores.contains c)

/-- R258: a performance counter of a slot on a core, under the slot's tag; a free value where it counts time. Log entry 55 (DESIGN CHOICE). -/
def State.perfCount (s : State) (c k i : Nat) (t : Tag) : W64 :=
  if perfFree (s.perfSelOf c k i) then (if s.perfLive c k i t then (Config.perfTimed s.free).setWidth 64 else 0) else
  ((Tbl.get zCnt (s.core c).perf (k * 8 + i)).read t 0).setWidth 64

/-- The value of a slot register of slot `k`; through SYSRD.other CTX_SLOT gives the slot that the index names. Log entry 102 (DESIGN CHOICE). -/
def State.slotReg (s : State) (k num : Nat) : W64 :=
  let x := s.ctxOf k
  match num with
  | 0x00 => BitVec.ofNat 64 k
  | 0x01 => x.gen.setWidth 64
  | 0x02 => x.genLw.setWidth 64
  | 0x03 => x.genDrops.setWidth 64
  | 0x10 => x.heapBase.setWidth 64
  | 0x11 => x.heapLimit.setWidth 64
  | 0x12 => x.heapOff.setWidth 64
  | 0x18 => x.s1Root.setWidth 64
  | 0x19 => x.s2Root.setWidth 64
  | 0x1A => x.pasid.setWidth 64
  | 0x20 => x.maskA
  | 0x21 => x.maskB
  | 0x22 => x.maskC
  | 0x28 => x.syncLimit.setWidth 64
  | 0x29 => x.sramBase.setWidth 64
  | 0x2A => x.sramLen.setWidth 64
  | 0x2B => x.ovfBase.setWidth 64
  | 0x30 => if x.dirtyEn then 1 else 0
  | 0x31 => x.tlbiWdog.setWidth 64
  | 0x32 => x.tlbiDone
  | 0x38 => x.timeScale
  | 0x39 => x.timeOff
  | 0x40 => x.schedSlice.setWidth 64
  | 0x41 => x.schedWeight.setWidth 64
  | 0x42 => x.tdWindow.setWidth 64
  | 0x48 => x.preemptDl.setWidth 64
  | 0x49 => x.saveBase.setWidth 64
  | 0x4A => x.saveFrames.setWidth 64
  | 0x4B => if x.dbgEn then 1 else 0
  | 0x4C => x.lostPosts.setWidth 64
  | _ => (Tbl.get 0 x.perfSel (num - 0x50)).setWidth 64

/-- The value of a package register. -/
def State.pkgReg (s : State) (num : Nat) : W64 :=
  let p := s.pkg
  match num with
  | 0x00 => s.ref
  | 0x01 => p.dirtyBase
  | 0x02 => if p.dirtyShown then 1 else 0
  | 0x03 => if p.errMode then 1 else 0
  | 0x04 => p.scrubPct.setWidth 64
  | 0x08 => p.distLimit.setWidth 64
  | 0x09 => p.distThrottle.setWidth 64
  | 0x0A => 0
  | 0x18 => p.lgen.setWidth 64
  | _ => stackWord (s.stackOf (num - 0x10))

/-- R327: a word of a table. -/
def State.tableWord (s : State) (num ix : Nat) : W64 :=
  match num with
  | 0 => BitVec.ofNat 64 (s.owner ix)
  | 1 => BitVec.ofNat 64 (wordOfWindow (s.window (ix / 2)) / 2 ^ (64 * (ix % 2)))
  | 2 =>
    let e := ix / 4
    let v := (Tbl.get zMcast (s.die (e / 4096)).mcast (e % 4096)).read (s.slotTag (e / 64 % 64)) 0
    BitVec.ofNat 64 (v.toNat / 2 ^ (64 * (ix % 4)))
  | _ => BitVec.ofNat 64 ((Tbl.get 0 s.pkg.chanCorr ix).toNat + (Tbl.get 0 s.pkg.chanBurst ix).toNat * 2 ^ 32)

/-- SYSRD's value (R322): `t` is the reading strand's tag, `k` and `x` what the index names. -/
def State.sysRead (s : State) (n space num k x : Nat) : W64 :=
  match space with
  | 0 => s.getCtl n num
  | 1 => s.slotReg k num
  | 2 => s.perfCount x k num (if k = s.slotOf n then s.tagOfStrand n else s.slotTag k)
  | 3 =>
    let d := s.die x
    match num with
    | 0 => d.spillBase.setWidth 64
    | 1 => s.cfrTs x (s.slotOf n)
    | 2 => s.cfrSeq x (s.slotOf n)
    | 8 => d.stray.setWidth 64
    | 9 => d.ceSlice.setWidth 64
    | 10 => d.ceBayc.setWidth 64
    | _ => d.ceSync.setWidth 64
  | 4 => s.pkgReg num
  | _ => s.tableWord num x

/-- A plain slot register: its width and rule, and the write. -/
def ranged (v : W64) (lo hi : Nat) (s : State) : Chk State := if lo ≤ v.toNat ∧ v.toNat ≤ hi then .ok s else trapOf cOperand

def State.slotWrite (s : State) (k num : Nat) (v : W64) : Chk State :=
  let w := v.toNat
  match num with
  | 0x10 => s.heapWrite 0 k v
  | 0x11 => s.heapWrite 1 k v
  | 0x12 => s.heapWrite 2 k v
  | 0x18 => if w < 2 ^ 48 ∧ w % 0x80000 = 0 then .ok (s.mapCtx k fun x => { x with s1Root := v.setWidth 48 }) else trapOf cOperand
  | 0x19 => if w < 2 ^ 48 ∧ w % 4096 = 0 then .ok (s.mapCtx k fun x => { x with s2Root := v.setWidth 48 }) else trapOf cOperand
  | 0x1A => ranged v 0 (2 ^ 20 - 1) (s.mapCtx k fun x => { x with pasid := v.setWidth 20 })
  | 0x20 => .ok (s.mapCtx k fun x => { x with maskA := v })
  | 0x21 => .ok (s.mapCtx k fun x => { x with maskB := v })
  | 0x22 => .ok (s.mapCtx k fun x => { x with maskC := v })
  | 0x28 => s.syncWrite 0 k v
  | 0x29 => s.syncWrite 1 k v
  | 0x2A => s.syncWrite 2 k v
  | 0x2B => s.syncWrite 3 k v
  | 0x30 => ranged v 0 1 (s.mapCtx k fun x => { x with dirtyEn := v == 1 })
  | 0x31 => ranged v 1 65535 (s.mapCtx k fun x => { x with tlbiWdog := v.setWidth 16 })
  | 0x38 => .ok (s.setTimeScale k v)
  | 0x39 => s.setTimeOff k v
  | 0x40 => ranged v 10 65535 (s.mapCtx k fun x => { x with schedSlice := v.setWidth 16 })
  | 0x41 => ranged v 1 255 (s.mapCtx k fun x => { x with schedWeight := v.setWidth 8 })
  | 0x42 => ranged v 1 65535 (s.mapCtx k fun x => { x with tdWindow := v.setWidth 16 })
  | 0x48 => ranged v 1 65535 (s.mapCtx k fun x => { x with preemptDl := v.setWidth 16 })
  | 0x49 => if w < 2 ^ 40 ∧ w % 0x200000 = 0 ∧ (s.ctxOf k).frames = [] then .ok (s.mapCtx k fun x => { x with saveBase := v.setWidth 40 }) else trapOf cOperand
  | 0x4A => if w ≤ 4096 ∧ (s.ctxOf k).frames = [] then .ok (s.mapCtx k fun x => { x with saveFrames := v.setWidth 13 }) else trapOf cOperand
  | 0x4B => ranged v 0 1 (s.mapCtx k fun x => { x with dbgEn := v == 1 })
  | _ => s.perfSelWrite k (num - 0x50) v

def State.pkgWrite (s : State) (num : Nat) (v : W64) : Chk State :=
  match num with
  | 0x01 => if v.toNat % 65536 = 0 then .ok (s.mapPkg fun p => { p with dirtyBase := v }) else trapOf cOperand
  | 0x02 => s.dirtySelWrite v
  | 0x03 => s.errModeWrite v
  | 0x04 => ranged v 2 8 (s.mapPkg fun p => { p with scrubPct := v.setWidth 4 })
  | 0x08 => ranged v 256 8192 (s.mapPkg fun p => { p with distLimit := v.setWidth 16 })
  | 0x09 => ranged v 1 255 (s.mapPkg fun p => { p with distThrottle := v.setWidth 8 })
  | _ => s.chanRetireWrite v

/-- R328: the words of an entry with the staged ones and the last one put in. -/
def mergeWords (st : Option Staging) (table entry last : Nat) (old : Nat) (v : W64) : Nat :=
  let pick (i : Nat) : Nat :=
    if i = last then v.toNat
    else match st with
      | some g => if g.table = table ∧ g.entry = entry ∧ bit g.mask i then (match i with | 0 => g.w0.toNat | 1 => g.w1.toNat | _ => g.w2.toNat)
        else bits old (64 * i) 64
      | none => bits old (64 * i) 64
  (List.range (last + 1)).foldl (fun r i => r + pick i * 2 ^ (64 * i)) 0

/-- R328: stage word `i`; another entry's staged words are discarded. -/
def stageWord (st : Option Staging) (table entry i : Nat) (v : W64) : Option Staging :=
  let g := match st with
    | some g => if g.table = table ∧ g.entry = entry then g else ⟨table, entry, 0, 0, 0, 0⟩
    | none => ⟨table, entry, 0, 0, 0, 0⟩
  let g := match i with
    | 0 => { g with w0 := v }
    | 1 => { g with w1 := v }
    | _ => { g with w2 := v }
  some { g with mask := g.mask ||| 2 ^ i }

/-- R322, R327, R328: a SYSWR to word `ix` of a table by strand `n`; an RZ bit traps at its own word, the rest is checked on the whole entry. -/
def State.tableWrite (s : State) (n num ix : Nat) (v : W64) : Chk State :=
  let st := (s.strand n).staged
  let drop (s : State) : State := s.mapStrand n fun x => { x with staged := none }
  match num with
  | 0 => match s.ownerWrite ix v with
    | .ok s => .ok (drop s)
    | .error e => .error e
  | 1 =>
    if ix % 2 = 0 then
      if bits v.toNat 0 16 ≠ 0 then trapOf cEncoding else .ok (s.mapStrand n fun x => { x with staged := stageWord st 1 (ix / 2) 0 v })
    else match s.windowWrite (ix / 2) (BitVec.ofNat 128 (mergeWords st 1 (ix / 2) 1 (wordOfWindow (s.window (ix / 2))) v)) with
      | .ok s => .ok (drop s)
      | .error e => .error e
  | _ =>
    let e := ix / 4
    if ix % 4 < 3 then
      if ix % 4 = 0 ∧ bits v.toNat 16 16 ≠ 0 then trapOf cEncoding
      else .ok (s.mapStrand n fun x => { x with staged := stageWord st 2 e (ix % 4) v })
    else
      let old := ((Tbl.get zMcast (s.die (e / 4096)).mcast (e % 4096)).read (s.slotTag (e / 64 % 64)) 0).toNat
      match s.mcastWrite e (BitVec.ofNat 256 (mergeWords st 2 e 3 old v)) with
      | .ok s => .ok (drop s)
      | .error e => .error e

/-- A SYSWR's effect (R322): RZ bits, width and the defining rule are checked first. -/
def State.sysWrite (s : State) (n space num k x : Nat) (v : W64) : Chk State :=
  match space with
  | 0 =>
    if num = nFPC then
      if fpcRzOk v = false then trapOf cEncoding else if fpcRmOk v = false then trapOf cOperand else .ok (s.setCtl n nFPC v)
    else .ok (s.setCtl n num v)
  | 1 => s.slotWrite k num v
  | 3 =>
    if v.toNat < 2 ^ 40 ∧ v.toNat % 65536 = 0 ∧ s.ownsRange 0 v.toNat 0x40000 then
      .ok (s.mapDie x fun d => { d with spillBase := v.setWidth 40 })
    else trapOf cOperand
  | 4 => s.pkgWrite num v
  | _ => s.tableWrite n num x v

/-- R323: registers that the generation sequencer carries. -/
def carried (space num ix : Nat) : Bool :=
  (space == 1 && (num ∈ [0x10, 0x11, 0x12, 0x28, 0x29, 0x2A, 0x2B] || decide (0x50 ≤ num))) || (space == 4 && num == 2) ||
    (space == 5 && num == 0 && decide (ix < 248))

/-- The SPACE, OTHER and NUM of an identifier (R293). -/
def idSpace (id : BitVec 16) : Nat := bits id.toNat 13 3
def idOther (id : BitVec 16) : Bool := bit id.toNat 12
def idNum (id : BitVec 16) : Nat := bits id.toNat 0 12

/-- Steps 7 and 9 for a system register: its privilege, then its number and index. -/
def sysCheck (slot : Nat) (id : BitVec 16) (write : Bool) (a : W64) : Chk (Nat × Nat) :=
  let sp := idSpace id
  let num := idNum id
  if idOther id ∧ slot ≠ 0 then trapOf cPrivilege
  else match sysAccess sp num with
    | none => trapOf cOperand
    | some c => if (if write then mayWrite c slot else mayRead c slot) = false then trapOf cPrivilege
      else sysIndex sp (idOther id) num slot a

/-- SYSRD (R322, R323). -/
def execSysrd (f : FS) (s : State) : Out :=
  let n := s.cur
  let sp := idSpace f.id
  let num := idNum f.id
  s.issue (.sysrd f) f.pr (opdRegs [f.a] ++ if sp = 0 then [pendC num] else []) [f.d.dest] (
    match sysCheck (s.slotOf n) f.id false (s.opd n f.a) with
    | .error e => .trap e
    | .ok (k, x) =>
      if sp = 0 ∧ num = nFPC ∧ s.flagsDue n then .wait s
      else .done ((s.setS n f.d.dest (s.sysRead n sp num k x)).tick.adv n (.sysrd f)))

/-- SYSWR (R301, R322, R323, R328): a write outside space 0 is a release at PACKAGE scope, and a register that the sequencer
carries waits for its acceptance. A refused table write discards the staged words; a trap ends the group and with it the
staging. Log entry 24 (DEDUCED). -/
def execSyswr (f : FS) (s : State) : Out :=
  let n := s.cur
  let sp := idSpace f.id
  let num := idNum f.id
  let v := s.opd n f.d
  s.issue (.syswr f) f.pr (opdRegs [f.a, f.d] ) [] (
    match sysCheck (s.slotOf n) f.id true (s.opd n f.a) with
    | .error e => .trap e
    | .ok (k, x) =>
      if sp ≠ 0 ∧ s.inTask n then .trap ⟨cOperand, 0, 0⟩
      else if sp = 0 ∧ num = nFPC ∧ s.flagsDue n then .wait s
      else match s.sysWrite n sp num k x v with
        | .error e => if sp = 1 ∧ num = 0x39 then .trapIn (s.spendExempt k) e else .trap e
        | .ok s' =>
          if sp ≠ 0 ∧ s.performedTo n 2 = false then .wait s
          else if carried sp num x ∧ s.seqIdle = false then .wait s
          else .done (s'.adv n (.syswr f)))

/-! ### Time, counters, identity -/

/-- TIME (R50, R329). -/
def execTime (f : FA) (s : State) : Out :=
  let n := s.cur
  s.issue (.time f) f.pr [] [f.d.dest] (.done ((s.setS n f.d.dest (s.timeOf (s.slotOf n))).adv n (.time f)))

/-- PERF (R258, R329). -/
def execPerf (f : FA) (s : State) : Out :=
  let n := s.cur
  let a := (s.opd n f.a).toNat
  s.issue (.perf f) f.pr (opdRegs [f.a]) [f.d.dest] (
    if a > 7 then .trap ⟨cOperand, 0, 0⟩
    else .done ((s.setS n f.d.dest (s.perfCount (coreOf n) (s.slotOf n) a (s.tagOfStrand n))).tick.adv n (.perf f)))

/-- R330: part and revision; device number and whether a station has been UP; placement. -/
def State.idValue (s : State) (n a : Nat) : W64 :=
  match a with
  | 0 => 0x019416
  | 1 => if s.pkg.everUp then BitVec.ofNat 64 (s.pkg.devNo % 1024 + 1024) else 0
  | _ => BitVec.ofNat 64 (n % 4 + coreOf n % 48 * 256 + dieOf n * 2 ^ 14)

/-- ID (R330). -/
def execId (f : FA) (s : State) : Out :=
  let n := s.cur
  let a := (s.opd n f.a).toNat
  s.issue (.id f) f.pr (opdRegs [f.a]) [f.d.dest] (
    if a > 2 then .trap ⟨cOperand, 0, 0⟩ else .done ((s.setS n f.d.dest (s.idValue n a)).adv n (.id f)))

/-! ### Generations, translation and events -/

/-- GEN.RD (R331). -/
def execGenRd (f : FA) (s : State) : Out :=
  let n := s.cur
  let slot := s.slotOf n
  let a := if f.m = 1 then slot else (s.opd n f.a).toNat
  s.issue (.genRd f) f.pr (if f.m = 1 then [] else opdRegs [f.a]) [f.d.dest] (
    if slot ≠ 0 ∧ a ≠ slot then .trap ⟨cPrivilege, 0, 0⟩
    else if a > 63 then .trap ⟨cOperand, 0, 0⟩
    else
      let x := s.ctxOf a
      .done ((s.setS n f.d.dest (BitVec.ofNat 64 (x.gen.toNat + x.genLw.toNat * 65536))).adv n (.genRd f)))

/-- GEN.ADV (R120, R332): asks the sequencer; the strand stalls until D is written, and PC moves then. -/
def execGenAdv (f : FA) (s : State) : Out :=
  let n := s.cur
  let a := (s.opd n f.a).toNat
  s.issue (.genAdv f) f.pr (opdRegs [f.a]) [f.d.dest] (
    if s.slotOf n ≠ 0 then .trap ⟨cPrivilege, 0, 0⟩
    else if s.inTask n ∨ a = 0 ∨ a > 63 then .trap ⟨cOperand, 0, 0⟩
    else .done ((s.mapPkg fun p => { p with seqQ := p.seqQ ++ [.genAdv a n f.d.dest (Instr.genAdv f).len] }).mapStrand n fun x =>
      { x with stall := 3, st := .blocked }))

/-- R41, R333: post an invalidation of slot `k`; a core that has held no entry of the slot acknowledges at once. -/
def State.postTlbi (s : State) (k lo hi : Nat) (all : Bool) : State × Nat :=
  let m := ((s.ctxOf k).tlbiPosted + 1) % 2 ^ 56
  let s := s.mapCtx k fun x => { x with tlbiPosted := m }
  let cores := allCores.filter fun c => (s.core c).l1Held.contains k
  (s.mapPkg fun p => { p with tlbis := p.tlbis ++ [⟨k, m, lo, hi, all, allDies, cores, s.cycle⟩] }, m)

/-- The common part of the two forms: checks, FULL with 32 outstanding, else the ticket. -/
def State.tlbi (s : State) (i : Instr) (f : FA) (all : Bool) : Out :=
  let n := s.cur
  let slot := s.slotOf n
  let a := (s.opd n f.a).toNat
  let b := (s.opd n f.b).toNat
  let c := (s.opd n f.c).toNat
  s.issue i f.pr (if all then opdRegs [f.a] else opdRegs [f.a, f.b, f.c]) [f.d.dest] (
    if slot ≠ 0 ∧ a ≠ slot then .trap ⟨cPrivilege, 0, 0⟩
    else if s.inTask n ∨ a > 63 then .trap ⟨cOperand, 0, 0⟩
    else if ¬all ∧ (b % 65536 ≠ 0 ∨ b ≥ 2 ^ 56 ∨ c = 0 ∨ c % 65536 ≠ 0 ∨ b + c > 2 ^ 56) then .trap ⟨cOperand, 0, 0⟩
    else if s.pkg.tlbis.length ≥ 32 then .done ((s.setS n f.d.dest (cFull.setWidth 64)).adv n i)
    else
      let r := s.postTlbi a b (b + c) all
      .done ((r.1.setS n f.d.dest (BitVec.ofNat 64 (r.2 * 256))).adv n i))

/-- TLBI (R333). -/
def execTlbi (f : FA) (s : State) : Out := s.tlbi (.tlbi f) f false
/-- TLBI.all (R333). -/
def execTlbiAll (f : FA) (s : State) : Out := s.tlbi (.tlbiAll f) f true

/-- EVPOST (R334): a release at SYSTEM scope; FULL when the ring is disabled or full; it waits behind records that the device
has still to write. -/
def execEvpost (f : FA) (s : State) : Out :=
  let n := s.cur
  let k := s.slotOf n
  let a := (s.opd n f.a).toNat
  let b := (s.opd n f.b).toNat
  s.issue (.evpost f) f.pr (opdRegs [f.a, f.b]) [f.d.dest] (
    if s.inTask n ∨ a > 0xFFFF then .trap ⟨cOperand, 0, 0⟩
    else if s.performedTo n 4 = false then .wait s
    else if (s.fn k).evRoom = false then .done ((s.setS n f.d.dest (cFull.setWidth 64)).adv n (.evpost f))
    else if (s.fn k).evBuf ≠ [] then .wait s
    else
      let r := record [(1, 2), (1, 0), (2, a), (1, k), (1, coreByte (coreOf n)), (1, n % 4), (1, 0), (8, b), (8, s.ref.toNat)]
      .done ((((s.ringWrite k r).logBox (dieOf n) (Config.boxCode 2) k (coreOf n) [a, b]).setS n f.d.dest 0).adv n (.evpost f)))

end Sys2Proof.Machine
end

