-- ==== Sys2Proof/Machine/Memory.lean ====
section
/-! DEFINITION. Reading and writing the bytes of an access where they lie, with the checks of the unit that holds them: the
cut (R122), the owner check (R92), the tags (R113 to R116), poison (R79); and the order of a strand's accesses (R160 to R166). -/
namespace Sys2Proof.Machine

/-- The granules that `n` bytes from `a` touch. -/
def granRange (a n : Nat) : List Nat := if n = 0 then [] else (List.range ((a + n - 1) / 64 - a / 64 + 1)).map (a / 64 + ·)

/-! ### The holder's checks -/

/-- R122: whether the holder of byte `a` of a place has cut and the operation is an old one. -/
def State.cutAt (s : State) (slot gen : Nat) (p : Place) (i : Nat) : Bool :=
  match p with
  | .hbm a => s.oldAtDie (dieOfPa (a + i)) slot gen
  | .ground a => s.oldAtDie (dieOfCore ((a + i) / Config.sliceBytes)) slot gen
  | _ => false

/-- R92: whether the owner check refuses byte `i` of a place; slot 0 passes. -/
def State.refusedAt (s : State) (slot : Nat) (p : Place) (i : Nat) : Bool :=
  match p with
  | .hbm a => slot != 0 && s.ownerNow ((a + i) / 0x80000000) != slot
  | _ => false

/-- R121: whether die `d` has yet to cut for an advance of a slot, so that no operation of the new generation may reach its holders. -/
def State.uncut (s : State) (d slot : Nat) : Bool := match s.advancing slot with | some r => r.dies.contains d | none => false
/-- R121: whether an access that carries the new generation of a slot has to wait for the cut of the die that holds its bytes. -/
def State.beforeCut (s : State) (slot a n : Nat) : Bool := s.uncut (dieOfPa a) slot || s.uncut (dieOfPa (a + n - 1)) slot

def State.allowedAt (s : State) (slot gen : Nat) (p : Place) (i : Nat) : Bool := !(s.cutAt slot gen p i) && !(s.refusedAt slot p i)

/-- R82: whether a frozen die holds the place. -/
def State.placeFrozen (s : State) (p : Place) : Bool :=
  match p with
  | .hbm a => s.frozen (dieOfPa a)
  | .ground a => s.frozen (dieOfCore (a / Config.sliceBytes))
  | _ => false

/-- The counts and events of an access that a holder dropped, as `cut` says by byte, or refused (R92, R122); direction 0 read, 1
write. -/
def State.noteBy (s : State) (slot : Nat) (cut : Nat → Bool) (p : Place) (n : Nat) (dir : Nat) : State :=
  let s := if (List.range n).any cut then s.countDrop slot else s
  match p, (List.range n).find? (fun i => !(cut i) && s.refusedAt slot p i) with
  | .hbm a, some i =>
    (s.mapCtx slot fun x => { x with refusals := x.refusals + 1 }).event (dieOfPa (a + i)) 0x54 slot [slot, (a + i) / 0x80000000, dir]
  | _, _ => s

def State.noteAccess (s : State) (slot gen : Nat) (p : Place) (n : Nat) (dir : Nat) : State := s.noteBy slot (s.cutAt slot gen p) p n dir

/-- Byte `i` of a place as an operation of (slot, gen) reads it once it is allowed. -/
def State.byteAt (s : State) (t : Tag) (p : Place) (i : Nat) : Byte :=
  match p with
  | .hbm a => s.hbm.byte false t (a + i)
  | .ground a => s.ground.byte false t (a + i)
  | .host a => Tbl.get 0 s.host (a + i)
  | _ => 0

/-- R114: the bytes that a read returns: zero for a byte that is dropped, refused or not current. -/
def State.bytesOf (s : State) (slot gen : Nat) (p : Place) (n : Nat) : List Byte :=
  (List.range n).map fun i => if s.allowedAt slot gen p i then s.byteAt (tagOf slot gen) p i else 0

/-- R79: whether a read of the owner meets a poisoned current granule. -/
def State.poisonAt (s : State) (slot gen : Nat) (p : Place) (n : Nat) : Bool :=
  let t := tagOf slot gen
  (List.range n).any fun i => s.allowedAt slot gen p i && (match p with
    | .hbm a => let g := s.hbm.gran (a + i); g.current false t && g.poison
    | .ground a => let g := s.ground.gran (a + i); g.current false t && g.poison
    | _ => false)

/-- The cells of a write whose bytes the holders allow. -/
def State.allowedCells (s : State) (slot gen : Nat) (p : Place) (a : Nat) (d : List Byte) : List Host.Cell :=
  (cellsAt a d).filter fun c => s.allowedAt slot gen p (c.1 - a)

/-- R115: a write of bytes at a place. -/
def State.writeAt (s : State) (slot gen : Nat) (p : Place) (d : List Byte) : State :=
  match p with
  | .hbm a => s.hbmWrite slot (tagOf slot gen) (s.allowedCells slot gen p a d)
  | .ground a => { s with ground := s.ground.write false (tagOf slot gen) (s.allowedCells slot gen p a d) }
  | .host a => s.hostWrite a d
  | _ => s

/-- A write performs: what the holder drops or refuses is counted. -/
def State.store (s : State) (slot gen : Nat) (p : Place) (d : List Byte) : State :=
  (s.noteAccess slot gen p d.length 1).writeAt slot gen p d

/-! ### Order of one strand's accesses -/

def Acc.isSync (a : Acc) : Bool := match a.why with | .sync _ _ => true | _ => false
/-- R238: a sync operation that an ordered task has deferred. -/
def Acc.deferred (a : Acc) : Bool := a.isSync && a.task.isSome
/-- R166: SWAIT, SATOM, SCAS and SGET read. -/
def Acc.syncReads (a : Acc) : Bool := match a.why with | .sync o _ => o.op != 0 && o.op != 21 | _ => false
/-- R166: SADD, SATOM, SCAS and SERR update. -/
def Acc.syncUpdates (a : Acc) : Bool := match a.why with | .sync o _ => o.op != 1 && o.op != 22 && o.op != 23 | _ => false
/-- R239: the task that deferred a sync operation. -/
def Acc.lateOf (a : Acc) : Option Nat := match a.why with | .sync o _ => o.late | _ => none
/-- Whether an access writes what its strand stores. -/
def Acc.writes (a : Acc) : Bool := match a.why with | .store => true | .vst => true | .vec st => st | _ => false
/-- Where the bytes of an access lie, with their lengths; of a vector instruction that has not started, the places of its
elements, where its operands give them. -/
def Acc.spots (a : Acc) : List (Place × Nat) :=
  match a.why with
  | .vec store => let l := if store then a.wsegs else a.rsegs; if l.isEmpty then [(.none, 0)] else l
  | .store => [(a.dst, a.n)]
  | .vst => [(a.dst, a.n)]
  | _ => [(a.src, a.n)]

/-- Whether two accesses may touch a common byte; a place not yet known may be any. Log entry 26 (DEDUCED). -/
def Place.meets (p : Place) (n : Nat) (q : Place) (m : Nat) : Bool :=
  let o (a b : Nat) : Bool := decide (a < b + m) && decide (b < a + n)
  match p, q with
  | .hbm a, .hbm b => o a b
  | .ground a, .ground b => o a b
  | .host a, .host b => o a b
  | .peer d a, .peer e b => d == e && o a b
  | .none, _ => true
  | _, .none => true
  | .twin _ _, .hbm _ => true
  | .twin _ _, .ground _ => true
  | .hbm _, .twin _ _ => true
  | .ground _, .twin _ _ => true
  | _, _ => false

/-- R162: whether two classes keep their order. -/
def classKept (x y : Nat) : Bool := x == 15 || y == 15 || (x == y && x != 0)

/-- Whether two accesses may touch a common byte. -/
def Acc.overlaps (b a : Acc) : Bool := b.spots.any fun p => a.spots.any fun q => p.1.meets p.2 q.1 q.2

/-- Whether the earlier access `b` of a strand holds back its later access `a` (R160, R162, R166, R180): a read of a sync variable
holds back all, an update those of class 15 and other sync operations; an update waits for everything of PACKAGE scope or less, a
read for class 15. What a task has deferred holds back only what that task has deferred, and once released the task's direct
writes (R239). Elements of one vector store keep the order of those that overlap, and no other (R356). Log entry 26 (DEDUCED). -/
def Acc.holdsBack (b a : Acc) : Bool :=
  if b.deferred then a.deferred && a.task == b.task
  else if b.isSync then b.syncReads || (!b.done && (a.isSync || a.cls == 15 || (a.writes && a.task.isSome && b.lateOf == a.task)))
  else if b.done then false
  else if b.ord = a.ord then b.writes && b.overlaps a
  else if a.isSync then (a.syncUpdates && decide (b.scope ≤ 2)) || b.cls == 15
  else classKept b.cls a.cls || b.overlaps a

/-- Whether access `a` may perform before anything else of its strand does. -/
def State.mayPerform (s : State) (a : Acc) : Bool :=
  (s.flight.takeWhile (·.id != a.id)).all fun b => b.strand != a.strand || !(b.holdsBack a)

def State.accOf (s : State) (id : Nat) : Option Acc := s.flight.find? (·.id == id)
def State.mapAcc (s : State) (id : Nat) (f : Acc → Acc) : State :=
  { s with flight := s.flight.map fun a => if a.id = id then f a else a }
def State.dropAcc (s : State) (id : Nat) : State := { s with flight := s.flight.filter (·.id != id) }
/-- A new access takes its place in the order of issue. -/
def State.addAcc (s : State) (a : Acc) : State := { s with flight := s.flight ++ [a], nextId := s.nextId + 1 }

/-- An access of strand `n` for instruction `i`, with its identifier, tenancy and instruction. -/
def State.newAcc (s : State) (n : Nat) (i : Instr) (why : Why) (cls : Nat) (t : Target) (ea : W64) (size : Nat) (data : List Byte) : Acc :=
  { id := s.nextId, ord := s.nextId, strand := n, core := coreOf n, slot := s.slotOf n, gen := s.genOf n, why := why, cls := cls, scope := t.scope,
    src := t.place, dst := t.place, n := size, data := data, rsegs := [], wsegs := [], runc := [], wunc := [], task := (s.strand n).task, pc := s.getPc n,
    ins := (encodeWord i).getD 0, ea := ea, done := false, twin := (match t.place with | .twin _ _ => true | _ => false), code := 0 }

/-! ### Requests to peers (R109) -/

def State.station (s : State) (k : Nat) : Station := Tbl.get Station.init s.pkg.stations k
/-- R109: the stations that are up; whether the switch of one reaches a peer. -/
def State.upStations (s : State) : List Nat := (List.range 16).filter fun k => (s.station k).st == 0
def State.reaches (s : State) (dev k : Nat) : Bool := (Tbl.get 0xFFFF s.pkg.routes dev).getLsbD k
/-- R109: the station at the hashed index of the list, or the next of the list whose switch reaches the peer. Log entry 7 (DEDUCED). -/
def State.stationFor (s : State) (dev pa : Nat) : Option Nat :=
  let l := s.upStations
  let i := Config.stationHash dev (bits pa 6 7) % l.length
  (l.drop i ++ l.take i).find? (s.reaches dev)

/-- A request whose answer the device awaits; `false` when no station reaches the peer. -/
def State.sendReq (s : State) (r : PeerReq) (m : Msg) : State × Bool :=
  match s.stationFor r.dev r.pa with
  | none => (s, false)
  | some k =>
    (({ s with nextId := s.nextId + 1 }.mapPkg fun p =>
      { p with peers := p.peers ++ [{ r with id := s.nextId, station := k, sentAt := s.cycle, msg := m }] }).send m, true)
/-- A read or a write of peer memory. -/
def State.askPeer (s : State) (r : PeerReq) : State × Bool := s.sendReq r (.peerReq r.dev r.slot r.pa r.wr r.data r.op r.poison)

/-- R159: the access scope of a place, from core `c`. -/
def Place.scope (p : Place) (c : Nat) : Nat :=
  match p with
  | .none => 0
  | .ground a => groundScope c (a / Config.sliceBytes)
  | .hbm _ => 2
  | .twin _ _ => 2
  | .peer _ _ => 3
  | .cached _ _ => 3
  | .host _ => 4

end Sys2Proof.Machine
end

