-- ==== Sys2Proof/Machine/Fetch.lean ====
section
/-! DEFINITION. Fetching and decoding the next instruction of a strand (R276, R296 steps 1 to 5, R298), and which strands may
issue (R216, R217). -/
namespace Sys2Proof.Machine

/-- What fetching gives: an instruction, a trap, or nothing: `old` where a cut has made the fetch old (R298), `none` where the bytes lie
at a frozen die, which takes no request (R82, R217). -/
inductive Fetched where
  | instr (i : Instr)
  | trap (e : Trap) (ins : W64)
  | old
  | none

/-- R298: what the aligned word at address `a` may hold for a group dispatched in cycle `since`: what it holds, or what a later
write replaced. -/
def State.wordsAt (s : State) (t : Tag) (since a : Nat) : List Nat :=
  ofLe (s.hbm.read false t a 4) :: ((s.past.filter fun p => p.word == a / 4 && decide (since < p.time)).map fun p => if p.gran.current false t then p.v.toNat else 0)
/-- The one that a fetch gets. Log entry 9 (DEDUCED). -/
def State.wordAt (s : State) (t : Tag) (since a : Nat) : Nat :=
  match s.wordsAt t since a with
  | [w] => w
  | l => l.getD (Config.pick (s.free + a) l.length % l.length) 0

/-- R122, R298: whether a word of code lies at a holder that has made its cut. -/
def State.codeOld (s : State) (n x k : Nat) : Bool :=
  let h := s.heapTriple (coreOf n) (s.slotOf n)
  (List.range (k / 4)).any fun i => s.oldAtDie (dieOfPa (h.2.2 + x + 4 * i)) (s.slotOf n) (s.genOf n)

/-- Whether a word of code lies at a frozen die. -/
def State.codeFrozen (s : State) (n x k : Nat) : Bool :=
  let h := s.heapTriple (coreOf n) (s.slotOf n)
  (List.range (k / 4)).any fun i => s.placeFrozen (.hbm (h.2.2 + x + 4 * i))

/-- What the bytes of a fetch give. -/
inductive CodeRead where
  | word (w : Nat)
  | bad (e : Trap)
  | old
  | none

/-- `k` heap bytes at `x`, word by word, under the strand's tag: ACCESS_BOUND beyond HEAP_LIMIT, UNCORRECTABLE for a poisoned current
granule, zeros in a block that the slot does not own (R92). Log entry 128 (DESIGN CHOICE). -/
def State.codeBytes (s : State) (n x k : Nat) : CodeRead :=
  let h := s.heapTriple (coreOf n) (s.slotOf n)
  let t := s.tagOfStrand n
  let since := match s.groupOf n with | some g => g.dispatched | none => 0
  let pa := h.2.2 + x
  if x + k > h.2.1 then .bad ⟨cBound, 0, BitVec.ofNat 64 x⟩
  else if s.codeOld n x k then .old
  else if s.codeFrozen n x k then .none
  else if s.hbm.bad false t pa k then .bad ⟨cUncorrectable, 0, BitVec.ofNat 64 x⟩
  else .word ((List.range (k / 4)).foldl (fun v i =>
    v + (if s.refusedAt (s.slotOf n) (.hbm pa) (4 * i) then 0 else s.wordAt t since (pa + 4 * i)) * 2 ^ (32 * i)) 0)

/-- R278, R285: the bytes of a literal that a base word calls for, by a decoding of the word alone. -/
def litBytes (i : Instr) : Nat := i.len - 8

/-- R296 steps 1 to 5 at the strand's PC; an instruction begins at a multiple of 4 (R276); PC may be poisoned (R81).
Log entries 9 (DEDUCED), 100 (DESIGN CHOICE). -/
def State.fetch (s : State) (n : Nat) : Fetched :=
  let pc := (s.getPc n).toNat
  if (s.strand n).pc.bad (s.tagOfStrand n) then .trap ⟨cUncorrectable, 0, 0⟩ 0
  else if pc % 4 ≠ 0 then .trap ⟨cMisaligned, 0, BitVec.ofNat 64 pc⟩ 0
  else match s.codeBytes n pc 8 with
    | .bad e => .trap e 0
    | .old => .old
    | .none => .none
    | .word w =>
      let bw := BitVec.ofNat 64 w
      match decode bw 0 with
      | .error c => .trap ⟨c, 0, 0⟩ bw
      | .ok i =>
        let k := litBytes i
        if k = 0 then .instr i
        else match s.codeBytes n (pc + 8) k with
          | .bad e => .trap e bw
          | .old => .old
          | .none => .none
          | .word l => match decode bw (BitVec.ofNat 64 l) with
            | .error c => .trap ⟨c, 0, 0⟩ bw
            | .ok i => .instr i

/-- R122, R298: a fetch that a cut has made old is counted, and the strand issues nothing more. -/
def State.oldFetch (s : State) (n : Nat) : State := (s.countDrop (s.slotOf n)).mapStrand n fun x => { x with st := .blocked, stall := 6 }

/-- R217: whether strand `n` may be tried: it is RUNNING or its blocking condition is one that a new try finds out; it has
begun no wait; it is in no DEBUG; its group runs; its YIELD is over; its die and core act, and an image runs (R444). -/
def State.eligible (s : State) (n : Nat) : Bool :=
  let x := s.strand n
  (x.st == .running || x.st == .blocked) && x.stall == 0 && !x.dbg && decide (x.yieldUntil ≤ s.cycle) &&
  !x.atSafe && !(s.frozen (dieOf n)) && !s.noImage && !(s.taskStalled n) &&
  match s.groupOf n with
  | some g => g.st == .running && g.fail.isNone
  | none => false

/-- R216: the strands of a core in the order of the rotation. -/
def rotation (c rot : Nat) : List Nat := (List.range 4).map fun i => 4 * c + (rot + 1 + i) % 4

/-- Whether a core has a strand to try. -/
def State.coreReady (s : State) (c : Nat) : Bool := (List.range 4).any fun i => s.eligible (4 * c + i)

/-- Whether the try of strand `n` ended without an issue. -/
def State.notIssued (s : State) (n : Nat) : Bool := (s.strand n).st == .blocked && (s.strand n).stall == 0

/-- R252: the group of a strand that is about to end its single step has it in DEBUG from now on. -/
def State.noteDebug (s : State) (n : Nat) : State := if (s.strand n).oneStep then s.debugFrom n else s

/-- R216, R257, R329: after an issue the rotation pointer holds the strand, the issue is counted, and a single step ends. -/
def State.issued (s : State) (n : Nat) : State :=
  ((((s.mapCore (coreOf n) fun x => { x with rot := n % 4 }).noteDebug n).countPerf (coreOf n) (s.slotOf n) (s.genOf n) 2 1).touchPerf
      (coreOf n) (s.slotOf n) (s.genOf n)).mapStrand n fun x =>
    { x with fresh := false, oneStep := false, dbg := x.dbg || x.oneStep }

end Sys2Proof.Machine
end

