-- ==== Sys2Proof/Machine/Crypto.lean ====
section
/-! DEFINITION. SHAKE256 and PureEdDSA Ed448 with an empty context, which R443 to R445 name. The spec writes out neither; they are taken from
the standards of these names, FIPS 202 and RFC 8032. Log entry 119 (PRESUMED). -/
namespace Sys2Proof.Machine

/-! ### SHAKE256 (FIPS 202): the state is a number of 1,600 bits, lane x + 5y of it at bit 64 (x + 5y) -/

/-- The rotation of the lane 5y + x. -/
def keccakRho : List Nat :=
  [0, 1, 62, 28, 27, 36, 44, 6, 55, 20, 3, 10, 43, 25, 39, 41, 45, 15, 21, 8, 18, 2, 61, 56, 14]
/-- The constant of each round. -/
def keccakIota : List Nat :=
  [0x0000000000000001, 0x0000000000008082, 0x800000000000808A, 0x8000000080008000, 0x000000000000808B, 0x0000000080000001] ++
  [0x8000000080008081, 0x8000000000008009, 0x000000000000008A, 0x0000000000000088, 0x0000000080008009, 0x000000008000000A] ++
  [0x000000008000808B, 0x800000000000008B, 0x8000000000008089, 0x8000000000008003, 0x8000000000008002, 0x8000000000000080] ++
  [0x000000000000800A, 0x800000008000000A, 0x8000000080008081, 0x8000000000008080, 0x0000000080000001, 0x8000000080008008]

def keccakRot (v n : Nat) : Nat := (v * 2 ^ n + v / 2 ^ (64 - n)) % 2 ^ 64
def keccakLane (a : List Nat) (i : Nat) : Nat := a.getD i 0

/-- Step theta: each lane takes the parity of two columns. -/
def keccakTheta (a : List Nat) : List Nat :=
  let c := (List.range 5).map fun x => (List.range 5).foldl (fun v y => v ^^^ keccakLane a (x + 5 * y)) 0
  let d := (List.range 5).map fun x => keccakLane c ((x + 4) % 5) ^^^ keccakRot (keccakLane c ((x + 1) % 5)) 1
  (List.range 25).map fun i => keccakLane a i ^^^ keccakLane d (i % 5)
/-- Steps rho and pi: lane (x, y) is the rotated lane (x + 3y, x). -/
def keccakPi (a : List Nat) : List Nat :=
  (List.range 25).map fun i =>
    let j := (i % 5 + 3 * (i / 5)) % 5 + 5 * (i % 5)
    keccakRot (keccakLane a j) (keccakLane keccakRho j)
/-- Step chi. -/
def keccakChi (a : List Nat) : List Nat :=
  (List.range 25).map fun i =>
    let at_ (k : Nat) : Nat := keccakLane a ((i % 5 + k) % 5 + i / 5 * 5)
    at_ 0 ^^^ ((2 ^ 64 - 1 - at_ 1) &&& at_ 2)
def keccakRound (a : List Nat) (k : Nat) : List Nat :=
  match keccakChi (keccakPi (keccakTheta a)) with
  | [] => []
  | v :: l => (v ^^^ k) :: l
/-- The permutation of the state. -/
def keccakF (v : Nat) : Nat :=
  (keccakIota.foldl keccakRound ((List.range 25).map fun i => v / 2 ^ (64 * i) % 2 ^ 64)).foldr (fun a n => a + 2 ^ 64 * n) 0

/-- `n` blocks of 136 bytes are taken up. -/
def keccakAbsorb : Nat → Nat → Nat → Nat
  | 0, _, v => v
  | n + 1, m, v => keccakAbsorb n (m / 2 ^ 1088) (keccakF (v ^^^ m % 2 ^ 1088))

/-- The first 136 bytes of SHAKE256 of the `n` bytes of `m`. -/
def shakeOut (n m : Nat) : Nat :=
  let k := n / 136 + 1
  keccakAbsorb k (m % 256 ^ n + 0x1F * 256 ^ n + 0x80 * 256 ^ (136 * k - 1)) 0 % 2 ^ 1088
/-- R443 to R445: the 64-byte SHAKE256 digest of `n` bytes, given as a little-endian number. -/
def shake256 (n m : Nat) : BitVec 512 := BitVec.ofNat 512 (shakeOut n m)

/-! ### Ed448 (RFC 8032): points of x² + y² = 1 + d x² y² modulo p, in projective coordinates -/

def edP : Nat := 2 ^ 448 - 2 ^ 224 - 1
/-- d, which is -39081. -/
def edD : Nat := edP - 39081
/-- The order of the base point. -/
def edL : Nat := 2 ^ 446 - 13818066809895115352007386748515426880336692474882178609894547503885

structure EdPt where
  x : Nat
  y : Nat
  z : Nat
deriving DecidableEq, Repr

def edZero : EdPt := ⟨0, 1, 1⟩
def edBase : EdPt :=
  ⟨224580040295924300187604334099896036246789641632564134246125461686950415467406032909029192869357953282578032075146446173674602635247710,
   298819210078481492676017930443930673437544040154080242095928241372331506189835876003536878655418784733982303233503462500531545062832660, 1⟩

def edMul (a b : Nat) : Nat := a * b % edP
def edAdd (a b : Nat) : Nat := (a + b) % edP
def edSub (a b : Nat) : Nat := (a + (edP - b)) % edP

/-- The sum of two points. -/
def EdPt.add (p q : EdPt) : EdPt :=
  let a := edMul p.z q.z
  let b := edMul a a
  let c := edMul p.x q.x
  let d := edMul p.y q.y
  let e := edMul edD (edMul c d)
  let f := edSub b e
  let g := edAdd b e
  let h := edMul (edAdd p.x p.y) (edAdd q.x q.y)
  ⟨edMul (edMul a f) (edSub (edSub h c) d), edMul (edMul a g) (edSub d c), edMul f g⟩

/-- The point times the low `n` bits of `k`. -/
def EdPt.times (p : EdPt) (k : Nat) : Nat → EdPt
  | 0 => edZero
  | n + 1 =>
    let q := p.times (k / 2) n
    let r := q.add q
    if k % 2 = 1 then r.add p else r

/-- A power modulo p, with an exponent of `n` bits. -/
def edPow (a k : Nat) : Nat → Nat
  | 0 => 1
  | n + 1 =>
    let q := edPow a (k / 2) n
    let r := edMul q q
    if k % 2 = 1 then edMul r a else r

/-- Whether two points are one. -/
def EdPt.same (p q : EdPt) : Bool := edMul p.x q.z == edMul q.x p.z && edMul p.y q.z == edMul q.y p.z
def EdPt.four (p : EdPt) : EdPt :=
  let q := p.add p
  q.add q

/-- The point that 57 bytes encode. -/
def edDecode (v : Nat) : Option EdPt :=
  let y := v % 2 ^ 455
  let sign := v / 2 ^ 455 % 2
  let u := edSub (edMul y y) 1
  let w := edSub (edMul edD (edMul y y)) 1
  let u3w := edMul (edMul u (edMul u u)) w
  let x := edMul u3w (edPow (edMul u3w (edMul (edMul u u) (edMul w w))) ((edP - 3) / 4) 448)
  if y ≥ edP ∨ edMul w (edMul x x) ≠ u ∨ (x = 0 ∧ sign = 1) then none
  else some ⟨if x % 2 = sign then x else edP - x, y, 1⟩

/-- R443: the check of a PureEdDSA Ed448 signature `sig` of `n` bytes `m` by `key`, with an empty context. -/
def ed448 (key sig n m : Nat) : Bool :=
  let r := sig % 256 ^ 57
  let t := sig / 256 ^ 57 % 256 ^ 57
  let key := key % 256 ^ 57
  -- "SigEd448", the flag 0 and the empty context's length
  let dom := 0x3834346445676953
  let k := shakeOut (10 + 57 + 57 + n) (dom + r * 256 ^ 10 + key * 256 ^ 67 + m % 256 ^ n * 256 ^ 124) % 256 ^ 114 % edL
  match edDecode key, edDecode r with
  | some a, some q => decide (t < edL) && (edBase.times t 446).four.same (q.add (a.times k 446)).four
  | _, _ => false

end Sys2Proof.Machine
end

