-- ==== Sys2Proof/Machine/Tile.lean ====
section
/-! DEFINITION. Tile records, packed tiles, their checks, the quantizer, the transpose, the rescaling and the two CRCs
(R140 to R149, R377, R383): plain functions on numbers and bytes. -/
namespace Sys2Proof

/-! ### CRCs (R142, R377) -/

/-- R142: CRC-16/CCITT-FALSE. -/
def crc16 (bs : List Byte) : Nat :=
  bs.foldl (fun c b => forNat 8 (fun _ x => if x < 2 ^ 15 then 2 * x else (2 * x - 2 ^ 16) ^^^ 0x1021) (c ^^^ (b.toNat * 256)))
    0xFFFF

/-- R377: CRC-32C; 0x82F63B78 is its polynomial reflected. -/
def crc32c (bs : List Byte) : Nat :=
  (bs.foldl (fun c b => forNat 8 (fun _ x => if x % 2 = 0 then x / 2 else (x / 2) ^^^ 0x82F63B78) (c ^^^ b.toNat)) 0xFFFFFFFF)
    ^^^ 0xFFFFFFFF

/-! ### Records (R140, R141) -/

/-- R140: the magnitude width of a format code. -/
def sxW (fmt : Nat) : Option Nat := if fmt = 0x31 then some 2 else if fmt = 0x35 then some 4 else if fmt = 0x38 then some 7 else none
def sxCode (w : Nat) : Nat := if w = 2 then 0x31 else if w = 4 then 0x35 else 0x38
def payBytes (w : Nat) : Nat := 32 * (w + 1)
def recBytes (w : Nat) : Nat := payBytes w + 32

/-- A tile record: `pay` is the payload as a number, `z1` and `z2` its RZ fields. -/
structure TRec where
  fmt : Nat
  e : Nat
  rowx : Nat
  colx : Nat
  crc : Nat
  z1 : Nat
  pay : Nat
  z2 : Nat
deriving DecidableEq, Repr

/-- The bytes [a, a + n) of a list. -/
def slice (l : List Byte) (a n : Nat) : List Byte := (l.drop a).take n

/-- R141: read a record of magnitude width `w`. -/
def TRec.ofBytes (w : Nat) (l : List Byte) : TRec :=
  { fmt := ofLe (slice l 0 1), e := ofLe (slice l 1 1), rowx := ofLe (slice l 2 4), colx := ofLe (slice l 6 4),
    crc := ofLe (slice l 10 2), z1 := ofLe (slice l 12 4), pay := ofLe (slice l 16 (payBytes w)),
    z2 := ofLe (slice l (16 + payBytes w) 16) }
def TRec.header (r : TRec) : List Byte :=
  leBytes 1 r.fmt ++ leBytes 1 r.e ++ leBytes 4 r.rowx ++ leBytes 4 r.colx ++ leBytes 2 r.crc
def TRec.toBytes (w : Nat) (r : TRec) : List Byte := r.header ++ leBytes 4 0 ++ leBytes (payBytes w) r.pay ++ leBytes 16 0

/-- Field n = 16i + j. -/
def TRec.field (w : Nat) (r : TRec) (n : Nat) : Nat := bits r.pay (n * (w + 1)) (w + 1)
def packFields (w : Nat) (l : List Nat) : Nat := l.foldr (fun f a => f + 2 ^ (w + 1) * a) 0
/-- The ρ or κ of a word. -/
def micro (x i : Nat) : Nat := bits x (2 * i) 2
def packMicro (l : List Nat) : Nat := l.foldr (fun f a => f + 4 * a) 0

/-- R379: a record that the device writes: its CRC afresh over its payload. -/
def TRec.make (w e rowx colx : Nat) (fields : List Nat) : TRec :=
  let p := packFields w fields
  { fmt := sxCode w, e := e, rowx := rowx, colx := colx, crc := crc16 (leBytes (payBytes w) p), z1 := 0, pay := p, z2 := 0 }

/-- R140: the value of element (i, j). -/
def TRec.val (w : Nat) (r : TRec) (i j : Nat) : FVal :=
  let f := r.field w (16 * i + j)
  let m := f % 2 ^ w
  if r.e = 255 then .nan false
  else if r.e = 0 ∨ m = 0 then .num false 0 0
  else .num (bit f w) m ((r.e : Int) - 127 - (w - 1) + micro r.rowx i + micro r.colx j)

/-- R144. -/
def TRec.transpose (w : Nat) (r : TRec) : TRec :=
  TRec.make w r.e r.colx r.rowx ((List.range 256).map fun n => r.field w (16 * (n % 16) + n / 16))

/-! ### Checks of R148: the smallest subcode, 0 for a good tile -/

def smallest (l : List (Bool × Nat)) : Nat := ((l.filter (·.1)).map (·.2)).headD 0

/-- Whether FMT is no format, or not the expected one (0 any). -/
def badFormat (fmt exp : Nat) : Bool := (sxW fmt).isNone || (exp != 0 && exp != fmt)

/-- A plain record of format `fmt` (R148, R379). -/
def TRec.bad (w : Nat) (r : TRec) : Nat :=
  smallest [(r.z1 != 0 || r.z2 != 0 || ((r.e == 0 || r.e == 255) && (r.rowx != 0 || r.colx != 0 || r.pay != 0)), 6),
    (r.crc != crc16 (leBytes (payBytes w) r.pay), 7)]

/-! ### Packed tiles (R146, R147) -/

/-- R146: the length in sectors. -/
def packedLen (w count : Nat) : Nat := (384 + count * (w + 1) + 255) / 256
/-- COUNT bits [8:0], and the occupancy bitmap, of a packed tile's first 48 bytes. -/
def packedCount (h : List Byte) : Nat := ofLe (slice h 13 2) % 512
def packedOcc (h : List Byte) : Nat := ofLe (slice h 16 32)
def packedFmt (h : List Byte) : Nat := ofLe (slice h 0 1)

/-- R379 stage 1: the first 48 bytes: BAD_KIND, BAD_FORMAT, BAD_COUNT. -/
def packedBad1 (exp : Nat) (h : List Byte) : Nat :=
  let e := ofLe (slice h 1 1)
  let c := packedCount h
  smallest [(ofLe (slice h 12 1) != 1, 1), (badFormat (packedFmt h) exp, 2),
    (decide (c > 256) || c != popc 256 (packedOcc h) || (c != 0 && (e == 0 || e == 255)), 4)]

/-- R147: the fields of the expanded record, in order; `k` counts the occupied ones. -/
def expandFields (w occ elems : Nat) : Nat → Nat → Nat → List Nat
  | 0, _, _ => []
  | r + 1, n, k => if bit occ n then bits elems (k * (w + 1)) (w + 1) :: expandFields w occ elems r (n + 1) (k + 1)
      else 0 :: expandFields w occ elems r (n + 1) k

/-- R147: the record that a packed tile of `32 × LEN` bytes expands to. -/
def expandPacked (w : Nat) (l : List Byte) : TRec :=
  { fmt := packedFmt l, e := ofLe (slice l 1 1), rowx := ofLe (slice l 2 4), colx := ofLe (slice l 6 4), crc := ofLe (slice l 10 2),
    z1 := 0, pay := packFields w (expandFields w (packedOcc l) (ofLe (l.drop 48)) 256 0 0), z2 := 0 }

/-- R148 for the whole of a packed tile that stage 1 passed. -/
def packedBad2 (w : Nat) (l : List Byte) : Nat :=
  let c := packedCount l
  let el := ofLe (l.drop 48)
  let r := expandPacked w l
  smallest [((List.range c).any fun k => bits el (k * (w + 1)) w == 0, 5),
    (ofLe (slice l 13 2) / 512 != 0 || ofLe (slice l 15 1) != 0 || el / 2 ^ (c * (w + 1)) != 0 ||
      ((r.e == 0 || r.e == 255) && (r.rowx != 0 || r.colx != 0 || r.pay != 0)), 6),
    (r.crc != crc16 (leBytes (payBytes w) r.pay), 7)]

/-- R146, R385: the packed tile of a record, with COUNT; a field whose magnitude is 0 is unoccupied. -/
def packRec (w : Nat) (r : TRec) : List Byte × Nat :=
  let fs := (List.range 256).map (r.field w)
  let on (f : Nat) : Bool := f % 2 ^ w != 0
  let occ := fs.foldr (fun f a => (if on f then 1 else 0) + 2 * a) 0
  let el := fs.filter on
  let plain := packFields w (fs.map fun f => if on f then f else 0)
  let len := packedLen w el.length
  ({ r with crc := crc16 (leBytes (payBytes w) plain) }.header ++ leBytes 1 1 ++ leBytes 2 el.length ++ leBytes 1 0 ++ leBytes 32 occ ++
    leBytes (32 * len - 48) (packFields w el), el.length)

/-! ### The quantizer (R149) -/

/-- expo of R149; `none` for a zero or a NaN. -/
def FVal.expo : FVal → Option Int
  | .nan _ => none
  | .inf _ => some 128
  | .num _ m e => if m = 0 then none else some ((bitLen m : Int) - 1 + e)

def maxI (l : List Int) : Option Int := l.foldl (fun o x => match o with | none => some x | some y => some (max x y)) none
/-- clamp(x, 0, 3), and 0 for an empty maximum. -/
def clamp3 (o : Option Int) : Nat := match o with | none => 0 | some x => (min (max x 0) 3).toNat

/-- R149: the record of 256 values, and the flags. -/
def quantize (w : Nat) (xs : List FVal) : TRec × Nat :=
  let x (i j : Nat) : FVal := xs.getD (16 * i + j) (.num false 0 0)
  let ix := List.range 16
  if xs.any (·.isNan) then (TRec.make w 255 0 0 [], fNV)
  else match maxI (xs.filterMap (·.expo)) with
    | none => (TRec.make w 0 0 0 [], 0)
    | some emax =>
      let b := max (emax - 6) (-126)
      let rho := ix.map fun i => clamp3 (maxI (ix.filterMap fun j => ((x i j).expo).map (· - b)))
      let kap := ix.map fun j => clamp3 (maxI (ix.filterMap fun i => ((x i j).expo).map fun e => e - (rho.getD i 0 : Nat) - b))
      let one (n : Nat) : Nat × Bool :=
        let q : Int := b - (w - 1) + (rho.getD (n / 16) 0 : Nat) + (kap.getD (n % 16) 0 : Nat)
        match x (n / 16) (n % 16) with
        | .num s m e =>
          let r := roundAt 0 false m e q
          let m := min r.1 (2 ^ w - 1)
          ((if s && decide (m > 0) then 2 ^ w else 0) + m, r.2 || decide (r.1 > m))
        | v => ((if v.neg? then 2 ^ w else 0) + (2 ^ w - 1), true)
      let fs := (List.range 256).map one
      (TRec.make w (b + 127).toNat (packMicro rho) (packMicro kap) (fs.map (·.1)), if fs.any (·.2) then fNX else 0)

/-! ### Rescaling (R383) -/

def rescale (w : Nat) (r : TRec) (d : Int) : TRec × Nat :=
  let fs := (List.range 256).map (r.field w)
  let e2 : Int := r.e + d
  if r.e = 0 ∨ r.e = 255 then (TRec.make w r.e r.rowx r.colx fs, 0)
  else if 1 ≤ e2 ∧ e2 ≤ 254 then (TRec.make w e2.toNat r.rowx r.colx fs, 0)
  else if e2 > 254 then
    (TRec.make w 254 r.rowx r.colx (fs.map fun f => if f % 2 ^ w > 0 then f / 2 ^ w * 2 ^ w + (2 ^ w - 1) else f), fOF + fNX)
  else
    let sh := min (1 - e2) 16
    let one (f : Nat) : Nat × Bool :=
      let v := roundAt 0 false (f % 2 ^ w) 0 sh
      (if v.1 = 0 then 0 else f / 2 ^ w * 2 ^ w + v.1, v.2)
    (TRec.make w 1 r.rowx r.colx (fs.map fun f => (one f).1), if fs.any (fun f => (one f).2) then fUF + fNX else 0)

end Sys2Proof
end

