-- ==== Sys2Proof/Machine/PegBob.lean ====
section
/-! DEFINITION. Pegs and bobbins (R167, R198, R409 to R414). -/
namespace Sys2Proof.Machine

/-- R411: a count operand: 0 stands for 1. -/
def countOf (v : W64) : Nat := if v = 0 then 1 else v.toNat

/-- Steps 8 and 9 that every peg and bobbin instruction makes: not in a task (R421), an object of the group (R198). -/
def State.objOk (s : State) (n : Nat) (bob : Bool) (ix : Nat) : Chk Unit :=
  if s.inTask n then trapOf cSpecIllegal
  else need (if bob then s.bobOk n ix else s.pegOk n ix) cOperand

/-- R167, R180: a release at CORE scope waits until every earlier access of the strand has performed and every earlier read of a
sync variable has returned. -/
def State.released (s : State) (n : Nat) : Bool :=
  s.flight.all fun a => a.strand != n || (if a.isSync then a.deferred || !a.syncReads else a.done)
/-- R180, R181: an acquire at CORE scope waits for earlier accesses of class 15 and earlier reads of sync variables. -/
def State.acquires (s : State) (n : Nat) : Bool :=
  s.flight.all fun a => a.strand != n || (if a.isSync then a.deferred || !a.syncReads else a.done || a.cls != 15)

/-- Whether an operation of the owner meets poison in its object (R81). -/
def State.objPoison (s : State) (n : Nat) (bob : Bool) (ix : Nat) : Bool := s.objBad (coreOf n) (s.tagOfStrand n) bob ix

/-- R409: the deadline of a timeout of `v` cycles; 0 is none. -/
def deadlineOf (cycle : Nat) (v : W64) : Option Nat := if v = 0 then none else some (cycle + v.toNat)

/-- R217, R218: a wait reaches its object: it ends at once by the latch or the condition, or joins the waiters. -/
def State.beginWait (s : State) (n : Nat) (w : Waiter) : State :=
  let c := coreOf n
  match waitOutcome (s.core c) w with
  | some (code, v, x) => (s.mapStrand n fun y => { y with st := .blocked }).release c w code v x
  | none => (s.mapCore c fun x => { x with waiters := x.waiters ++ [w] }).mapStrand n fun y => { y with st := .blocked, stall := 1 }

/-- A wait of strand `n` as a waiter. -/
def State.waiter (s : State) (n : Nat) (i : Instr) (bob : Bool) (ix kind : Nat) (cnt tmo : W64) (d : Nat) : Waiter :=
  { who := some n, bob := bob, ix := ix, kind := kind, n := cnt, d := d, len := i.len, tag := s.tagOfStrand n,
    deadline := deadlineOf s.cycle tmo }

/-- The result of a wait instruction after its own checks: a count limit, a timeout below 2^48, poison, the wait itself. -/
def State.waitRes (s : State) (n : Nat) (i : Instr) (bob : Bool) (ix kind : Nat) (cnt tmo : W64) (d : Nat) (ok : Bool) : Res :=
  match s.objOk n bob ix with
  | .error e => .trap e
  | .ok _ =>
    if ok = false ∨ tmo.toNat ≥ 2 ^ 48 then .trap ⟨cOperand, 0, 0⟩
    else if s.objPoison n bob ix then .trap ⟨cUncorrectable, 0, 0⟩
    else if s.acquires n = false then .wait s
    else .done (s.beginWait n (s.waiter n i bob ix kind cnt tmo d))

/-! ### Pegs -/

/-- PEG.POST (R411): a release at CORE scope. -/
def execPegPost (f : FY) (s : State) : Out :=
  let n := s.cur
  let a := countOf (s.opd n f.a)
  s.issue (.pegPost f) f.pr (opdRegs [f.a]) [] (
    match s.objOk n false f.ix.toNat with
    | .error e => .trap e
    | .ok _ =>
      if a > 2 ^ 32 - 1 then .trap ⟨cOperand, 0, 0⟩
      else if s.objPoison n false f.ix.toNat then .trap ⟨cUncorrectable, 0, 0⟩
      else if s.released n = false then .wait s
      else .done ((s.adv n (.pegPost f)).pegPost (coreOf n) (s.tagOfStrand n) f.ix.toNat a))

/-- PEG.WAIT (R411): takes nothing. -/
def execPegWait (f : FY) (s : State) : Out :=
  let n := s.cur
  let a := countOf (s.opd n f.a)
  s.issue (.pegWait f) f.pr (opdRegs [f.a, f.b]) [f.d.dest] (
    s.waitRes n (.pegWait f) false f.ix.toNat 0 (BitVec.ofNat 64 a) (s.opd n f.b) f.d.dest (decide (a ≤ 2 ^ 32 - 1)))

/-- PEG.TAKE (R411). -/
def execPegTake (f : FY) (s : State) : Out :=
  let n := s.cur
  let a := countOf (s.opd n f.a)
  s.issue (.pegTake f) f.pr (opdRegs [f.a, f.b]) [f.d.dest] (
    s.waitRes n (.pegTake f) false f.ix.toNat 1 (BitVec.ofNat 64 a) (s.opd n f.b) f.d.dest (decide (a ≤ 2 ^ 32 - 1)))

/-- R411: the field of a peg that PEG.RD returns. -/
def pegField (m : Nat) (p : Peg) : W64 :=
  match m with
  | 0 => p.posted
  | 1 => p.taken
  | 2 => p.latch.setWidth 64
  | _ => p.posted - p.taken

/-- A read of an object into D: not a wait and not an acquire. -/
def State.objRead (s : State) (n : Nat) (i : Instr) (bob : Bool) (ix d : Nat) (v : W64) : Res :=
  match s.objOk n bob ix with
  | .error e => .trap e
  | .ok _ =>
    if s.objPoison n bob ix then .trap ⟨cUncorrectable, 0, 0⟩
    else .done ((s.setS n d v).adv n i)

/-- PEG.RD (R411). -/
def execPegRd (f : FY) (s : State) : Out :=
  let n := s.cur
  s.issue (.pegRd f) f.pr [] [f.d.dest] (
    s.objRead n (.pegRd f) false f.ix.toNat f.d.dest
      (pegField f.m.toNat ((s.core (coreOf n)).peg (s.tagOfStrand n) f.ix.toNat)))

/-- R295: a code that an operand may supply to a latch. -/
def latchCode (v : W64) : Bool := decide (v.toNat ∈ definedCodes)

/-- PEG.ERR (R411). -/
def execPegErr (f : FY) (s : State) : Out :=
  let n := s.cur
  let a := s.opd n f.a
  s.issue (.pegErr f) f.pr (opdRegs [f.a]) [] (
    match s.objOk n false f.ix.toNat with
    | .error e => .trap e
    | .ok _ =>
      if latchCode a = false then .trap ⟨cOperand, 0, 0⟩
      else if s.objPoison n false f.ix.toNat then .trap ⟨cUncorrectable, 0, 0⟩
      else .done ((s.adv n (.pegErr f)).pegLatch (coreOf n) (s.tagOfStrand n) f.ix.toNat (a.setWidth 8)))

/-! ### Bobbins -/

def State.bob (s : State) (n ix : Nat) : Bob := (s.core (coreOf n)).bob (s.tagOfStrand n) ix

/-- R62: whether a geometry satisfies its limits within an allotment. -/
def geomOk (spad : Nat × Nat) (base size count : Nat) : Bool :=
  base % 64 == 0 && decide (1 ≤ size) && decide (size ≤ 4096) && decide (1 ≤ count) && decide (count ≤ 4096) &&
  decide (spad.1 ≤ base) && decide (base + 64 * size * count ≤ spad.1 + spad.2)

/-- BB.SET (R413). -/
def execBbSet (f : FY) (s : State) : Out :=
  let n := s.cur
  let a := (s.opd n f.a).toNat
  let ix := f.ix.toNat
  let b := s.bob n ix
  s.issue (.bbSet f) f.pr (opdRegs [f.a]) [] (
    match s.objOk n true ix with
    | .error e => .trap e
    | .ok _ =>
      if bits a 56 8 ≠ 0 then .trap ⟨cEncoding, 0, 0⟩
      else if geomOk (s.spadOf n) (bits a 0 24) (bits a 24 16) (bits a 40 16) = false ∨ b.claimed ≠ b.freed then .trap ⟨cOperand, 0, 0⟩
      else if s.objPoison n true ix then .trap ⟨cUncorrectable, 0, 0⟩
      else
        let s' := s.mapCore (coreOf n) fun x => x.setBob (s.tagOfStrand n) ix fun y =>
          { y with base := BitVec.ofNat 24 a, size := BitVec.ofNat 16 (a / 2 ^ 24), count := BitVec.ofNat 16 (a / 2 ^ 40) }
        .done ((s'.adv n (.bbSet f)).serve (coreOf n)))

/-- BB.CLAIM (R414). -/
def execBbClaim (f : FY) (s : State) : Out :=
  let n := s.cur
  let a := countOf (s.opd n f.a)
  s.issue (.bbClaim f) f.pr (opdRegs [f.a, f.b]) [f.d.dest] (
    s.waitRes n (.bbClaim f) true f.ix.toNat 2 (BitVec.ofNat 64 a) (s.opd n f.b) f.d.dest
      (decide (a ≤ 2 ^ 32 - 1) && decide (a ≤ (s.bob n f.ix.toNat).count.toNat)))

/-- BB.FILL and BB.FREE: a release at CORE scope; the count limit, and the counter that may not be passed. -/
def State.bobUpdate (s : State) (n : Nat) (i : Instr) (ix a : Nat) (ok : Bool) (g : Bob → Bob) : Res :=
  match s.objOk n true ix with
  | .error e => .trap e
  | .ok _ =>
    if a > 2 ^ 32 - 1 ∨ a > (s.bob n ix).count.toNat ∨ ok = false then .trap ⟨cOperand, 0, 0⟩
    else if s.objPoison n true ix then .trap ⟨cUncorrectable, 0, 0⟩
    else if s.released n = false then .wait s
    else .done (((s.adv n i).mapCore (coreOf n) fun x => x.setBob (s.tagOfStrand n) ix g).serve (coreOf n))

/-- BB.FILL (R414). -/
def execBbFill (f : FY) (s : State) : Out :=
  let n := s.cur
  let a := countOf (s.opd n f.a)
  let b := s.bob n f.ix.toNat
  s.issue (.bbFill f) f.pr (opdRegs [f.a]) [] (
    s.bobUpdate n (.bbFill f) f.ix.toNat a (decide (b.filled.toNat + a ≤ b.claimed.toNat)) fun y =>
      { y with filled := y.filled + BitVec.ofNat 64 a })

/-- BB.TAKE (R414): takes nothing, returns slot(freed). -/
def execBbTake (f : FY) (s : State) : Out :=
  let n := s.cur
  let a := countOf (s.opd n f.a)
  s.issue (.bbTake f) f.pr (opdRegs [f.a, f.b]) [f.d.dest] (
    s.waitRes n (.bbTake f) true f.ix.toNat 3 (BitVec.ofNat 64 a) (s.opd n f.b) f.d.dest
      (decide (a ≤ 2 ^ 32 - 1) && decide (a ≤ (s.bob n f.ix.toNat).count.toNat)))

/-- BB.TAKE.at (R414): A is a counter value. -/
def execBbTakeAt (f : FY) (s : State) : Out :=
  let n := s.cur
  let a := s.opd n f.a
  s.issue (.bbTakeAt f) f.pr (opdRegs [f.a, f.b]) [f.d.dest] (
    s.waitRes n (.bbTakeAt f) true f.ix.toNat 4 a (s.opd n f.b) f.d.dest
      (decide ((s.bob n f.ix.toNat).freed.toNat ≤ a.toNat)))

/-- BB.FREE (R414). -/
def execBbFree (f : FY) (s : State) : Out :=
  let n := s.cur
  let a := countOf (s.opd n f.a)
  let b := s.bob n f.ix.toNat
  s.issue (.bbFree f) f.pr (opdRegs [f.a]) [] (
    s.bobUpdate n (.bbFree f) f.ix.toNat a (decide (b.freed.toNat + a ≤ b.filled.toNat)) fun y =>
      { y with freed := y.freed + BitVec.ofNat 64 a })

/-- BB.WAITF (R414). -/
def execBbWaitf (f : FY) (s : State) : Out :=
  let n := s.cur
  s.issue (.bbWaitf f) f.pr (opdRegs [f.a, f.b]) [f.d.dest] (
    s.waitRes n (.bbWaitf f) true f.ix.toNat 5 (s.opd n f.a) (s.opd n f.b) f.d.dest true)

/-- BB.WAITE (R414). -/
def execBbWaite (f : FY) (s : State) : Out :=
  let n := s.cur
  s.issue (.bbWaite f) f.pr (opdRegs [f.a, f.b]) [f.d.dest] (
    s.waitRes n (.bbWaite f) true f.ix.toNat 6 (s.opd n f.a) (s.opd n f.b) f.d.dest true)

/-- R413, R414: the field of a bobbin that BB.RD returns. -/
def bobField (m : Nat) (b : Bob) : W64 :=
  match m with
  | 0 => b.claimed
  | 1 => b.filled
  | 2 => b.freed
  | 3 => b.latch.setWidth 64
  | _ => BitVec.ofNat 64 (b.base.toNat + b.size.toNat * 2 ^ 24 + b.count.toNat * 2 ^ 40)

/-- BB.RD (R414). -/
def execBbRd (f : FY) (s : State) : Out :=
  let n := s.cur
  s.issue (.bbRd f) f.pr [] [f.d.dest] (
    s.objRead n (.bbRd f) true f.ix.toNat f.d.dest (bobField f.m.toNat (s.bob n f.ix.toNat)))

/-- WAIT_TIMEOUT (R409) at a core: the waits whose time is over end with WATCHDOG. -/
def State.expireCore (s : State) (c n : Nat) : State :=
  match (s.core c).waiters.find? (fun w => w.who == some n && (match w.deadline with | some t => decide (t ≤ s.cycle) | none => false)) with
  | none => s
  | some w =>
    let s := s.mapCore c fun x => { x with waiters := x.waiters.filter (· != w) }
    s.endWait n w.d w.len w.tag (waitFail w cWatchdog)

/-- A SWAIT whose time is over ends with WATCHDOG (R409, R416). -/
def State.expireSync (s : State) (d n : Nat) : State :=
  match (s.die d).syncWaits.find? (fun w => w.strand == n && (match w.deadline with | some t => decide (t ≤ s.cycle) | none => false)) with
  | none => s
  | some w => (s.mapDie d fun x => { x with syncWaits := x.syncWaits.filter (· != w) }).endSwait w cWatchdog

/-- WAIT_TIMEOUT (R409): the expired waits of a strand, at its core and at each sync engine. -/
def execWaitTimeout (strand : Nat) (s : State) : Out :=
  .next ((List.range 4).foldl (fun s d => s.expireSync d strand) (s.expireCore (coreOf strand) strand))

/-- YIELD_EXPIRY (R318): the strand may issue again. -/
def execYieldExpiry (strand : Nat) (s : State) : Out :=
  .next (if (s.strand strand).yieldUntil ≤ s.cycle then s.mapStrand strand fun x => { x with yieldUntil := 0 } else s)

end Sys2Proof.Machine
end

