-- ==== Sys2Proof/Machine/Task.lean ====
section
/-! DEFINITION. Ordered tasks (R214, R215, R233 to R241, R418 to R421): the pillow, reader marks, conflicts, commit, and the
task instructions. -/
namespace Sys2Proof.Machine

/-! ### The pillow (R238) -/

/-- R235: bytes with those that task `seq` has buffered on core `c` put over them. Log entry 28 (DEDUCED). -/
def State.overlay (s : State) (c seq : Nat) (p : Place) (d : List Byte) : List Byte :=
  let go (g : Bool) (a : Nat) : List Byte :=
    d.mapIdx fun i b =>
      match (s.core c).pillow.find? (fun e => e.task == seq && e.ground == g && e.gran == (a + i) / 64 && !e.isArgs) with
      | some e => (find e.data ((a + i) % 64)).getD b
      | none => b
  match p with
  | .hbm a => go false a
  | .ground a => go true a
  | _ => d

/-- Whether the task holds granule `g`. -/
def Core.holdsGran (x : Core) (seq : Nat) (ground : Bool) (g : Nat) : Bool :=
  x.pillow.any fun e => e.task == seq && e.ground == ground && e.gran == g && !e.isArgs

/-- Buffer one byte. -/
def Core.buffer (x : Core) (seq slot gen : Nat) (ground : Bool) (a : Nat) (b : Byte) : Core :=
  if x.holdsGran seq ground (a / 64) then
    { x with pillow := x.pillow.map fun e =>
        if e.task = seq ∧ e.ground = ground ∧ e.gran = a / 64 ∧ ¬e.isArgs then { e with data := Tbl.ins e.data (a % 64) b } else e }
  else { x with pillow := x.pillow ++ [⟨seq, ground, a / 64, [(a % 64, b)], slot, gen, false⟩] }

/-- Buffer bytes from `a`. -/
def Core.bufferAll (x : Core) (seq slot gen : Nat) (ground : Bool) : Nat → List Byte → Core
  | _, [] => x
  | a, b :: t => Core.bufferAll (x.buffer seq slot gen ground a b) seq slot gen ground (a + 1) t

/-- R238: whether the pillow of core `c` has room for the new granules of a write. -/
def State.pillowRoom (s : State) (c seq : Nat) (ground : Bool) (gs : List Nat) : Bool :=
  let x := s.core c
  decide (x.pillow.length + (gs.filter fun g => !(x.holdsGran seq ground g)).length ≤ 512)

/-! ### Marks, restart, conflict (R68, R234 to R236) -/

/-- R235: the reader mark of pool index `q` on sector `g`. -/
def Marks.add (m : Marks) (q : Nat) : Marks :=
  if m.m0 = some q ∨ m.m1 = some q then m
  else if m.m0.isNone then { m with m0 := some q }
  else if m.m1.isNone then { m with m1 := some q }
  else { m with more := true }

/-- Log entry 29 (DEDUCED). -/
def State.markRead (s : State) (d q : Nat) (gs : List Nat) : State :=
  s.mapDie d fun x => { x with marks := gs.foldl (fun t g => Tbl.upd Marks.none t g (·.add q)) x.marks }

/-- Whether a task counts as a reader of granule `g`. Log entry 29 (DEDUCED). -/
def Die.reads (x : Die) (t : Task) (g : Nat) : Bool :=
  match t.pool with
  | none => false
  | some q => let m := Tbl.get Marks.none x.marks g; m.m0 == some q || m.m1 == some q || m.more

/-- R234: a restarted task gives up what it did and is READY again; its children go. Log entry 90 (DEDUCED). -/
def State.restartTask (s : State) (d : Nat) (t : Task) : State :=
  let s := (s.shedTask d t).countRan t
  let s := ((s.die d).tasks.filter (·.parent == some t.seq)).foldl (fun s k => s.removeTask d k.seq) s
  s.mapTask d t.seq fun t => { t with st := .ready, pool := none, strand := none, gid := none, ran := none, nonspec := false }

/-- R236: the write of task `w` to granules of device memory restarts later readers. Log entry 90 (DEDUCED). -/
def State.conflict (s : State) (d : Nat) (w : Task) (gs : List Nat) : State :=
  let rs := (s.die d).tasks.filter fun r => r.slot == w.slot && keyLt w r && gs.any ((s.die d).reads r)
  rs.foldl (fun s r =>
    match (s.die d).task r.seq with
    | some r => if (s.die d).isOldest r then s else s.restartTask d r
    | none => s) s

/-- R235: whether an uncommitted task with a smaller key holds a buffered write to the granule. -/
def State.earlierWriter (s : State) (d : Nat) (t : Task) (g : Nat) : Bool :=
  (s.die d).tasks.any fun u => u.slot == t.slot && keyLt u t &&
    (List.range 48).any fun i => (s.core (d * 48 + i)).holdsGran u.seq false g

/-! ### Commit and going on (R177, R239, R240) -/

/-- R61: whether a remote slice still admits the slot; the own core's always does. -/
def State.remoteOk (s : State) (slot own : Nat) (p : Place) : Bool :=
  match p with
  | .ground a => a / Config.sliceBytes == own || s.maskBit slot (a / Config.sliceBytes)
  | _ => true

/-- R61: a refused remote access is counted and reported. -/
def State.remoteRefused (s : State) (slot own : Nat) (p : Place) (dir : Nat) : State :=
  match p with
  | .ground a =>
    let c := a / Config.sliceBytes
    (s.mapCtx slot fun x => { x with refusals := x.refusals + 1 }).event (dieOfCore c) 0x5F slot [slot, own, c, dir]
  | _ => s

/-- R177: a buffered granule of core `c` as a write that each die sees when it performs: its bytes by place in the granule. -/
def Pillow.commit (e : Pillow) (d c id : Nat) : Acc :=
  let p : Place := if e.ground then .ground (e.gran * 64) else .hbm (e.gran * 64)
  { id := id, ord := id, strand := 1001, core := c, slot := e.slot, gen := e.gen, why := .commit d, cls := 0, scope := 2, src := p, dst := p, n := 64,
    data := e.data.map (·.2), rsegs := [], wsegs := e.data.map fun b => (p, b.1), runc := [], wunc := [], task := none, pc := 0, ins := 0, ea := 0,
    done := false, twin := false, code := 0 }

/-- R72: a deferred operation as the commit unit of die `d` sends it: the unit's own cut decides the window, its bound and where the
variable lies. Log entry 108 (DESIGN CHOICE). -/
def State.sendLate (s : State) (d : Nat) (a : Acc) : Option Acc :=
  match a.why with
  | .sync o x =>
    let w := s.syncWindow (192 + d) a.slot
    if o.off + 8 ≤ w.1 then some { a with why := .sync { o with win := w } x, task := none } else none
  | _ => some a

/-- R177, R240: all that a task has buffered is committed, granule by granule; the commit unit has the accesses in flight until they
perform. Its deferred sync operations may perform, in program order. Log entry 95 (DEDUCED). -/
def State.flushTask (s : State) (d seq : Nat) : State :=
  let s := (List.range 48).foldl (fun s i =>
    let c := d * 48 + i
    let mine := (s.core c).pillow.filter fun e => e.task == seq && !e.isArgs
    (mine.foldl (fun s e => s.addAcc (e.commit d c s.nextId)) s).mapCore c fun x => x.dropPillow seq) s
  { s with flight := s.flight.filterMap fun a => if a.task = some seq ∧ dieOf a.strand = d ∧ a.isSync then s.sendLate d a else some a }

/-- R239: the oldest task goes on without speculation; its strand issues again once its deferred sync operations have performed. -/
def State.goOn (s : State) (d seq : Nat) : State :=
  let s := (s.flushTask d seq).mapTask d seq fun t => { t with st := .running, nonspec := true }
  match (s.die d).task seq with
  | some t => match t.strand with
    | some n => s.mapStrand n fun x => { x with st := if x.st = .blocked then .running else x.st }
    | none => s
  | none => s

/-- R240: the oldest task commits; its children live on, and its marks and pool index are freed. -/
def State.commitTask (s : State) (d : Nat) (t : Task) : State :=
  let s := s.flushTask d t.seq
  let orphan (u : Task) : Task := if u.parent = some t.seq then { u with parent := none } else u
  let s := s.mapDie d fun x => { x with tasks := (x.tasks.filter (·.seq != t.seq)).map orphan }
  (s.mapDie d fun x => x.clearMarks t.seq t.pool).settleTasks d t.slot

/-- The running task of strand `n`. -/
def State.taskOf (s : State) (n : Nat) : Option Task :=
  match (s.strand n).task with
  | some seq => (s.die (dieOf n)).task seq
  | none => none

/-- R234, R239: a write or a spawn that needs granules `gs` of the pillow: there is room, or the task is non-speculative, or it must
be tried again: the oldest goes on first, another task is STALLED. -/
inductive Room where
  | room (s : State)
  | direct (s : State)
  | stalled (s : State)

def State.wantPillow (s : State) (n : Nat) (t : Task) (ground : Bool) (gs : List Nat) : Room :=
  let d := dieOf n
  if t.nonspec then .direct s
  else if s.pillowRoom (coreOf n) t.seq ground gs then .room s
  else if (s.die d).isOldest t then .stalled (s.goOn d t.seq)
  else .stalled (s.mapTask d t.seq fun t => { t with st := .stalled })

/-! ### The task instructions -/

/-- R233, R418: a new task on die `d`. -/
def State.spawn (s : State) (n : Nat) (ts entry a0 a1 : W64) (parent : Option Nat) : State × Nat :=
  let d := dieOf n
  let seq := (s.die d).nextSeq
  let t : Task :=
    { seq := seq, ts := ts, slot := s.slotOf n, gen := s.genOf n, entry := entry, arg0 := a0, arg1 := a1, parent := parent,
      st := .ready, pool := none, strand := none, gid := none, ran := none, nonspec := false, deferred := [], fault := none }
  (s.mapDie d fun x => { x with tasks := x.tasks ++ [t], nextSeq := (seq + 1) % 2 ^ 48 }, seq)

/-- TSPAWN (R233, R418). -/
def execTspawn (f : FY) (s : State) : Out :=
  let n := s.cur
  let d := dieOf n
  let i : Instr := .tspawn f
  let ts := s.opd n f.a
  let e := s.opd n f.b
  let k := f.ix.toNat
  let a0 := if k = 0 then 0 else s.opd n (.reg (BitVec.ofNat 6 k))
  let a1 := if k = 0 then 0 else s.opd n (.reg (BitVec.ofNat 6 (k + 1)))
  let fin (s : State) (parent : Option Nat) (buffer : Bool) : State :=
    let r := s.spawn n ts e a0 a1 parent
    let s := if buffer then
        r.1.mapCore (coreOf n) fun x => { x with pillow := x.pillow ++
          [⟨parent.getD 0, false, r.2, [], s.slotOf n, s.genOf n, true⟩] }
      else r.1
    (s.setS n f.d.dest (BitVec.ofNat 64 (r.2 * 256))).adv n i
  s.issue i f.pr (opdRegs [f.a, f.b] ++ if k = 0 then [] else [k, k + 1]) [f.d.dest] (
    if e.toNat % 4 ≠ 0 ∨ e.toNat ≥ 2 ^ 40 ∨ k ≥ 63 then .trap ⟨cOperand, 0, 0⟩
    else if (s.taskOf n).any fun t => decide (ts.toNat < t.ts.toNat) then .trap ⟨cOperand, 0, 0⟩
    else if ((s.die d).tasks.filter (·.st == .ready)).length ≥ 4096 then
      .done ((s.setS n f.d.dest (cFull.setWidth 64)).adv n i)
    else match s.taskOf n with
      | none => .done (fin s none false)
      | some t => match s.wantPillow n t false [2 ^ 64] with
        | .room s => .done (fin s (some t.seq) true)
        | .direct s => .done (fin s (some t.seq) false)
        | .stalled s => .wait s)

/-- Whether engine instructions or loads of strand `n` are outstanding. Log entry 30 (DEDUCED). -/
def State.strandBusy (s : State) (n : Nat) : Bool :=
  let c := s.core (coreOf n)
  (c.vq ++ c.mq).any (·.strand == n) || s.flight.any fun a => a.strand == n && (match a.why with | .sync _ d => d != 0 | _ => true)

/-- TEND (R234, R239, R419): the task is FINISHED once its loads and engine instructions have ended; a non-speculative one
commits at once. Log entry 30 (DEDUCED). -/
def execTend (f : FY) (s : State) : Out :=
  let n := s.cur
  let d := dieOf n
  s.issue (.tend f) f.pr [] [] (
    match s.taskOf n with
    | none => .trap ⟨cOperand, 0, 0⟩
    | some t =>
      if s.strandBusy n then .wait s
      else
        let s := ((s.adv n (.tend f)).taskWait n).mapTask d t.seq fun t => { t with st := .finished, strand := none }
        .done (if t.nonspec then s.commitTask d t else s))

/-- TABORT (R234, R419). -/
def execTabort (f : FY) (s : State) : Out :=
  let n := s.cur
  let d := dieOf n
  s.issue (.tabort f) f.pr [] [] (
    match s.taskOf n with
    | none => .trap ⟨cOperand, 0, 0⟩
    | some t => .done (((s.adv n (.tabort f)).removeTask d t.seq).settleTasks d t.slot))

/-- CFR (R241, R420). Log entry 30 (DEDUCED). -/
def execCfr (f : FY) (s : State) : Out :=
  let n := s.cur
  let d := dieOf n
  let k := s.slotOf n
  s.issue (.cfr f) f.pr [] [f.d.dest, f.a.dest] (
    .done (((s.setS n f.d.dest (s.cfrTs d k)).setS n f.a.dest (s.cfrSeq d k)).adv n (.cfr f)))

/-- R186: the strand index in the group: by the core's place among the group's, and the strand's on its core. -/
def Group.strandIndex (g : Group) (n : Nat) : Nat := 4 * g.cores.findIdx (· == coreOf n) + n % 4

/-- R420: the values of TID. -/
def State.tidValue (s : State) (n m : Nat) : W64 :=
  match m with
  | 0 => match s.groupOf n with
    | some g => BitVec.ofNat 64 (g.idx % 2 ^ 24 + g.strandIndex n % 1024 * 2 ^ 24)
    | none => 0
  | 1 => match s.taskOf n with | some t => t.ts | none => BitVec.allOnes 64
  | _ => match s.taskOf n with | some t => BitVec.ofNat 64 t.seq | none => BitVec.allOnes 64

/-- TID (R420). -/
def execTid (f : FY) (s : State) : Out :=
  let n := s.cur
  s.issue (.tid f) f.pr [] [f.d.dest] (.done ((s.setS n f.d.dest (s.tidValue n f.m.toNat)).adv n (.tid f)))

/-- NARG (R194, R420). -/
def execNarg (f : FY) (s : State) : Out :=
  let n := s.cur
  let a := (s.opd n f.a).toNat
  s.issue (.narg f) f.pr (opdRegs [f.a]) [f.d.dest] (
    if a > 7 then .trap ⟨cOperand, 0, 0⟩
    else .done ((s.setS n f.d.dest (match s.groupOf n with | some g => g.w (8 + a) | none => 0)).adv n (.narg f)))

/-! ### The steps of the task unit -/

/-- R215: the ready task of a slot on a die with the smallest key. -/
def Die.readyTask (x : Die) (slot : Nat) : Option Task :=
  (x.tasks.filter fun t => t.slot == slot && t.st == .ready).foldl
    (fun o t => match o with | none => some t | some u => if keyLt t u then some t else some u) none

/-- R212, R249, R257: whether a group leaves its strands on core `c` at work: no pre-emption has been chosen there, or what was chosen
waits for a strand in DEBUG. -/
def Group.atWork (g : Group) (c : Nat) : Bool :=
  let k := Tbl.get 0 g.choice c
  g.pre.isNone || k == 0 || (g.dbgSince.isSome && (k == 1 || k == 4))

/-- R430: the strand in TASKWAIT of a serving group of the slot that takes the next task. Log entry 31 (DEDUCED). -/
def State.servingStrand (s : State) (d slot : Nat) : Option Nat :=
  (s.strands.find? fun e => dieOf e.1 == d && e.2.st == .taskwait && !e.2.dbg &&
    (match s.groupOf e.1 with
      | some g => g.slot == slot && g.serves && g.st == .running && g.fail.isNone && g.atWork (coreOf e.1)
      | none => false)).map (·.1)

/-- R234: the lowest pool index that is free. -/
def Die.freePool (x : Die) : Option Nat := firstBelow 256 fun q => x.tasks.all (·.pool != some q)

/-- TASK_START (R215, R234, R418, R430). -/
def execTaskStart (die slot : Nat) (s : State) : Out :=
  .next (match (s.die die).readyTask slot, s.servingStrand die slot, (s.die die).freePool with
    | some t, some n, some q =>
      let g := tagOf t.slot t.gen
      let s := s.mapTask die t.seq fun t => { t with st := .running, pool := some q, strand := some n, gid := (s.strand n).grp, ran := some (coreOf n) }
      s.mapStrand n fun x =>
        { (((x.setS g 1 t.arg0).setS g 2 t.arg1).setPc g t.entry) with st := .running, task := some t.seq, atSafe := false, fresh := false }
    | _, _, _ => s)

/-- TASK_COMMIT (R237, R239, R240): the oldest task commits when FINISHED, goes on when STALLED, and delivers its fault when
FAULTED. -/
def execTaskCommit (die slot : Nat) (s : State) : Out :=
  .next (match (s.die die).oldest slot with
    | none => s
    | some t => match t.st with
      | .finished => s.commitTask die t
      | .stalled => s.goOn die t.seq
      | .faulted => s.deliverFault die t
      | _ => s)

end Sys2Proof.Machine
end

