-- ==== Sys2Proof/Machine/Bay.lean ====
section
/-! DEFINITION. The bay caches at work (R65 to R68, R88, R92, R122, R123): hits, misses, allocation, replacement and write-back of
sectors of device memory and of peers; the accesses that a core makes through its bay; the writes of committed tasks (R177). -/
namespace Sys2Proof.Machine

/-! ### Replacement (R65, R68) -/

def setBit (t k : Nat) (v : Bool) : Nat := if bit t k = v then t else t ^^^ 2 ^ k
/-- The tree after a use of way `w`: each node on its path points to the other side. -/
def plruTouch : Nat → Nat → Nat → Nat → Nat
  | 0, _, _, t => t
  | f + 1, node, w, t => plruTouch f (2 * node + if bit w f then 1 else 0) w (setBit t node (!(bit w f)))
/-- The way that the tree points to, of those that may go. -/
def plruWay (ok : Nat → Bool) (t : Nat) : Nat → Nat → Nat → Nat
  | 0, _, base => base
  | f + 1, node, base =>
    let half := 2 ^ f
    let some_ (b : Nat) : Bool := (List.range half).any fun i => ok (b + i)
    if (bit t node && some_ (base + half)) || !(some_ base) then plruWay ok t f (2 * node + 1) (base + half)
    else plruWay ok t f (2 * node) base

/-- R68: whether a task of some die has its reader mark on a sector of device memory. -/
def State.marked (s : State) (a : Nat) : Bool := s.dies.any fun d => (find d.2.marks (a / 64)).isSome
/-- The address of half `i` of the line with key `k`. -/
def Line.addr (l : Line) (k i : Nat) : Nat := l.tag * 2 ^ 19 + (k / 16 ^^^ l.tag % 4096) * 128 + i * 64
def Line.sectors (l : Line) (k : Nat) : List (Nat × Sector) :=
  (l.s0.map fun x => (l.addr k 0, x)).toList ++ (l.s1.map fun x => (l.addr k 1, x)).toList

/-- R68, R234: a marked sector has left the last bay that held it: its marking tasks restart, but the oldest of its slot, whose
mark the die's conflict check keeps. -/
def State.evictMarks (s : State) (a : Nat) : State :=
  if (s.holders none a) != [] then s else
  s.dies.foldl (fun s d => (d.2.tasks.filter fun t => d.2.reads t (a / 64)).foldl (fun s t =>
    match (s.die d.1).task t.seq with
    | some t => if (s.die d.1).isOldest t then s else s.restartTask d.1 t
    | none => s) s) s

/-- The key of a peer-cached sector: device and address. -/
def sectorKey (dev pa : Nat) : Nat := dev * 2 ^ 34 + pa / 64

/-- R174, R175: a write-back that reaches no peer is told to the fences that wait for it, or to the next of each strand of the slot. Log entry 52 (DEDUCED). -/
def State.backLost (s : State) (slot : Nat) (fences : List Nat) : State :=
  let l := if fences.isEmpty then (s.groups.filter (·.2.slot == slot)).flatMap (·.2.strands) else fences
  l.foldl (fun s n => s.mapStrand n fun x => { x with peerLost := true }) s

/-- R174: the fetches on their way that satisfy `p` are older than what has left the bays since. -/
def State.spoilFetch (s : State) (p : PeerReq → Bool) : State :=
  s.mapPkg fun x => { x with peers := x.peers.map fun r => if r.fetch && p r then { r with stale := true } else r }

/-- R66, R174: a dirty sector of a peer's memory is written back as it is, poison and all. -/
def State.sendBack (s : State) (dev pa : Nat) (x : Sector) (fences : List Nat) : State :=
  let r := (s.spoilFetch fun r => r.dev == dev && r.pa / 64 == pa / 64).askPeer
    { id := 0, dev := dev, slot := x.tag.toNat / 1024, gen := x.tag.toNat % 1024, pa := pa / 64 * 64, wr := true, n := 64, acc := none, cmd := none,
      wb := some (sectorKey dev pa), fences := fences, poison := x.poison, data := x.data, op := none, fetch := false, stale := false, station := 0, sentAt := 0, msg := .flush 0 }
  if r.2 then r.1 else r.1.backLost (x.tag.toNat / 1024) fences

/-- R65, R66: a line leaves a bay; its dirty sectors are written back. -/
def State.evictLine (s : State) (b k : Nat) : State :=
  match find (s.bay b).lines k with
  | none => s
  | some l =>
    let s := s.mapBay b fun x => { x with lines := Tbl.del x.lines k }
    (l.sectors k).foldl (fun s e => match l.peer with
      | some dev => if e.2.dirty then s.sendBack dev e.1 e.2 [] else s
      | none => s.evictMarks e.1) s

def Bay.touch (x : Bay) (a w : Nat) : Bay := { x with plru := Tbl.upd 0 x.plru (baySet a) (plruTouch 4 1 w) }

/-- R65: a sector enters a bay: into its line, a free way, or the way that the tree gives up; a way with a marked sector goes only
when all 16 have one. Log entry 93 (DESIGN CHOICE). -/
def State.allocate (s : State) (b : Nat) (peer : Option Nat) (a : Nat) (v : Sector) : State :=
  match (s.bay b).way peer a with
  | some w => s.mapBay b fun x => (x.setSector peer a (some v)).touch a w
  | none =>
    let key (w : Nat) : Nat := baySet a * 16 + w
    let put (s : State) (w : Nat) : State := s.mapBay b fun x =>
      { (x.touch a w) with lines := Tbl.ins x.lines (key w) ((Line.mk peer (lineTag a) none none).put a (some v)) }
    match firstBelow 16 fun w => (find (s.bay b).lines (key w)).isNone with
    | some w => put s w
    | none =>
      let free (w : Nat) : Bool := match find (s.bay b).lines (key w) with
        | some l => l.peer.isSome || !((l.sectors (key w)).any fun e => s.marked e.1)
        | none => true
      let w := plruWay (fun w => free w || !((List.range 16).any free)) (Tbl.get 0 (s.bay b).plru (baySet a)) 4 1 0
      put (s.evictLine b (key w)) w

/-! ### Device memory through a bay (R66, R67, R92) -/

/-- A sector of a granule as the directory finds it: in core `c`'s own bay, or dirty in another; its bytes are those of `State.hbm`.
Log entry 22 (DEDUCED). -/
def State.ownSector (s : State) (c g : Nat) : Option Sector := (s.bay (bayOfCore c)).sector none (g * 64)
def State.dirtyBay (s : State) (peer : Option Nat) (a : Nat) : Option (Nat × Sector) :=
  (s.holders peer a).findSome? fun b => match (s.bay b).sector peer a with | some x => if x.dirty then some (b, x) else none | none => none

/-- Granule `g` enters the bay of core `c`, or is used there; a copy that is dirty elsewhere moves. Log entry 93 (DESIGN CHOICE). -/
def State.bayFetch (s : State) (c g : Nat) : State :=
  let b := bayOfCore c
  match (s.bay b).way none (g * 64), s.ownSector c g with
  | some w, some _ => s.mapBay b fun x => x.touch (g * 64) w
  | _, _ => match s.dirtyBay none (g * 64) with
    | some (o, x) => (s.mapBay o fun y => y.setSector none (g * 64) none).allocate b none (g * 64) x
    | none => let e := Tbl.get Gran.zero s.hbm.side g; s.allocate b none (g * 64) ⟨false, e.tag, e.poison, [], none⟩
/-- A read of granule `g` by core `c`, whose misses are counted (R329); `unc` where CACHE is 0. -/
def State.bayRead (s : State) (c slot gen : Nat) (unc : Bool) (g : Nat) : State :=
  if unc then s.uncache [g]
  else (if (s.ownSector c g).isSome then s else s.countPerf c slot gen 0xA 1).bayFetch c g

/-- Before a write of granule `g` through the bay of core `c`: every other copy goes, and this bay holds the sector dirty over what HBM
holds. -/
def State.bayClaim (s : State) (c g : Nat) : State :=
  let a := g * 64
  let e := Tbl.get Gran.zero s.hbm.side g
  let own := s.ownSector c g
  let under := match s.dirtyBay none a with
    | some (_, x) => x.under
    | none => some (e, (List.range 64).map fun i => s.hbm.raw (a + i))
  let e := match own with | some x => { e with tag := x.tag, poison := x.poison } | none => e
  let s := { s with hbm := { s.hbm with side := Tbl.put Gran.zero s.hbm.side g e } }
  (s.uncacheOthers (bayOfCore c) a).allocate (bayOfCore c) none a ⟨true, e.tag, e.poison, [], under⟩
/-- After it: the sector carries the granule's tag and poison. -/
def State.bayDone (s : State) (c g : Nat) : State :=
  let e := Tbl.get Gran.zero s.hbm.side g
  s.mapBay (bayOfCore c) fun x => match x.sector none (g * 64) with
    | some y => x.setSector none (g * 64) (some { y with tag := e.tag, poison := e.poison })
    | none => x

/-- Device memory as core `c` sees granules `gs` through its bay: a sector's own tag and poison. -/
def State.memSeen (s : State) (c : Nat) (gs : List Nat) : TMem :=
  gs.foldl (fun m g => match s.ownSector c g with
    | some x => { m with side := Tbl.upd Gran.zero m.side g fun e => { e with tag := x.tag, poison := x.poison } }
    | none => m) s.hbm

/-! ### A core's accesses -/

/-- R122, R123: whether byte `i` of a core's access is an old operation where it is presented: at the bay of its die and, for a
write or a miss, at the home of the byte; with CACHE 0 (`unc`, by granule) at the home alone. -/
def State.coreCut (s : State) (c slot gen : Nat) (unc : List Nat) (wr : Bool) (p : Place) (i : Nat) : Bool :=
  match p with
  | .hbm a =>
    let g := (a + i) / 64
    let home := s.oldAtDie (dieOfPa (a + i)) slot gen
    if unc.contains g then home else s.oldAtDie (dieOfCore c) slot gen || (home && (wr || (s.ownSector c g).isNone))
  | _ => s.cutAt slot gen p i
def State.coreOk (s : State) (c slot gen : Nat) (unc : List Nat) (wr : Bool) (p : Place) (i : Nat) : Bool :=
  !(s.coreCut c slot gen unc wr p i) && !(s.refusedAt slot p i)

/-- The granules of device memory that a core's access reaches: its holders decide for a granule whole. -/
def State.coreGrans (s : State) (c slot gen : Nat) (unc : List Nat) (wr : Bool) (p : Place) (n : Nat) : List Nat :=
  match p with
  | .hbm a => (granRange a n).filter fun g => s.coreOk c slot gen unc wr p (g * 64 - a)
  | _ => []

/-- What core `c` reads at a place, and whether its owner meets poison there (R79, R114). -/
def State.coreBytes (s : State) (c slot gen : Nat) (unc : List Nat) (p : Place) (n : Nat) : List Byte :=
  let t := tagOf slot gen
  let m := s.memSeen c ((s.coreGrans c slot gen unc false p n).filter fun g => !(unc.contains g))
  (List.range n).map fun i =>
    if s.coreOk c slot gen unc false p i then (match p with | .hbm a => m.byte false t (a + i) | _ => s.byteAt t p i) else 0
def State.coreBad (s : State) (c slot gen : Nat) (unc : List Nat) (p : Place) (n : Nat) : Bool :=
  let t := tagOf slot gen
  match p with
  | .hbm a =>
    let m := s.memSeen c ((s.coreGrans c slot gen unc false p n).filter fun g => !(unc.contains g))
    (List.range n).any fun i => s.coreOk c slot gen unc false p i && (m.gran (a + i)).current false t && (m.gran (a + i)).poison
  | _ => s.poisonAt slot gen p n

/-- A core's read reaches its bay: it is counted where it is dropped or refused, and else allocates. -/
def State.coreRead (s : State) (c slot gen : Nat) (unc : List Nat) (p : Place) (n : Nat) : State :=
  (s.coreGrans c slot gen unc false p n).foldl (fun s g => s.bayRead c slot gen (unc.contains g) g)
    (s.noteBy slot (s.coreCut c slot gen unc false p) p n 0)

/-- A write of cells of device memory through the bay of core `c`, under a tag; granules `unc` go to the memory controller; `slot` is the
slot whose dirty bits it sets (R46). -/
def State.bayPut (s : State) (c : Nat) (slot : Option Nat) (unc : List Nat) (t : Tag) (cs : List Host.Cell) : State :=
  let gs := gransOf cs
  let in_ := gs.filter fun g => !(unc.contains g)
  let s := in_.foldl (fun s g => s.bayClaim c g) (s.uncache (gs.filter unc.contains))
  in_.foldl (fun s g => s.bayDone c g) (s.hbmPut slot (fun g => if unc.contains g then homeOf g else dieOfCore c) t cs)
/-- R329: the misses of a write of cells by an operation of core `c`. -/
def State.countMiss (s : State) (c slot gen : Nat) (unc : List Nat) (cs : List Host.Cell) : State :=
  ((gransOf cs).filter fun g => !(unc.contains g) && (s.ownSector c g).isNone).foldl (fun s _ => s.countPerf c slot gen 0xA 1) s
/-- A write by an operation of core `c`, whose misses are counted; `dirty` gives the slot whose dirty bits it sets. -/
def State.bayWrite (s : State) (c slot gen : Nat) (dirty : Option Nat) (unc : List Nat) (cs : List Host.Cell) : State :=
  (s.countMiss c slot gen unc cs).bayPut c dirty unc (tagOf slot gen) cs

/-- The cells of a core's write that its holders allow. -/
def State.coreCells (s : State) (c slot gen : Nat) (unc : List Nat) (p : Place) (a : Nat) (d : List Byte) : List Host.Cell :=
  (cellsAt a d).filter fun x => s.coreOk c slot gen unc true p (x.1 - a)

/-- A core's write of device memory performs: what a holder drops or refuses is counted. -/
def State.coreStore (s : State) (c slot gen : Nat) (dirty : Option Nat) (unc : List Nat) (a : Nat) (d : List Byte) : State :=
  let p : Place := .hbm a
  (s.noteBy slot (s.coreCut c slot gen unc true p) p d.length 1).bayWrite c slot gen dirty unc (s.coreCells c slot gen unc p a d)
/-- A core's write performs; one of device memory is of those that R46 covers. -/
def State.coreWrite (s : State) (c slot gen : Nat) (unc : List Nat) (p : Place) (d : List Byte) : State :=
  match p with
  | .hbm a => s.coreStore c slot gen (some slot) unc a d
  | _ => s.store slot gen p d

/-! ### The writes of committed tasks (R177) -/

/-- A committed granule performs; a frozen die takes no request (R82). -/
def State.commitOut (s : State) (a : Acc) : State :=
  let p := a.dst
  if s.placeFrozen p then s.dropAcc a.id else
  let s := (s.dropAcc a.id).noteBy a.slot (s.coreCut a.core a.slot a.gen [] true p) p 64 1
  if s.remoteOk a.slot a.core p = false then s.remoteRefused a.slot a.core p 1
  else
    let cs := ((a.wsegs.map (·.2)).zip a.data).filter fun b => s.coreOk a.core a.slot a.gen [] true p b.1
    match p with
    | .hbm x => s.bayWrite a.core a.slot a.gen (some a.slot) [] (cs.map fun b => (x + b.1, b.2))
    | .ground x => { s with ground := s.ground.write false (tagOf a.slot a.gen) (cs.map fun b => (x + b.1, b.2)) }
    | _ => s

def Acc.isCommit (a : Acc) : Bool := match a.why with | .commit _ => true | _ => false
/-- The committed granules that wait, in the order of their commits, and touch `n` bytes at a place. -/
def State.commitsAt (s : State) (p : Place) (n : Nat) : List Acc := s.flight.filter fun a => a.isCommit && a.dst.meets 64 p n
/-- R177: to every observer of the committing die the writes of a task are there: what of them an access of a core of that die
touches performs first. -/
def State.settle (s : State) (c : Nat) (p : Place) (n : Nat) : State :=
  let l := s.commitsAt p n
  if l.any fun a => a.why == .commit (dieOfCore c) then l.foldl (fun s a => s.commitOut a) s else s

/-- The same of all that waits of a die's commits. -/
def State.settleDie (s : State) (d : Nat) : State :=
  if s.flight.any fun a => a.why == .commit d then (s.flight.filter Acc.isCommit).foldl (fun s a => s.commitOut a) s else s

/-- MEMORY_ACCESS_ARRIVAL of a committed granule: never before an earlier one of the same granule. -/
def State.commitArrive (s : State) (a : Acc) : State :=
  match s.commitsAt a.dst 64 with
  | b :: _ => if b.id = a.id then s.commitOut a else s
  | [] => s

/-- R177: whether writes of committed tasks of a slot on a die are still to perform for other dies. -/
def State.committing (s : State) (d slot : Nat) : Bool := s.flight.any fun a => a.why == .commit d && a.slot == slot

end Sys2Proof.Machine
end

