-- ==== Sys2Proof/Machine/Sync.lean ====
section
/-! DEFINITION. The variables of the sync engines (R71 to R73, R79, R122, R123, R416): where they are read and written, and their
waiters. A variable of the overflow area is reached through a bay cache of its home die. -/
namespace Sys2Proof.Machine

/-- R73: a core of the bay through which an overflow variable is reached, a bay of the die that is home to it. Log entry 107 (DESIGN CHOICE). -/
def syncCore (a : Nat) : Nat := dieOfPa a * 48 + Config.syncBay (a / 64) % 6 * 8

/-- The variable as an operation with tag `t` reads it. -/
def State.syncGet (s : State) (l : SLoc) (t : Tag) : SyncVar :=
  match l with
  | .sram d o => (Tbl.get zSync (s.die d).sync (o / 8)).read t ⟨0, 0⟩
  | .ovf _ a =>
    let m := s.memSeen (syncCore a) [a / 64]
    { v := BitVec.ofNat 64 (ofLe (m.read false t a 8)), latch := m.byte false t (a + 8) }

/-- R79, R81: whether the owner meets poison in the variable. -/
def State.syncBad (s : State) (l : SLoc) (t : Tag) : Bool :=
  match l with
  | .sram d o => (Tbl.get zSync (s.die d).sync (o / 8)).bad t
  | .ovf _ a => (s.memSeen (syncCore a) [a / 64]).bad false t a 16

/-- R122, R123: whether the die that is home to an overflow variable has cut and the operation is an old one there. -/
def State.syncOld (s : State) (slot gen : Nat) (l : SLoc) : Bool :=
  match l with
  | .sram _ _ => false
  | .ovf _ a => s.oldAtDie (dieOfPa a) slot gen

/-- What an operation of (slot, gen) reads: zero of a variable whose home has cut. -/
def State.syncSee (s : State) (slot gen : Nat) (l : SLoc) : SyncVar :=
  if s.syncOld slot gen l then ⟨0, 0⟩ else s.syncGet l (tagOf slot gen)
/-- An operation that reads the variable brings its sector into the bay, or is counted where its home has cut. -/
def State.syncTouch (s : State) (slot gen : Nat) (l : SLoc) : State :=
  match l with
  | .sram _ _ => s
  | .ovf _ a => if s.syncOld slot gen l then s.countDrop slot else s.bayFetch (syncCore a) (a / 64)

/-- A write of the variable, dropped where its home has cut. -/
def State.syncPut (s : State) (slot gen : Nat) (l : SLoc) (v : SyncVar) : State :=
  let t := tagOf slot gen
  match l with
  | .sram d o => s.mapDie d fun x => { x with sync := Tbl.put zSync x.sync (o / 8) (Tagged.whole t v) }
  | .ovf _ a =>
    if s.syncOld slot gen l then s else s.bayPut (syncCore a) (some slot) [] t (cellsAt a (leBytes 8 v.v.toNat ++ [v.latch] ++ leBytes 7 0))

/-- R416, R218: release the SWAITs on one variable that its latch or its value satisfies; one whose timeout ran out in an earlier
cycle ended so. -/
def serveSync (l : SLoc) (v : SyncVar) : List SyncWait → State → State × List SyncWait
  | [], s => (s, [])
  | w :: t, s =>
    if w.loc = l ∧ s.expired w.deadline then serveSync l v t (s.endSwait w cWatchdog)
    else if w.loc = l ∧ v.latch ≠ 0 then serveSync l v t (s.endSwait w v.latch)
    else if w.loc = l ∧ w.bound.toNat ≤ v.v.toNat then serveSync l v t (s.endSwait w cNone)
    else let r := serveSync l v t s; (r.1, w :: r.2)

/-- Serve the SWAITs of the slot on a variable after it changed. -/
def State.syncServe (s : State) (slot gen : Nat) (l : SLoc) : State :=
  let d := l.die
  let ws := (s.die d).syncWaits
  let mine := ws.filter fun w => w.slot == slot && w.gen == gen
  let r := serveSync l (s.syncSee slot gen l) mine s
  r.1.mapDie d fun x => { x with syncWaits := ws.filter fun w => !(w.slot == slot && w.gen == gen) || r.2.contains w }

/-- R79, R203, R416: the latch of a sync variable takes a code unless it holds one; its waiters are released. -/
def State.syncLatch (s : State) (slot gen : Nat) (l : SLoc) (code : Code) : State :=
  let v := s.syncSee slot gen l
  ((s.syncTouch slot gen l).syncPut slot gen l { v with latch := if v.latch = 0 then code else v.latch }).syncServe slot gen l

/-- R79: an operation of the owner on a poisoned variable is not performed; the latch takes UNCORRECTABLE, which leaves the
poison, and the waiters are released. -/
def State.syncPoison (s : State) (slot gen : Nat) (l : SLoc) : State :=
  let t := tagOf slot gen
  let v := s.syncGet l t
  let v := { v with latch := if v.latch = 0 then cUncorrectable else v.latch }
  let s := match l with
    | .sram d o => s.mapDie d fun x => { x with sync := Tbl.put zSync x.sync (o / 8) ⟨v, t, true⟩ }
    | .ovf _ a => s.bayPut (syncCore a) (some slot) [] t [(a + 8, v.latch)]
  s.syncServe slot gen l

/-- R416: an update of a sync variable by an operation of (slot, gen). -/
def State.syncUpdate (s : State) (slot gen : Nat) (l : SLoc) (f : W64 → W64) : State :=
  let v := s.syncSee slot gen l
  ((s.syncTouch slot gen l).syncPut slot gen l { v with v := f v.v }).syncServe slot gen l

/-- R79: whether an operation of (slot, gen) meets poison in the variable. -/
def State.syncSpoilt (s : State) (slot gen : Nat) (l : SLoc) : Bool := !(s.syncOld slot gen l) && s.syncBad l (tagOf slot gen)

end Sys2Proof.Machine
end

