-- ==== Sys2Proof/Machine/Access.lean ====
section
/-! DEFINITION. Loads, stores, PREF, FENCE, PUB and the sync instructions (R389 to R391, R408, R416), and the arrival and the
return of a strand's accesses (R61, R73, R92, R217). -/
namespace Sys2Proof.Machine

/-! ### Performing an access of a strand -/

/-- R75, R173: the place of a TWIN read that reaches its replica, unless the replica holds it; the entry is checked as it then is.
Log entry 109 (DEDUCED). -/
def State.unhold (s : State) (a : Acc) (h o : Nat) : Option (Chk Place) :=
  let d := dieOf a.strand
  let t := tagOf a.slot a.gen
  if (s.die d).holds.contains (a.slot * 1024 + h) then none
  else
    let e := s.twin d a.slot h t
    if s.twinBad d a.slot h t then some (trapAt cUncorrectable a.ea.toNat)
    else if o + a.n > e.len then some (trapAt cBound a.ea.toNat)
    else match e.loc with
      | 1 => some (.ok (.hbm (e.vis + o)))
      | 2 => match groundFlat (e.vis + o) a.n with
        | some x => some (.ok (.ground x.2))
        | none => some (trapAt cBound a.ea.toNat)
      | _ => some (trapAt cBound a.ea.toNat)

/-- The task of an access, if it runs speculatively. -/
def State.specTask (s : State) (a : Acc) : Option Task :=
  match a.task with
  | some q => match (s.die (dieOf a.strand)).task q with
    | some t => if t.nonspec then none else some t
    | none => none
  | none => none

/-- R235, R421: whether a speculative load of device memory waits for an earlier writer; a granule that the task wrote does not, nor
does a TWIN read. -/
def State.loadStalls (s : State) (a : Acc) (p : Place) : Bool :=
  match s.specTask a, p with
  | some t, .hbm x => !a.twin && (granRange x a.n).any fun g => !((s.core a.core).holdsGran t.seq false g) && s.earlierWriter (dieOf a.strand) t g
  | _, _ => false

/-- A load performs: zero at a place that the core mask no longer admits; data, with the code UNCORRECTABLE where the owner meets
poison. At a frozen die it ends with a value that the spec does not state. Log entry 27 (DEDUCED). -/
def State.loadAt (s : State) (a : Acc) (p : Place) : State × List Byte × Code :=
  if s.placeFrozen p then (s.tick, (leBytes 8 (Config.freeValue s.free).toNat).take a.n, 0)
  else if s.remoteOk a.slot a.core p = false then (s.remoteRefused a.slot a.core p 0, List.replicate a.n 0, 0)
  else
    let s := s.settle a.core p a.n
    let bad := s.coreBad a.core a.slot a.gen a.runc p a.n
    let d := s.coreBytes a.core a.slot a.gen a.runc p a.n
    let d := match a.task with | some q => s.overlay a.core q p d | none => d
    let s := s.coreRead a.core a.slot a.gen a.runc p a.n
    let s := match s.specTask a, p with
      | some t, .hbm x => match (if a.twin then none else t.pool) with
        | some q => s.markRead (dieOf a.strand) q ((granRange x a.n).filter fun g => !((s.core a.core).holdsGran t.seq false g))
        | none => s
      | _, _ => s
    (s, d, if bad then cUncorrectable else 0)

/-- A store performs; at a frozen die or a slice that no longer admits the slot it is dropped. A task's direct store is tested
for conflicts (R236, R239). Log entry 27 (DEDUCED). -/
def State.storeAt (s : State) (a : Acc) (p : Place) : State :=
  if s.placeFrozen p then s
  else if s.remoteOk a.slot a.core p = false then s.remoteRefused a.slot a.core p 1
  else
    let s := (s.settle a.core p a.data.length).coreWrite a.core a.slot a.gen a.wunc p a.data
    match a.task, p with
    | some q, .hbm x => match (s.die (dieOf a.strand)).task q with
      | some t => s.conflict (dieOf a.strand) t (granRange x a.data.length)
      | none => s
    | _, _ => s

/-- Whether a place is reached through the remote ground port of another core's slice. -/
def Place.remoteOf (p : Place) (c : Nat) : Bool := match p with | .ground _ => !(p.onCore c) | _ => false

/-- A load's access ends with data and a code, to be returned. -/
def State.loaded (s : State) (id : Nat) (d : List Byte) (code : Code) : State :=
  s.mapAcc id fun a => { a with done := true, data := d, code := code }

/-- A load reaches the unit that holds its bytes. -/
def State.loadArrives (s : State) (a : Acc) (remote : Bool) : State :=
  if a.src.remoteOf a.core != remote || s.loadStalls a a.src then s
  else let r := s.loadAt a a.src; r.1.loaded a.id r.2.1 r.2.2

/-- A TWIN read whose buffer is not yet found: handle and offset. -/
def Acc.unfound (a : Acc) : Option (Nat × Nat) :=
  match a.why, a.src with
  | .load _ _, .twin h o => some (h, o)
  | .vld _ _ _ _, .twin h o => some (h, o)
  | _, _ => none
/-- R166, R426: whether the reads of sync variables before an access have returned. -/
def State.acquired (s : State) (a : Acc) : Bool :=
  (s.flight.takeWhile (·.id != a.id)).all fun b => b.strand != a.strand || b.deferred || !b.syncReads
/-- R75, R173: a TWIN read reaches its replica and finds its buffer. -/
def State.findBuffer (s : State) (a : Acc) (h o : Nat) : State :=
  if s.acquired a = false then s
  else match s.unhold a h o with
    | some (.ok p) => s.mapAcc a.id fun a => { a with src := p }
    | some (.error e) => s.loaded a.id (List.replicate a.n 0) e.code
    | none => s

/-- Space and address of a place that a task may buffer. -/
def Place.flat (p : Place) : Bool × Nat := match p with | .ground a => (true, a) | .hbm a => (false, a) | _ => (false, 0)

/-- R236, R238: bytes that a task writes enter the pillow, and later readers of them restart. -/
def State.bufferStore (s : State) (n : Nat) (t : Task) (p : Place) (data : List Byte) : State :=
  let x := p.flat
  let s := s.mapCore (coreOf n) fun c => c.bufferAll t.seq t.slot t.gen x.1 x.2 data
  if x.1 then s else s.conflict (dieOf n) t (granRange x.2 data.length)

/-- R356: a store that a speculative task has issued, and that earlier accesses held back, enters the pillow; with the pillow full the
task is STALLED, or goes on. -/
def State.storeHeld (s : State) (a : Acc) (k : Task) : State :=
  match s.wantPillow a.strand k a.dst.flat.1 (granRange a.dst.flat.2 a.n) with
  | .room s => (s.dropAcc a.id).bufferStore a.strand k a.dst a.data
  | .direct s => s
  | .stalled s => s

/-- An access of a strand reaches the unit that holds its bytes: it performs if order allows. `remote` says which of the two
arrivals this is (R61, R92). -/
def State.arrive (s : State) (a : Acc) (remote : Bool) : State :=
  if a.done then s
  else match a.unfound with
  | some (h, o) => if remote then s else s.findBuffer a h o
  | none =>
  if s.mayPerform a = false then s
  else match a.why with
    | .load _ _ => s.loadArrives a remote
    | .vld _ _ _ _ => s.loadArrives a remote
    | .store =>
      if a.dst.remoteOf a.core != remote then s
      else match s.specTask a with
        | some k => s.storeHeld a k
        | none => (s.dropAcc a.id).storeAt a a.dst
    | .vst => if a.dst.remoteOf a.core != remote then s else (s.dropAcc a.id).storeAt a a.dst
    | .commit _ => if remote then s else s.commitArrive a
    | .flush => if remote then s else s.mapAcc a.id fun a => { a with done := true }
    | _ => s

/-! ### LD and ST (R389, R421) -/

/-- A load enters the order of its strand; in its own slice it performs at once when nothing holds it back. -/
def State.issueLoad (s : State) (n : Nat) (i : Instr) (cls d ty : Nat) (t : Target) (ea : W64) : Res :=
  let a := s.newAcc n i (.load d ty) cls t ea (tyBytes ty) []
  if t.place.onCore (coreOf n) && s.mayPerform a then
    let r := s.loadAt a t.place
    if r.2.2 ≠ 0 then .trap ⟨r.2.2, 0, ea⟩
    else .done ((r.1.setS n d (loadExt ty (ofLe r.2.1))).adv n i)
  else .done (((s.addAcc a).owe n d).adv n i)

/-- LD (R389). -/
def execLd (f : FM) (s : State) : Out :=
  let n := s.cur
  let ea := effAddr (s.opd n f.a) (s.opd n f.b) f.disp
  let ty := f.ty.toNat
  s.issue (.ld f) f.pr (opdRegs [f.a, f.b]) [f.d.dest] (
    match s.resolve n false f.spc.toNat ea.toNat (tyBytes ty) with
    | .error e => .trap e
    | .ok t => s.issueLoad n (.ld f) f.cls.toNat f.d.dest ty t ea)

/-- R389: the store queue of a strand. -/
def State.storesOut (s : State) (n : Nat) : Nat := (s.flight.filter fun a => a.strand == n && a.why == .store).length

/-- A store enters the order of its strand; in its own slice it performs at once when nothing holds it back. -/
def State.issueStore (s : State) (n : Nat) (i : Instr) (cls : Nat) (t : Target) (ea : W64) (data : List Byte) : Res :=
  let a := s.newAcc n i .store cls t ea data.length data
  if s.storesOut n ≥ 16 then .wait s
  else if t.place.onCore (coreOf n) && s.mayPerform a then .done ((s.storeAt a t.place).adv n i)
  else .done ((s.addAcc a).adv n i)

/-- ST (R356, R389, R421). -/
def execSt (f : FM) (s : State) : Out :=
  let n := s.cur
  let i : Instr := .st f
  let ea := effAddr (s.opd n f.a) (s.opd n f.b) f.disp
  let sz := tyBytes f.ty.toNat
  let data := leBytes sz (s.opd n f.d).toNat
  s.issue i f.pr (opdRegs [f.a, f.b, f.d]) [] (
    if s.inTask n ∧ f.spc = 0 then .trap ⟨cSpecIllegal, 0, 0⟩
    else match s.resolve n true f.spc.toNat ea.toNat sz with
      | .error e => .trap e
      | .ok t => match s.taskOf n with
        | none => s.issueStore n i f.cls.toNat t ea data
        | some k =>
          let a := s.newAcc n i .store f.cls.toNat t ea sz data
          if !k.nonspec && !(s.mayPerform a) then (if s.storesOut n ≥ 16 then .wait s else .done ((s.addAcc a).adv n i))
          else match s.wantPillow n k t.place.flat.1 (granRange t.place.flat.2 sz) with
            | .room s => .done ((s.bufferStore n k t.place data).adv n i)
            | .direct s => s.issueStore n i f.cls.toNat t ea data
            | .stalled s => .wait s)

/-- PREF (R390): only HEAP; the granules below HEAP_LIMIT enter the bay, and no value that any observer sees changes. -/
def execPref (f : FM) (s : State) : Out :=
  let n := s.cur
  let c := coreOf n
  let ea := effAddr (s.opd n f.a) (s.opd n f.b) f.disp
  let h := s.heapTriple c (s.slotOf n)
  let gs := (granRange ea.toNat (64 * 2 ^ f.ty.toNat)).filter fun g => decide (g * 64 < h.2.1)
  s.issue (.pref f) f.pr (opdRegs [f.a, f.b]) [] (
    if f.spc ≠ 2 then .trap ⟨cSpace, 0, ea⟩
    else .done ((gs.foldl (fun s g =>
      let p : Place := .hbm (h.2.2 + g * 64)
      if s.placeFrozen p then s else s.coreRead c (s.slotOf n) (s.genOf n) [] p 64) s).adv n (.pref f)))

/-! ### FENCE (R165, R174, R175, R391) -/

/-- The peer-cached sectors of a slot: bay, device, address, sector (R174). -/
def State.peerSectors (s : State) (slot : Nat) : List (Nat × Nat × Nat × Sector) :=
  (List.range 24).flatMap fun b => (s.bay b).lines.flatMap fun e => match e.2.peer with
    | none => []
    | some dev => ((e.2.sectors e.1).filter fun x => x.2.tag.toNat / 1024 == slot).map fun x => (b, dev, x.1, x.2)

/-- R174: a dirty sector is written back, for the fences named, and stays clean. -/
def State.writeBack (s : State) (fences : List Nat) (e : Nat × Nat × Nat × Sector) : State :=
  (s.mapBay e.1 fun b => b.setSector (some e.2.1) e.2.2.1 (some { e.2.2.2 with dirty := false })).sendBack e.2.1 e.2.2.1 e.2.2.2 fences

/-- R174: drop the slot's clean peer-cached sectors, and what fetches of the slot will bring. -/
def State.dropClean (s : State) (slot : Nat) : State :=
  (s.peerSectors slot).foldl (fun s e => if e.2.2.2.dirty then s else s.mapBay e.1 fun b => b.setSector (some e.2.1) e.2.2.1 none)
    (s.spoilFetch fun r => r.slot == slot)

/-- R165, R175: the fence of strand `n` waits for the write-backs of the slot's sectors that are on their way, whoever began them. -/
def State.joinBacks (s : State) (n slot : Nat) : State :=
  s.mapPkg fun p => { p with peers := p.peers.map fun r => if r.wb.isSome ∧ r.slot = slot then { r with fences := addOnce n r.fences } else r }

/-- R176: the zero-length read of a fence of strand `n`. -/
def State.flushOf (s : State) (n : Nat) : Option Acc := s.flight.find? fun a => a.strand == n && a.why == .flush
def State.sendFlush (s : State) (n : Nat) (i : Instr) : State :=
  (s.addAcc (s.newAcc n i .flush 0 ⟨.none, 4⟩ 0 0 [])).send (.flush (s.slotOf n))

/-- R165: the accesses that a fence with class mask `m` waits for. Log entries 35 (DEDUCED), 58 (DEDUCED). -/
def State.fenceWaits (s : State) (n m : Nat) : Bool :=
  s.flight.any fun a => a.strand == n && !a.done && (a.isSync || a.cls == 15 || bit m a.cls)

/-- What a FENCE still has to do at POD and SYSTEM scope, `none` when nothing (R174 to R176). -/
def State.fenceFar (s : State) (n : Nat) (i : Instr) (far sys : Bool) : Option State :=
  let slot := s.slotOf n
  let dirty := (s.peerSectors slot).filter fun e => e.2.2.2.dirty
  let old := far && s.pkg.peers.any fun r => r.wb.isSome && r.slot == slot && !(r.fences.contains n)
  if far ∧ (dirty ≠ [] ∨ old) then some (dirty.foldl (fun s e => s.writeBack [n] e) (s.joinBacks n slot))
  else if far ∧ s.pkg.peers.any (·.fences.contains n) then some s
  else if sys then match s.flushOf n with
    | none => some (s.sendFlush n i)
    | some a => if a.done then none else some s
  else none

/-- FENCE (R165, R174 to R176, R391). Log entry 96 (DEDUCED). -/
def execFence (f : FM) (s : State) : Out :=
  let n := s.cur
  let m := (s.opd n f.a).toNat
  let pod := decide (3 ≤ f.ty.toNat)
  s.issue (.fence f) f.pr (opdRegs [f.a]) [f.d.dest] (
    if s.inTask n then .trap ⟨cSpecIllegal, 0, 0⟩
    else if f.ty.toNat ≥ 5 ∨ m ≥ 65536 then .trap ⟨cOperand, 0, 0⟩
    else if s.fenceWaits n m then .wait s
    else match s.fenceFar n (.fence f) (pod && m != 0) (f.ty == 4) with
      | some s => .wait s
      | none =>
        let code := if pod && (s.strand n).peerLost then cPeerLost else cNone
        let s := match s.flushOf n with | some a => s.dropAcc a.id | none => s
        let s := if pod && m != 0 then (s.dropClean (s.slotOf n)).mapStrand n fun x => { x with peerLost := false } else s
        .done ((s.setS n f.d.dest (code.setWidth 64)).adv n (.fence f)))

/-! ### Sync instructions (R73, R166, R416) -/

/-- R14: the SYNC address of a strand: die and offset. -/
def State.syncAddr (s : State) (n : Nat) (ea : Nat) : Chk (Nat × Nat) :=
  let w := s.syncWindow (coreOf n) (s.slotOf n)
  if ea ≥ 2 ^ 34 ∨ ea % 2 ^ 32 + 8 > w.1 then trapAt cBound ea
  else if ea % 8 ≠ 0 then trapAt cMisaligned ea
  else .ok (ea / 2 ^ 32, ea % 2 ^ 32)

/-- A sync operation leaves for its engine; in a speculative task it is deferred and returns 0 at once (R238). -/
def State.sendSync (s : State) (n : Nat) (i : Instr) (op : Nat) (ea b e : W64) (tmo : Option Nat) (d : Nat) : Res :=
  match s.syncAddr n ea.toNat with
  | .error x => .trap x
  | .ok (die, off) =>
    let o : SyncOp :=
      { op := op, die := die, off := off, b := b, e := e, deadline := tmo, win := s.syncWindow (coreOf n) (s.slotOf n), late := none }
    let a := s.newAcc n i (.sync o d) 0 ⟨.none, 2⟩ ea 8 []
    match s.taskOf n with
    | some t =>
      if t.nonspec then .done (((s.addAcc { a with task := none }).owe n d).adv n i)
      else
        let s := s.addAcc { a with why := .sync { o with late := some t.seq } 0 }
        .done (((s.mapTask (dieOf n) t.seq fun t => { t with deferred := t.deferred ++ [a.id] }).setS n d 0).adv n i)
    | none => .done (((s.addAcc { a with task := none }).owe n d).adv n i)

/-- SADD (R416). -/
def execSadd (f : FY) (s : State) : Out :=
  let n := s.cur
  s.issue (.sadd f) f.pr (opdRegs [f.a, f.b]) [f.d.dest] (
    s.sendSync n (.sadd f) 0 (s.opd n f.a) (s.opd n f.b) 0 none f.d.dest)

/-- SWAIT (R409, R416): one outstanding for each strand (R217). -/
def execSwait (f : FY) (s : State) : Out :=
  let n := s.cur
  let t := s.opd n (.reg (BitVec.ofNat 6 f.ix.toNat))
  s.issue (.swait f) f.pr (opdRegs [f.a, f.b] ++ [f.ix.toNat]) [f.d.dest] (
    if s.inTask n then .trap ⟨cSpecIllegal, 0, 0⟩
    else if f.ix.toNat ≥ 64 ∨ t.toNat ≥ 2 ^ 48 then .trap ⟨cOperand, 0, 0⟩
    else match s.sendSync n (.swait f) 1 (s.opd n f.a) (s.opd n f.b) 0 (if t = 0 then none else some t.toNat) f.d.dest with
      | .done r => if (s.strand n).swait then .wait s else .done (r.mapStrand n fun x => { x with swait := true })
      | r => r)

/-- SATOM (R416). -/
def execSatom (f : FY) (s : State) : Out :=
  let n := s.cur
  s.issue (.satom f) f.pr (opdRegs [f.a, f.b]) [f.d.dest] (
    s.sendSync n (.satom f) (2 + f.m.toNat) (s.opd n f.a) (s.opd n f.b) 0 none f.d.dest)

/-- SCAS (R416). -/
def execScas (f : FY) (s : State) : Out :=
  let n := s.cur
  s.issue (.scas f) f.pr (opdRegs [f.a, f.b] ++ [f.ix.toNat]) [f.d.dest] (
    if f.ix.toNat ≥ 64 then .trap ⟨cOperand, 0, 0⟩
    else s.sendSync n (.scas f) 20 (s.opd n f.a) (s.opd n f.b) (s.opd n (.reg (BitVec.ofNat 6 f.ix.toNat))) none f.d.dest)

/-- SERR (R416). -/
def execSerr (f : FY) (s : State) : Out :=
  let n := s.cur
  let b := s.opd n f.b
  s.issue (.serr f) f.pr (opdRegs [f.a, f.b]) [f.d.dest] (
    if latchCode b = false then .trap ⟨cOperand, 0, 0⟩
    else s.sendSync n (.serr f) 21 (s.opd n f.a) b 0 none f.d.dest)

/-- SGET (R416). -/
def execSget (f : FY) (s : State) : Out :=
  let n := s.cur
  s.issue (.sget f) f.pr (opdRegs [f.a]) [f.d.dest] (
    s.sendSync n (.sget f) (22 + f.m.toNat) (s.opd n f.a) 0 0 none f.d.dest)

/-- R416: the operation of SATOM with modifier `m`. -/
def satomOp (m : Nat) (v b : W64) : W64 :=
  match m with
  | 0 => v + b
  | 1 => v &&& b
  | 2 => v ||| b
  | 3 => v ^^^ b
  | 4 => if b.slt v then b else v
  | 5 => if v.slt b then b else v
  | 6 => if b.ult v then b else v
  | 7 => if v.ult b then b else v
  | _ => b

/-- The result of an access reaches it, to be returned. -/
def State.answer (s : State) (id : Nat) (v : W64) : State :=
  s.mapAcc id fun a => { a with done := true, data := leBytes 8 v.toNat }

/-- R416: the operation on the variable at `l`, and its answer. Log entry 27 (DEDUCED). -/
def State.syncDo (s : State) (a : Acc) (o : SyncOp) (d : Nat) (l : SLoc) : State :=
  let v := s.syncSee a.slot a.gen l
  let w : SyncWait :=
    { strand := a.strand, slot := a.slot, gen := a.gen, die := o.die, off := o.off, loc := l, bound := o.b, d := d,
      deadline := o.deadline.map (s.cycle + ·) }
  if s.syncSpoilt a.slot a.gen l then
    let s' := s.syncPoison a.slot a.gen l
    if o.op = 1 then s'.endSwait w (if v.latch = 0 then cUncorrectable else v.latch) else s'.answer a.id (if o.op = 0 then cUncorrectable.setWidth 64 else 0)
  else if o.op = 0 then (s.syncUpdate a.slot a.gen l fun x => x + o.b).answer a.id 0
  else if o.op = 1 then
    let s := s.syncTouch a.slot a.gen l
    if v.latch ≠ 0 ∨ o.b.toNat ≤ v.v.toNat then s.endSwait w v.latch
    else s.mapDie l.die fun x => { x with syncWaits := x.syncWaits ++ [w] }
  else if o.op < 20 then (s.syncUpdate a.slot a.gen l fun x => satomOp (o.op - 2) x o.b).answer a.id v.v
  else if o.op = 20 then (if v.v = o.e then s.syncUpdate a.slot a.gen l fun _ => o.b else s.syncTouch a.slot a.gen l).answer a.id v.v
  else if o.op = 21 then (s.syncLatch a.slot a.gen l (o.b.setWidth 8)).answer a.id 0
  else (s.syncTouch a.slot a.gen l).answer a.id (if o.op = 22 then v.v else v.latch.setWidth 64)

/-- R166, R177: whether a sync operation waits for the writes of the committed tasks of its slot: one that a task deferred, or an update of a
strand that runs ordered tasks, whose stores they may be. -/
def State.awaitsCommits (s : State) (a : Acc) (o : SyncOp) : Bool :=
  (o.late.isSome || (a.syncUpdates && (s.groupOf a.strand).any (·.serves))) && s.committing (dieOf a.strand) a.slot

/-- SYNC_OPERATION_ARRIVAL (R73, R122, R166, R416). -/
def execSyncOperationArrival (id : Nat) (s : State) : Out :=
  .next (match s.accOf id with
    | none => s
    | some a => match a.why with
      | .sync o d =>
        let l := syncAt o.win o.die o.off
        let waiting := a.isSwait && (s.die o.die).syncWaits.any (·.strand == a.strand)
        let frozen := s.frozen o.die || (match l with | .ovf _ x => s.frozen (dieOfPa x) | .sram _ _ => false)
        if a.done || a.task.isSome || waiting || !(s.mayPerform a) || s.awaitsCommits a o then s
        else if s.oldAtDie o.die a.slot a.gen || frozen then
          let c := if frozen then cContained else cGenRetired
          let s := if frozen then s else s.countDrop a.slot
          if o.op = 1 then s.endSwait ⟨a.strand, a.slot, a.gen, o.die, o.off, l, o.b, d, none⟩ c
          else s.answer id (if o.op = 0 ∨ o.op = 21 then c.setWidth 64 else 0)
        else s.syncDo a o d l
      | _ => s)

/-! ### The granules of tile records (R170) -/

/-- The granules of this package that a range touches: in the ground, number. -/
def Place.grans (x : Place) (n : Nat) : List (Bool × Nat) :=
  match x with
  | .hbm a => (granRange a n).map fun g => (false, g)
  | .ground a => (granRange a n).map fun g => (true, g)
  | _ => []

/-- Where an access reads; a TWIN read that has not found its buffer would find the one that is visible now. -/
def State.readsAt (s : State) (a : Acc) : Place :=
  match a.unfound with
  | none => a.src
  | some (h, o) =>
    let e := s.twin (dieOf a.strand) a.slot h (tagOf a.slot a.gen)
    match e.loc with
    | 1 => .hbm (e.vis + o)
    | 2 => match groundFlat (e.vis + o) a.n with | some x => .ground x.2 | none => .none
    | _ => .none
/-- The elements of vector loads still to be read in granules of which the same load has read another. -/
def State.halfRead (s : State) (gs : List (Bool × Nat)) : List Acc :=
  let of_ (a : Acc) : List (Bool × Nat) := match a.why with | .vld _ _ _ _ => ((s.readsAt a).grans a.n).filter gs.contains | _ => []
  s.flight.filter fun a => !a.done && (of_ a).any fun g => s.flight.any fun b => b.done && b.strand == a.strand && b.ord == a.ord && (of_ b).contains g
/-- R170: before a tile record is written, the loads that have read part of a granule of it read the rest. Log entry
129 (DEDUCED). -/
def State.finishReads (s : State) (l : List Acc) : State :=
  l.foldl (fun s a =>
    let s := match a.unfound with | some (h, o) => s.findBuffer a h o | none => s
    match s.accOf a.id with
    | some a => if !a.done && a.unfound.isNone && s.mayPerform a then let r := s.loadAt a a.src; r.1.loaded a.id r.2.1 r.2.2 else s
    | none => s) s

/-- The bytes and side bits of a granule as core `c` finds it. -/
def State.halfNow (s : State) (c : Nat) (g : Bool × Nat) : List Byte × Gran :=
  if g.1 then ((List.range 64).map fun i => s.ground.raw (g.2 * 64 + i), s.ground.gran (g.2 * 64))
  else ((List.range 64).map fun i => s.hbm.raw (g.2 * 64 + i), (s.memSeen c [g.2]).gran (g.2 * 64))
/-- R170: before a tile record is written, the copy commands that have read part of a granule of it keep the granule as it was. Log
entry 129 (DEDUCED). -/
def State.keepHalves (s : State) (gs : List (Bool × Nat)) : State :=
  let mine (h : Half) : Bool := h.old.isNone && gs.contains h.gran
  (allCores.filter fun c => (s.core c).cq.any fun k => k.halves.any mine).foldl (fun s c =>
    let keep (h : Half) : Half := if mine h then { h with old := some (s.halfNow c h.gran) } else h
    s.mapCore c fun x => { x with cq := x.cq.map fun k => { k with halves := k.halves.map keep } }) s

/-- Granule `g` of a memory with bytes and side bits put back. -/
def TMem.putGran (m : TMem) (g : Nat) (x : List Byte × Gran) : TMem :=
  { bytes := putCells m.bytes (cellsAt (g * 64) x.1), side := Tbl.put Gran.zero m.side g x.2 }
/-- The memory that a copy command of core `c` reads: granules kept for it stand as they were. -/
def State.asKept (s : State) (c : Nat) (hs : List Half) : State :=
  hs.foldl (fun s h => match h.old with
    | none => s
    | some x =>
      if h.gran.1 then { s with ground := s.ground.putGran h.gran.2 x }
      else { (s.mapBay (bayOfCore c) fun b => b.setSector none (h.gran.2 * 64) none) with hbm := s.hbm.putGran h.gran.2 x }) s

/-- The bytes of granule `g` that `n` bytes from `a` cover, as a mask. -/
def granMask (a n g : Nat) : W64 := BitVec.ofNat 64 (2 ^ (min (a + n) (g * 64 + 64) - g * 64) - 2 ^ (max a (g * 64) - g * 64))
/-- The partly read granules of a command before it reads `n` bytes at a place: a byte read again begins the granule anew. -/
def Place.halvesBefore (p : Place) (n : Nat) (hs : List Half) : List Half :=
  let x := p.flat
  let gs := p.grans n
  hs.filter fun h => !(gs.contains h.gran && h.got &&& granMask x.2 n h.gran.2 != 0)
/-- The same after it: a granule read whole is one no more. -/
def Place.halvesAfter (p : Place) (n : Nat) (hs : List Half) : List Half :=
  (p.grans n).foldl (fun hs g =>
    let m := granMask p.flat.2 n g.2
    let h := (hs.find? (·.gran == g)).getD ⟨g, 0, .none⟩
    let rest := hs.filter (·.gran != g)
    if h.got ||| m = BitVec.allOnes 64 then rest else rest ++ [{ h with got := h.got ||| m }]) hs

end Sys2Proof.Machine
end

