-- ==== Sys2Proof/Machine/Translate.lean ====
section
/-! DEFINITION. VIRT addresses (R17 to R40): TLBs, table walks, fault records and their rings, responses, ATS and PRI,
invalidations (R41 to R45), the hot-page tracker (R96). -/
namespace Sys2Proof.Machine

/-- An access of a copy box: core, command, box, access. -/
abbrev Who := Nat × Nat × Nat × Nat

/-! ### Translations (R22, R23, R26) -/

/-- The intermediate page of an address that the entry covers. -/
def Tlb.page (t : Tlb) (va : Nat) : Nat := t.ipage + (va - t.va) / 65536

/-- R26, R113: whether the entry translates `va` for an operation of (slot, gen). -/
def Tlb.covers (t : Tlb) (slot gen va : Nat) : Bool := t.slot == slot && t.gen == gen % 1024 && va / 2 ^ t.size == t.va / 2 ^ t.size
/-- R23, R25: whether it serves a read or a write; a write goes to a walk until D is set. -/
def Tlb.serves (t : Tlb) (wr : Bool) : Bool := if wr then t.wr && t.dirty else t.rd
def Tlb.out (t : Tlb) (va : Nat) : Nat := t.frame + va % 2 ^ t.size
/-- Where the bytes at `va` lie. A leaf with HOST = 1 names the host whatever its MODE. Log entry 112 (DESIGN CHOICE). -/
def Tlb.place (t : Tlb) (va : Nat) : Place :=
  let a := t.out va
  if t.host then .host a
  else match t.mode with
    | 0 => .hbm a
    | 2 => if t.cache then .cached t.peer a else .peer t.peer a
    | _ => .peer t.peer a

/-- R102: whether the translation names the lender block of a REVOKED borrow entry of the slot. Log entry 123 (DESIGN CHOICE). -/
def State.revoked (s : State) (t : Tlb) (va : Nat) : Bool :=
  !t.host && t.mode != 0 && s.pkg.borrows.any fun b =>
    b.2.st == 4 && b.2.slot == t.slot && b.2.ldev == t.peer && b.2.lblock == t.out va / 0x80000000

/-- One entry more in a set of `cap`; a full set gives one up. Log entry 10 (DESIGN CHOICE). -/
def addTlb (cap free : Nat) (mate : Tlb → Bool) (l : List Tlb) (t : Tlb) : List Tlb :=
  let l := l.filter fun x => !(x.slot == t.slot && x.gen == t.gen && x.va == t.va && x.size == t.size)
  let m := l.filter mate
  let out := if cap ≤ m.length then m[Config.victim free cap % m.length]? else none
  (match out with | some x => l.erase x | none => l) ++ [t]

/-- R26, R41: a translation enters the L1 TLB of a core, fully associative, which has then held an entry of the slot. -/
def State.fillL1 (s : State) (c : Nat) (t : Tlb) : State :=
  (s.mapCore c fun x => { x with l1 := addTlb 128 s.free (fun _ => true) x.l1 t, l1Held := addOnce t.slot x.l1Held }).tick
/-- R26: the set of an L2 entry. Log entry 10 (DESIGN CHOICE). -/
def Tlb.set (t : Tlb) : Nat := Config.tlbSet t.slot t.va % 1024
def State.fillL2 (s : State) (d : Nat) (t : Tlb) : State :=
  (s.mapDie d fun x => { x with l2 := addTlb 8 s.free (fun y => y.set == t.set) x.l2 t }).tick

/-! ### Asking for a translation (R28, R30) -/

def Die.walkOf (x : Die) (slot gen va : Nat) (wr : Bool) : Bool :=
  (x.walks ++ x.walkQ).any fun w => w.slot == slot && w.gen == gen && w.va / 65536 == va / 65536 && w.wr == wr
/-- A miss joins the walk of its page and direction; the page is the 64 KiB page of its address. Log entry 111 (DESIGN CHOICE). -/
def Walk.join (w : Walk) (slot gen va : Nat) (wr : Bool) (p : Who) : Walk :=
  if w.slot = slot ∧ w.gen = gen ∧ w.va / 65536 = va / 65536 ∧ w.wr = wr then { w with waiters := w.waiters ++ [p] } else w

/-- R28: 32 walks run on a die and 64 wait; with no room the access is tried again. A miss also joins a walk that waits. Log entry 111 (DESIGN CHOICE). -/
def State.startWalk (s : State) (slot gen va : Nat) (wr : Bool) (p : Who) : State :=
  let x := s.die (dieOfCore p.1)
  let fresh := !(x.walkOf slot gen va wr) && decide (x.walks.length < 32 ∨ x.walkQ.length < 64)
  let s := if fresh then s.countPerf p.1 slot gen 8 1 else s
  s.mapDie (dieOfCore p.1) fun x =>
    let w : Walk := { slot := slot, gen := gen, va := va, wr := wr, core := p.1, waiters := [p], dropped := false }
    if x.walkOf slot gen va wr then
      { x with walks := x.walks.map (·.join slot gen va wr p), walkQ := x.walkQ.map (·.join slot gen va wr p) }
    else if x.walks.length < 32 then { x with walks := x.walks ++ [w] }
    else if x.walkQ.length < 64 then { x with walkQ := x.walkQ ++ [w] }
    else x

/-- R30: ask the host to translate, unless its answer for the page and direction is due. -/
def State.askAts (s : State) (slot va : Nat) (wr : Bool) (p : Who) : State :=
  let q := va / 4096 * 4096
  if (s.fn slot).atsWait.any fun a => a.va == q && a.wr == wr then
    s.mapFn slot fun f => { f with atsWait := f.atsWait.map fun a =>
      if a.va = q ∧ a.wr = wr then { a with waiters := a.waiters ++ [p] } else a }
  else (s.mapFn slot fun f => { f with atsWait := f.atsWait ++ [⟨q, va, wr, 0, [p]⟩] }).send (.ats slot (s.ctxOf slot).pasid.toNat (va % 2 ^ 55))

/-- What translating a VIRT address comes to. -/
inductive Xl where
  | ok (p : Place) (t : Option Tlb)
  | held
  | fail (c : Code)

/-- R17 to R31, R45: translate `va` for access `p` of (slot, gen); `given` is the result of a walk or a completion that may not be
kept in a TLB. At a unit that has cut the lookup misses, and a miss of an old operation starts nothing (R123). Log entry 75 (DEDUCED). -/
def State.xlate (s : State) (given : Option Tlb) (p : Who) (slot gen va : Nat) (wr : Bool) : State × Xl :=
  let h := s.heapTriple p.1 slot
  let d := dieOfCore p.1
  let use (s : State) (t : Tlb) : State × Xl := if s.revoked t va then (s, .fail cLeaseRevoked) else (s, .ok (t.place va) (some t))
  let fits (t : Tlb) : Bool := t.covers slot gen va && t.serves wr
  if va ≥ 2 ^ 56 then (s, .fail cBound)
  else if h.1 ≤ va ∧ va < h.1 + h.2.1 then (s, .ok (.hbm (h.2.2 + (va - h.1))) none)
  else if bit va 55 && !(s.fn slot).atsEn then (s, .fail cAtsFault)
  else match given.filter fits with
    | some t => use s t
    | none => match if s.oldAtCore p.1 slot gen then none else (s.core p.1).l1.find? fits with
      | some t => use s t
      | none =>
        let s := s.countPerf p.1 slot gen 7 1
        match if s.oldAtDie d slot gen then none else (s.die d).l2.find? fits with
        | some t => use (s.fillL1 p.1 t) t
        | none =>
          if s.oldAtDie d slot gen then (s.countDrop slot, .fail cGenRetired)
          else if bit va 55 then (s.askAts slot va wr p, .held)
          else (s.startWalk slot gen va wr p, .held)

/-! ### The nested walk (R19 to R27) -/

def wNotPresent : Nat := 1
def wPermission : Nat := 2
def wBadPte : Nat := 3
def wOwner : Nat := 4
def wWalkError : Nat := 5
/-- Not a cause of R34: the entry lies at a frozen die, which refuses the read (R82). Log entry 27 (DEDUCED). -/
def wContained : Nat := 6

structure WFault where
  s2 : Bool
  cause : Nat
  level : Nat
  addr : Nat
deriving DecidableEq, Repr

/-- A set of A or D bits on the entry at `pa`, by slot `slot`. -/
structure Mark where
  slot : Nat
  pa : Nat
  m : Nat
deriving DecidableEq, Repr

/-- What a walk has read (address, value; zero where it met poison), which reads their holders dropped or refused (slot, generation,
address), and what it has to set so far. -/
structure WalkLog where
  reads : List (Nat × W64)
  notes : List (Nat × Nat × Nat)
  marks : List Mark
deriving DecidableEq, Repr

abbrev WalkM (α : Type) := WalkLog → Except WFault α × WalkLog

def WalkM.pure {α : Type} (a : α) : WalkM α := fun l => (.ok a, l)
def WalkM.bind {α β : Type} (x : WalkM α) (f : α → WalkM β) : WalkM β := fun l =>
  match x l with
  | (.ok a, l) => f a l
  | (.error e, l) => (.error e, l)
def WalkM.fail {α : Type} (s2 : Bool) (cause level addr : Nat) : WalkM α := fun l => (.error ⟨s2, cause, level, addr⟩, l)
def WalkM.mark (x : Mark) : WalkM Unit := fun l => (.ok (), { l with marks := l.marks ++ [x] })
def WalkM.guard (ok s2 : Bool) (cause level addr : Nat) : WalkM Unit := if ok then WalkM.pure () else WalkM.fail s2 cause level addr

/-- R20: the lowest index bit, index width and alignment of the table of a level. -/
def lvShift (l : Nat) : Nat := match l with | 1 => 39 | 2 => 30 | 3 => 21 | _ => 16
def lvBits (s2 : Bool) (l : Nat) : Nat := match l with | 1 => if s2 then 9 else 16 | 2 => 9 | 3 => 9 | _ => 5
def lvAlign (l : Nat) : Nat := match l with | 2 => 4096 | 3 => 4096 | _ => 256

/-- R22: FRAME and the bits of it that a leaf of a level must hold zero. -/
def lfFrame (v : Nat) : Nat := bits v 16 32 * 65536
def lfMode (v : Nat) : Nat := bits v 52 2
def lfPeer (v : Nat) : Nat := bits v 54 10
def lfThr (v : Nat) : Nat := bits v 48 4
def lfHost (v : Nat) : Bool := bit v 7
/-- R22: the layout of a leaf of a level; `last` when PEER, MODE, THR, PIN and HOST are taken from it. -/
def leafOk (last : Bool) (l v : Nat) : Bool :=
  decide (l ≠ 1) && bits v 12 4 == 0 && bits v 4 3 == 0 && lfFrame v % 2 ^ lvShift l == 0 &&
    (if last then (lfMode v != 0 || lfPeer v == 0) && (lfMode v == 3 || lfThr v == 0)
     else lfPeer v == 0 && lfMode v == 0 && lfThr v == 0 && !(bit v 10) && !(lfHost v))

/-- A leaf found: its value, its address, its level, and the leaf behind its table (R25). -/
structure Leaf where
  v : Nat
  pa : Nat
  level : Nat
  under : Option Nat
deriving DecidableEq, Repr

/-- R27: a core of the die through whose bay cache its walkers read an entry. Log entry 97 (DESIGN CHOICE). -/
def walkCore (d pa : Nat) : Nat := d * 48 + 8 * (Config.walkBay pa % 6)

/-- The slot and generation of a read of a table: a stage-2 table is slot 0's, whose generation is always 0. -/
def walkAs (s2 : Bool) (slot gen : Nat) : Nat × Nat := if s2 then (0, 0) else (slot, gen)

/-- R433, R114, R79: read the entry at `pa`, from the die's walk cache if it is there. A read that its holders drop or refuse gives
zero (R92, R122, R123). Log entry 49 (DEDUCED). -/
def State.readEntry (s : State) (d slot gen : Nat) (s2 : Bool) (pa level addr : Nat) : WalkM Nat := fun l =>
  match (s.die d).walkCache.find? fun e => e.slot == slot && e.gen == gen % 1024 && e.addr == pa with
  | some e => (.ok e.val.toNat, l)
  | none =>
    let o := walkAs s2 slot gen
    let t := tagOf o.1 o.2
    if s.frozen (dieOfPa pa) then (.error ⟨s2, wContained, level, addr⟩, l)
    else if s.coreOk (walkCore d pa) o.1 o.2 [] false (.hbm pa) 0 = false then (.ok 0, { l with notes := l.notes ++ [(o.1, o.2, pa)] })
    else
      let m := s.memSeen (walkCore d pa) [pa / 64]
      if m.bad false t pa 8 then (.error ⟨s2, wWalkError, level, addr⟩, { l with reads := l.reads ++ [(pa, 0)] })
      else
        let v := ofLe (m.read false t pa 8)
        (.ok v, { l with reads := l.reads ++ [(pa, BitVec.ofNat 64 v)] })

/-- The levels of one stage from table `base`; `tab` gives an entry's device-physical address and the leaf behind it. -/
def State.levels (s : State) (d slot gen : Nat) (s2 last : Bool) (tab : Nat → Nat → WalkM (Nat × Option Nat)) (addr : Nat) :
    List Nat → Nat → WalkM Leaf
  | [], _ => WalkM.fail s2 wBadPte 4 addr
  | l :: ls, base =>
    let bad : WalkM Leaf := WalkM.fail s2 wBadPte l addr
    WalkM.bind (tab l (base + 8 * bits addr (lvShift l) (lvBits s2 l))) fun e =>
    WalkM.bind (s.readEntry d slot gen s2 e.1 l addr) fun v =>
      if bit v 0 = false then WalkM.fail s2 wNotPresent l addr
      else if bit v 1 then if leafOk last l v then WalkM.pure ⟨v, e.1, l, e.2⟩ else bad
      else
        let next := bits v 8 40 * 256
        if l = 4 ∨ bits v 48 16 ≠ 0 ∨ bits v 2 6 ≠ 0 ∨ next % lvAlign (l + 1) ≠ 0 then bad
        else s.levels d slot gen s2 last tab addr ls next

/-- R25: an entry in a block of slot 0. -/
def State.tabAdmin (s : State) (d : Nat) (s2 : Bool) (addr l pa : Nat) : WalkM (Nat × Option Nat) :=
  WalkM.bind (WalkM.guard (s.ownerFor d (pa / 0x80000000) == 0) s2 wWalkError l addr) fun _ => WalkM.pure (pa, none)

/-- Stage 2 of an intermediate address. -/
def State.stage2 (s : State) (d slot gen ipa : Nat) : WalkM Leaf :=
  s.levels d slot gen true true (s.tabAdmin d true ipa) ipa [1, 2, 3, 4] (s.ctxOf slot).s2Root.toNat

/-- R25: a stage-1 entry of a slot from 1 to 63: through a stage-2 leaf of local, writable memory in a block of the slot. -/
def State.tabGuest (s : State) (d slot gen _l ipa : Nat) : WalkM (Nat × Option Nat) :=
  WalkM.bind (s.stage2 d slot gen ipa) fun f =>
    let pa := lfFrame f.v + ipa % 2 ^ lvShift f.level
    let ok := lfMode f.v == 0 && !(lfHost f.v) && bit f.v 3 && s.ownerFor d (pa / 0x80000000) == slot
    WalkM.bind (WalkM.guard ok true wWalkError f.level ipa) fun _ =>
    WalkM.bind (if bit f.v 8 then WalkM.pure () else WalkM.mark ⟨0, f.pa, 0x100⟩) fun _ =>
      WalkM.pure (pa, if bit f.v 9 then none else some f.pa)

/-- R25: A, and D on a write, of a leaf that serves the access; setting them in a guest's table is a write through the leaf
behind it. Log entry 49 (DEDUCED). -/
def Leaf.mark (f : Leaf) (slot : Nat) (wr : Bool) : WalkM Unit :=
  let m := (if bit f.v 8 then 0 else 0x100) + (if wr && !(bit f.v 9) then 0x200 else 0)
  if m = 0 then WalkM.pure ()
  else WalkM.bind (WalkM.mark ⟨slot, f.pa, m⟩) fun _ => match f.under with
    | some pa => WalkM.mark ⟨0, pa, 0x200⟩
    | none => WalkM.pure ()

/-- The whole walk of `va`. A leaf that denies the access is reported before the owner of what it names is looked at, and a stage-1
leaf before stage 2 is walked. Log entry 98 (DESIGN CHOICE). -/
def State.walk (s : State) (d slot gen va : Nat) (wr : Bool) : WalkM Tlb :=
  let c := s.ctxOf slot
  let need := if wr then 3 else 2
  let tab := if slot = 0 then s.tabAdmin d false va else s.tabGuest d slot gen
  if c.s1Root = 0 then WalkM.fail false wNotPresent 1 va
  else
    WalkM.bind (s.levels d slot gen false (slot == 0) tab va [1, 2, 3, 4] c.s1Root.toNat) fun f =>
    WalkM.bind (WalkM.guard (bit f.v need) false wPermission f.level va) fun _ =>
    let sh1 := lvShift f.level
    let ipa := lfFrame f.v + va % 2 ^ sh1
    let fin (g : Leaf) (s2 : Bool) (addr out size : Nat) : WalkM Tlb :=
      let o := s.ownerFor d (out / 0x80000000)
      let ok := lfMode g.v != 0 || lfHost g.v || (if s2 then o == slot else decide (o < 64))
      WalkM.bind (WalkM.guard ok s2 wOwner g.level addr) fun _ =>
      WalkM.bind (f.mark slot wr) fun _ =>
      WalkM.bind (if s2 then g.mark 0 wr else WalkM.pure ()) fun _ =>
        WalkM.pure
          { slot := slot, gen := gen % 1024, va := va / 2 ^ size * 2 ^ size, size := size, frame := out / 2 ^ size * 2 ^ size,
            mode := lfMode g.v, peer := lfPeer g.v, thr := lfThr g.v, host := lfHost g.v, pin := bit g.v 10,
            cache := bit f.v 11 && bit g.v 11, rd := bit f.v 2 && bit g.v 2, wr := bit f.v 3 && bit g.v 3,
            dirty := wr || (bit f.v 9 && bit g.v 9), ipage := (ipa - va % 2 ^ size) / 65536,
            leaf := g.pa }
    if slot = 0 then fin f false va ipa sh1
    else
      WalkM.bind (s.stage2 d slot gen ipa) fun g =>
      WalkM.bind (WalkM.guard (bit g.v need) true wPermission g.level ipa) fun _ =>
        let sh2 := lvShift g.level
        fin g true ipa (lfFrame g.v + ipa % 2 ^ sh2) (min sh1 sh2)

/-- R25: the atomic OR on an entry, where its holder takes it (R92, R122, R123); a frozen die takes none (R82). Log entries 27 (DEDUCED),
49 (DEDUCED). -/
def State.setMark (s : State) (gen : Nat) (m : Mark) : State :=
  if s.placeFrozen (.hbm m.pa) then s else
  let o := walkAs (m.slot == 0) m.slot gen
  let t := tagOf o.1 o.2
  let v := ofLe (s.hbm.read false t m.pa 8)
  if s.allowedAt o.1 o.2 (.hbm m.pa) 0 then s.memSet false t (cellsAt m.pa (leBytes 8 (v ||| m.m)))
  else s.noteAccess o.1 o.2 (.hbm m.pa) 8 1

/-- R27, R92, R122: the reads that a walk made: what it read enters the bay cache, what its holders dropped or refused is counted. -/
def State.walkReads (s : State) (d : Nat) (l : WalkLog) : State :=
  let s := l.notes.foldl (fun s r => s.noteBy r.1 (s.coreCut (walkCore d r.2.2) r.1 r.2.1 [] false (.hbm r.2.2)) (.hbm r.2.2) 8 0) s
  l.reads.foldl (fun s r => s.bayFetch (walkCore d r.1) (r.1 / 64)) s

/-- R433: the walk cache takes the entries read with V = 1, with the bits that the walk set in them. -/
def State.cacheReads (s : State) (d slot gen : Nat) (l : WalkLog) : State :=
  let val (r : Nat × W64) : W64 := l.marks.foldl (fun v m => if m.pa = r.1 then v ||| BitVec.ofNat 64 m.m else v) r.2
  (l.reads.filter fun r => r.2.getLsbD 0).foldl (fun s r => (s.mapDie d fun x =>
    let c := x.walkCache.filter fun e => !(e.slot == slot && e.gen == gen % 1024 && e.addr == r.1)
    let c := if c.length < 512 then c else removeAt c (Config.victim s.free 512 % 512)
    { x with walkCache := c ++ [⟨slot, gen % 1024, r.1, val r⟩] }).tick) s

/-! ### Fault records (R33 to R36, R434) -/

def State.mapFRec (s : State) (d : Nat) (p : FRec → Bool) (f : FRec → FRec) : State :=
  s.mapDie d fun x => { x with frecs := x.frecs.map fun r => if p r then f r else r }

/-- R434: the lowest record index of the die that no record holds; 1,024 when none is free (R36). -/
def Die.freeIx (x : Die) : Nat := (firstBelow 1024 fun i => x.frecs.all (·.ix != i)).getD 1024

/-- R35: accesses held on a fault: on the outstanding record of the same slot, stage, page and direction, or a new one. -/
def State.recordFault (s : State) (d : Nat) (w : Walk) (f : WFault) : State :=
  let same (r : FRec) : Bool := r.slot == w.slot && r.gen == w.gen && r.stage2 == f.s2 && r.addr / 65536 == f.addr / 65536 && r.wr == w.wr
  if (s.die d).frecs.any same then s.mapFRec d same fun r => { r with waiters := r.waiters ++ w.waiters }
  else
    let p := w.waiters.headD (w.core, 0, 0, 0)
    s.mapDie d fun x => { x with frecs := x.frecs ++
      [{ ix := x.freeIx, slot := w.slot, gen := w.gen, stage2 := f.s2, hostRing := f.s2, addr := f.addr, cause := f.cause, wr := w.wr,
         level := f.level, core := p.1, seq := p.2.1, box := p.2.2.1, waiters := w.waiters, written := false }] }

/-- A record is retired; the oldest that waits for an index takes one. -/
def Die.dropRec (x : Die) (r : FRec) : Die :=
  let x := { x with frecs := x.frecs.filter (· != r) }
  match x.frecs.find? (·.ix == 1024) with
  | none => x
  | some q => { x with frecs := x.frecs.map fun y => if y = q then { y with ix := x.freeIx } else y }

/-- R39, R36: the records of a slot go, and those that wait take the indexes that come free. -/
def Die.dropRecsOf (x : Die) (slot : Nat) : Die :=
  let x := { x with frecs := x.frecs.filter fun r => !(r.slot == slot && r.ix == 1024) }
  (x.frecs.filter (·.slot == slot)).foldl (fun x r => x.dropRec r) x

/-- R33: the fault and response rings. -/
def Fn.faultRing (f : Fn) (host : Bool) : Ring := if host then f.hFault else f.gFault
def Fn.respRing (f : Fn) (host : Bool) : Ring := if host then f.hResp else f.gResp
def Ring.on (r : Ring) : Bool := ringOn r.size 6 16

/-- R34. -/
def FRec.bytes (r : FRec) (d : Nat) (phase : Bool) : List Byte :=
  leBytes 8 r.addr ++ leBytes 2 (d * 2 ^ 14 + r.ix) ++ leBytes 1 r.cause ++
    leBytes 1 ((if r.wr then 1 else 0) + (if r.stage2 then 2 else 0) + (r.level - 1) * 16) ++ leBytes 1 r.slot ++
    leBytes 1 (coreByte r.core) ++ leBytes 2 r.gen ++ leBytes 4 r.seq ++ leBytes 4 r.box ++ leBytes 4 r.waiters.length ++ leBytes 3 0 ++
    leBytes 1 (if phase then 1 else 0)

/-- FAULT_RECORD_WRITE (R34, R36, R434): the record goes to its ring once there is room and no earlier one of the die waits for
that ring. -/
def execFaultRecordWrite (die rec : Nat) (s : State) : Out :=
  .next (match (s.die die).frecs.find? (fun r => r.ix == rec && !r.written) with
    | none => s
    | some r =>
      let g := (s.fn r.slot).faultRing r.hostRing
      let first := ((s.die die).frecs.find? fun q => !q.written && q.slot == r.slot && q.hostRing == r.hostRing) == some r
      if rec ≥ 1024 ∨ first = false ∨ g.on = false ∨ (g.pi - g.ci).toNat ≥ 2 ^ g.size then s
      else
        let s := s.hostWrite (g.base.toNat + g.pi.toNat % 2 ^ g.size * 32) (r.bytes die (!(bit g.pi.toNat g.size)))
        let s := s.mapFn r.slot fun f =>
          if r.hostRing then { f with hFault := { f.hFault with pi := f.hFault.pi + 1 } }
          else { f with gFault := { f.gFault with pi := f.gFault.pi + 1 } }
        let s := s.mapFRec die (· == r) fun r => { r with written := true }
        if r.hostRing then s.signal 0 7 else s.signal r.slot 5)

/-! ### Response records (R37, R38, R432) -/

def Fn.takeResp (f : Fn) (host : Bool) : Fn :=
  if host then { f with hResp := { f.hResp with ci := f.hResp.ci + 1 } } else { f with gResp := { f.gResp with ci := f.gResp.ci + 1 } }

/-- The response at the consumer index, if there is one. -/
def State.nextResp (s : State) (k : Nat) (host : Bool) : Option Nat :=
  let g := (s.fn k).respRing host
  if g.on = false ∨ g.pi = g.ci then none else some (ofLe (s.hostRead (g.base.toNat + g.ci.toNat % 2 ^ g.size * 8) 8))

/-- The outstanding record of a ring that a TAG names: die and record. Log entry 54 (DEDUCED). -/
def State.recOf (s : State) (k : Nat) (host : Bool) (tag : Nat) : Option (Nat × FRec) :=
  if bits tag 10 4 ≠ 0 then none
  else
    let d := bits tag 14 2
    ((s.die d).frecs.find? fun r => r.ix == bits tag 0 10 && r.slot == k && r.hostRing == host && r.written).map fun r => (d, r)

/-- R38: what a response does: `none` where it is ignored, else whether it is FAIL, and the record. Log entry 54 (DEDUCED). -/
def State.respMeans (s : State) (k : Nat) (host : Bool) (x : Nat) : Option (Bool × Nat × FRec) :=
  if bits x 24 40 ≠ 0 ∨ bits x 16 8 > 1 then none else (s.recOf k host (bits x 0 16)).map fun r => (bits x 16 8 == 1, r.1, r.2)

/-- R38, R452: an ignored response is counted and posted. -/
def State.ignoreResp (s : State) (k : Nat) (host : Bool) : State :=
  (s.mapFn k fun f => { f.takeResp host with ignored := f.ignored + 1 }).event 0 0x5E k [k]

/-- R38: the responses at the head that are ignored, at most `n`. -/
def ignoreLeading (k : Nat) (host : Bool) : Nat → State → State
  | 0, s => s
  | n + 1, s => match s.nextResp k host with
    | none => s
    | some x => if (s.respMeans k host x).isNone then ignoreLeading k host n (s.ignoreResp k host) else s

/-- A response ring's producer index takes a value, after which the device reads the new responses (R33). -/
def State.ringBell (s : State) (fn : Nat) (host : Bool) (pi : BitVec 32) : State :=
  let s := s.mapFn fn fun f => if host then { f with hResp := { f.hResp with pi := pi } } else { f with gResp := { f.gResp with pi := pi } }
  let g := (s.fn fn).respRing host
  ignoreLeading fn host (min (g.pi - g.ci).toNat (2 ^ g.size)) s
/-- RESPONSE_RING_DOORBELL (R33, R432, R437, R442): the PF writes the host ring's. -/
def execResponseRingDoorbell (fn : Nat) (host : Bool) (pi : BitVec 32) (s : State) : Out :=
  .next (if fn > 63 ∨ s.shut fn ∨ (host ∧ s.shut 0) then s else s.ringBell fn host pi)

/-! ### Invalidation (R41 to R45, R333) -/

/-- R333: whether an invalidation matches a translation. -/
def Tlbi.hits (x : Tlbi) (t : Tlb) : Bool := t.slot == x.slot && (x.all || (decide (t.va < x.hi) && decide (x.lo < t.va + 2 ^ t.size)))

/-- R41, R333: invalidations of one slot complete in posting order. -/
def settleList : List Tlbi → List Nat → State → State × List Tlbi
  | [], _, s => (s, [])
  | x :: l, stuck, s =>
    if x.dies.isEmpty && x.cores.isEmpty && !(stuck.contains x.slot) then
      settleList l stuck (s.mapCtx x.slot fun c => { c with tlbiDone := BitVec.ofNat 64 x.n })
    else let r := settleList l (x.slot :: stuck) s; (r.1, x :: r.2)

def State.settleTlbi (s : State) : State :=
  let r := settleList s.pkg.tlbis [] s
  r.1.mapPkg fun p => { p with tlbis := r.2 }

/-- TLBI_L2_DROP (R41): invalidation `k` of the list at a die. -/
def execTlbiL2Drop (die k : Nat) (s : State) : Out :=
  .next (match s.pkg.tlbis[k]? with
    | none => s
    | some x =>
      if x.dies.contains die = false then s
      else
        let s := s.mapDie die fun y => { y with
          l2 := y.l2.filter fun t => !(x.hits t)
          walkCache := y.walkCache.filter (·.slot != x.slot)
          walks := y.walks.map fun w => { w with dropped := true } }
        (s.mapPkg fun p => { p with tlbis := updAt p.tlbis k fun x => { x with dies := x.dies.filter (· != die) } }).settleTlbi)

/-- R41, R42: core `c` drops the entries that its pending invalidations match and acknowledges them all; the mark that it has held an entry
of another slot stays. Log entry 120 (DESIGN CHOICE). -/
def State.ackTlbi (s : State) (c : Nat) : State :=
  let mine := s.pkg.tlbis.filter (·.cores.contains c)
  let keep (t : Tlb) : Bool := mine.all fun x => !(x.hits t)
  let s := s.mapCore c fun x =>
    let l := x.l1.filter keep
    { x with
      l1 := l
      l1Held := x.l1Held.filter fun k => mine.all (·.slot != k) || l.any (·.slot == k)
      qpt := false
      qptBy := []
      qptAt := none
      cq := x.cq.map fun k => { k with hold := false }
      forced := [] }
  (s.mapPkg fun p => { p with tlbis := p.tlbis.map fun x => { x with cores := x.cores.filter (· != c) } }).settleTlbi

/-- R43: a forced acknowledgement, counted and posted for each slot of which an invalidation has expired. -/
def State.ackForced (s : State) (c : Nat) (l : List Nat) : State :=
  l.foldl (fun s k => (s.mapCtx k fun x => { x with tlbiForced := x.tlbiForced + 1 }).event (dieOfCore c) 0x5D k [k, coreByte c]) (s.ackTlbi c)

/-! ### Hot pages (R96): what is offered is the device's -/

/-- R96: an access at `va` through a MODE 0b11 leaf is counted at the die's tracker. Log entry 10 (DESIGN CHOICE). -/
def State.countHot (s : State) (d : Nat) (t : Tlb) (va : Nat) : State :=
  if t.mode ≠ 3 ∨ t.host then s
  else
    let x := s.die d
    let page := t.page va
    let n := match x.hot.find? fun h => h.slot == t.slot && h.page == page with
      | some h => h.count + 1
      | none => 1
    let off := s.pkg.offered.any fun o => o.1 == t.slot && o.2.1 == page
    let hit := decide (2 ^ t.thr ≤ n)
    let rest := x.hot.filter fun h => !(h.slot == t.slot && h.page == page)
    let rest := if rest.length < 1024 then rest else removeAt rest (Config.victim s.free 1024 % 1024)
    let s := (s.mapDie d fun y => { y with
      hot := rest ++ [⟨t.slot, page, if hit then 0 else n⟩] }).tick
    if hit = false then s
    else if t.pin then s.event d 0x56 t.slot [t.slot, page]
    else if off then s
    else (s.mapPkg fun p => { p with offered := p.offered ++ [(t.slot, page, t.leaf)] }).event d 0x55 t.slot [t.slot, page, n]

/-- R96: a page that another leaf serves since its offer may be offered again. -/
def State.reoffer (s : State) (t : Tlb) : State :=
  s.mapPkg fun p => { p with offered := p.offered.filter fun o =>
    !(o.1 == t.slot && decide (t.ipage ≤ o.2.1) && decide ((o.2.1 - t.ipage) * 65536 < 2 ^ t.size) && o.2.2 != t.leaf) }

end Sys2Proof.Machine
end

