-- ==== Sys2Proof/Machine/VecArith.lean ====
section
/-! DEFINITION. The arithmetic of vector elements: types, element-wise functions, comparison, conversion, reductions and dot
products (R284, R342 to R351). An element function gives the result's bits and the flags it raises. -/
namespace Sys2Proof.Machine

/-! ### Types (R284, R335) -/

def tyInt (ty : Nat) : Bool := decide (ty ≤ 7)
def tySigned (ty : Nat) : Bool := ty % 2 == 0 && tyInt ty
def tyFpw (ty : Nat) : Bool := decide (8 ≤ ty) && decide (ty ≤ 11)
def tyF8 (ty : Nat) : Bool := ty == 12 || ty == 13
def tyFmt (ty : Nat) : Fmt :=
  match ty with
  | 8 => fmt16
  | 9 => fmtBf
  | 10 => fmt32
  | 11 => fmt64
  | 12 => fmtE4
  | _ => fmtE5
/-- Bits of an element. -/
def tyW (ty : Nat) : Nat := 8 * tyBytes ty
/-- The integer that an element of an integer type stands for. -/
def tyVal (ty x : Nat) : Int := if tySigned ty then toI (tyW ty) x else (x % 2 ^ tyW ty : Nat)
/-- The bounds of an integer type. -/
def tyMin (ty : Nat) : Int := if tySigned ty then -(2 ^ (tyW ty - 1)) else 0
def tyMax (ty : Nat) : Int := if tySigned ty then 2 ^ (tyW ty - 1) - 1 else 2 ^ tyW ty - 1
/-- R343: an exact integer wrapped, or clamped to the type's range. -/
def tyFit (ty : Nat) (sat : Bool) (v : Int) : Nat :=
  ofI (tyW ty) (if sat then (if v < tyMin ty then tyMin ty else if v > tyMax ty then tyMax ty else v) else v)

/-- Element `e` of width `w`. -/
def elem (w : Nat) (v : VReg) (e : Nat) : Nat := bits v.toNat (w * e) w
/-- R335: whether element `e` of width `w` is enabled. -/
def laneOn (mask : W64) (w e : Nat) : Bool := bit mask.toNat (w * e / 32)
/-- The enabled elements of width `w`. -/
def lanes (mask : W64) (w : Nat) : List Nat := (List.range (2048 / w)).filter (laneOn mask w)
/-- The register mask of elements, and the register that holds their values. -/
def laneMask (w : Nat) (l : List Nat) : VReg := BitVec.ofNat 2048 (l.foldl (fun r e => r + (2 ^ w - 1) * 2 ^ (w * e)) 0)
def laneVal (w : Nat) (l : List (Nat × Nat)) : VReg := BitVec.ofNat 2048 (l.foldl (fun r e => r + e.2 % 2 ^ w * 2 ^ (w * e.1)) 0)

/-- A result of elements: their numbers, values and flags. -/
abbrev Elems := List (Nat × Nat × Nat)
def Elems.flags (l : Elems) : Nat := l.foldl (fun f e => f ||| e.2.2) 0
/-- R336: the write of computed elements into a register. -/
def Elems.wr (l : Elems) (n w : Nat) : Wr :=
  .vreg n (laneMask w (l.map (·.1))) (laneVal w (l.map fun e => (e.1, e.2.1))) (decide (l.length = 2048 / w))

/-! ### Element functions (R342, R343) -/

def vaddE (ty rm : Nat) (sat : Bool) (a b : Nat) : Nat × Nat :=
  if tyInt ty then (tyFit ty sat (tyVal ty a + tyVal ty b), 0) else (tyFmt ty).add rm ((tyFmt ty).decode a) ((tyFmt ty).decode b)
def vsubE (ty rm : Nat) (sat : Bool) (a b : Nat) : Nat × Nat :=
  if tyInt ty then (tyFit ty sat (tyVal ty a - tyVal ty b), 0) else (tyFmt ty).add rm ((tyFmt ty).decode a) ((tyFmt ty).decode b).flip
def vmulE (ty rm : Nat) (sat : Bool) (a b : Nat) : Nat × Nat :=
  if tyInt ty then (tyFit ty sat (tyVal ty a * tyVal ty b), 0) else (tyFmt ty).mul rm ((tyFmt ty).decode a) ((tyFmt ty).decode b)
def vfmaE (ty rm : Nat) (a b c : Nat) : Nat × Nat :=
  (tyFmt ty).fma rm ((tyFmt ty).decode a) ((tyFmt ty).decode b) ((tyFmt ty).decode c)
def vfmsE (ty rm : Nat) (a b c : Nat) : Nat × Nat :=
  (tyFmt ty).fma rm ((tyFmt ty).decode a) ((tyFmt ty).decode b) ((tyFmt ty).decode c).flip

/-- R343: -0 lies below +0. -/
def FVal.below (x y : FVal) : Bool := x.lt y || (x.isZero && y.isZero && x.neg? && !y.neg?)
/-- R343: the smaller (or larger) of two floating elements. -/
def fpPick (f : Fmt) (big : Bool) (a b : Nat) : Nat × Nat :=
  let x := f.decode a
  let y := f.decode b
  let fl := if x.isSnan || y.isSnan then fNV else 0
  if x.isNan && y.isNan then (f.nan, fl)
  else if x.isNan then (b, fl)
  else if y.isNan then (a, fl)
  else (if (if big then FVal.below x y else FVal.below y x) then b else a, fl)
def vminE (ty a b : Nat) : Nat × Nat :=
  if tyInt ty then (if tyVal ty b < tyVal ty a then b else a, 0) else fpPick (tyFmt ty) false a b
def vmaxE (ty a b : Nat) : Nat × Nat :=
  if tyInt ty then (if tyVal ty a < tyVal ty b then b else a, 0) else fpPick (tyFmt ty) true a b
/-- R343: the absolute value, and the negation, of a floating element. -/
def fpSign (f : Fmt) (g : Bool → Bool) (a : Nat) : Nat :=
  if (f.decode a).isNan then f.nan else a % 2 ^ (f.width - 1) + f.signBit (g (bit a (f.width - 1)))
def vabsE (ty : Nat) (sat : Bool) (a : Nat) : Nat × Nat :=
  (if tyInt ty then tyFit ty sat (tyVal ty a).natAbs else fpSign (tyFmt ty) (fun _ => false) a, 0)
def vnegE (ty : Nat) (sat : Bool) (a : Nat) : Nat × Nat :=
  (if tyInt ty then tyFit ty sat (-(tyVal ty a)) else fpSign (tyFmt ty) (fun b => !b) a, 0)
def vshlE (ty a b : Nat) : Nat × Nat := (a * 2 ^ (b % tyW ty) % 2 ^ tyW ty, 0)
def vshrE (ty a b : Nat) : Nat × Nat := (a / 2 ^ (b % tyW ty), 0)
def vsarE (ty a b : Nat) : Nat × Nat := (ofI (tyW ty) (toI (tyW ty) a / 2 ^ (b % tyW ty)), 0)
def vclmulE (ty opx a b : Nat) : Nat × Nat := (clmul (tyW ty) a b / (if opx = 0 then 1 else 2 ^ tyW ty) % 2 ^ tyW ty, 0)
def vpopcE (ty a : Nat) : Nat × Nat := (popc (tyW ty) a, 0)
def vmulhE (ty a b : Nat) : Nat × Nat := (ofI (tyW ty) (tyVal ty a * tyVal ty b / 2 ^ tyW ty), 0)
/-- R343: VROUND never sets NX. -/
def vroundE (ty rm a : Nat) : Nat × Nat := let r := (tyFmt ty).roundIntegral rm a; (r.1, r.2 % 16)
def vrcpE (ty rm a : Nat) : Nat × Nat := (tyFmt ty).rcp rm ((tyFmt ty).decode a)
def vrsqE (ty rm a : Nat) : Nat × Nat := (tyFmt ty).rsqrt rm ((tyFmt ty).decode a)
def vsqrtE (ty rm a : Nat) : Nat × Nat := (tyFmt ty).sqrt rm ((tyFmt ty).decode a)
def vexp2E (ty rm a : Nat) : Nat × Nat := (tyFmt ty).exp2 rm ((tyFmt ty).decode a)
def vlog2E (ty rm a : Nat) : Nat × Nat := (tyFmt ty).log2 rm ((tyFmt ty).decode a)

/-! ### Compare and classify (R345, R346) -/

def vcmpE (ty c a b : Nat) : Bool × Nat :=
  if tyInt ty then
    let x := tyVal ty a
    let y := tyVal ty b
    (match c with
      | 0 => x == y
      | 1 => x != y
      | 2 => decide (x < y)
      | 3 => decide (x ≤ y)
      | 4 => decide (y < x)
      | _ => decide (y ≤ x), 0)
  else
    let x := (tyFmt ty).decode a
    let y := (tyFmt ty).decode b
    let nan := x.isNan || y.isNan
    let sig := x.isSnan || y.isSnan
    let quiet := c == 0 || c == 1 || c == 6 || c == 7
    (match c with
      | 0 => x.eqv y
      | 1 => !(x.eqv y)
      | 2 => x.lt y
      | 3 => !nan && !(y.lt x)
      | 4 => y.lt x
      | 5 => !nan && !(x.lt y)
      | 6 => nan
      | _ => !nan, if sig || (nan && !quiet) then fNV else 0)

def vclassE (ty a : Nat) : Nat × Nat :=
  let f := tyFmt ty
  let sub (m : Nat) : Bool := decide (m < 2 ^ f.fb)
  (match f.decode a with
    | .nan true => 8
    | .nan false => 9
    | .inf true => 0
    | .inf false => 7
    | .num true m _ => if m = 0 then 3 else if sub m then 2 else 1
    | .num false m _ => if m = 0 then 4 else if sub m then 5 else 6, 0)

/-! ### Conversion (R347, R348) -/

/-- R348: whether the cell of the table lists the SATM value. -/
def satmOk (dst src satm : Nat) : Bool :=
  if tyInt dst then (if tyInt src then decide (satm ≤ 1) else satm == 0)
  else if tyF8 dst then decide (satm ≤ 2)
  else decide (satm ≤ 1)

/-- R348: one element converted; to its own type a value is returned as it is, an infinity also under saturation. Log entry 124 (DEDUCED). -/
def vcvtE (dst src rm satm a : Nat) : Nat × Nat :=
  let v : FVal := if tyInt src then .num (decide (tyVal src a < 0)) (tyVal src a).natAbs 0 else (tyFmt src).decode a
  if tyInt dst then
    if tyInt src then (tyFit dst (satm == 1) (tyVal src a), 0) else toIntType (tyW dst) (tySigned dst) rm v
  else if dst = src then if v.isNan then ((tyFmt dst).nan, if v.isSnan then fNV else 0) else (a, 0)
  else if tyInt src && tyVal src a == 0 then (0, 0)
  else (tyFmt dst).convert rm (if tyF8 dst then satm != 2 else satm == 1) v

/-! ### Reductions (R350) -/

/-- The combination of OPX. -/
def combineE (ty rm opx a b : Nat) : Nat × Nat :=
  match opx with
  | 0 => vaddE ty rm false a b
  | 1 => vminE ty a b
  | 2 => vmaxE ty a b
  | 3 => (a &&& b, 0)
  | 4 => (a ||| b, 0)
  | _ => (a ^^^ b, 0)

/-- A floating value that is not combined: canonical if it is a NaN. -/
def passE (ty a : Nat) : Nat × Nat :=
  if tyInt ty then (a, 0)
  else match (tyFmt ty).decode a with
    | .nan s => ((tyFmt ty).nan, if s then fNV else 0)
    | _ => (a, 0)

/-- The value when no element is enabled. -/
def emptyE (ty opx : Nat) : Nat :=
  let f := tyFmt ty
  match opx with
  | 0 => 0
  | 1 => if tyInt ty then ofI (tyW ty) (tyMax ty) else f.infBits
  | 2 => if tyInt ty then ofI (tyW ty) (tyMin ty) else f.signBit true + f.infBits
  | 3 => 2 ^ tyW ty - 1
  | _ => 0

/-- One level of the tree: neighbours combine where both are present. -/
def pairUp (g : Nat → Nat → Nat × Nat) : List (Option Nat) → List (Option Nat) × Nat
  | some a :: some b :: t => let r := pairUp g t; let c := g a b; (some c.1 :: r.1, c.2 ||| r.2)
  | some a :: none :: t => let r := pairUp g t; (some a :: r.1, r.2)
  | none :: y :: t => let r := pairUp g t; (y :: r.1, r.2)
  | l => (l, 0)

/-- The tree, `k` levels. -/
def treeE (g : Nat → Nat → Nat × Nat) : Nat → List (Option Nat) → Option Nat × Nat
  | 0, l => (l.head?.join, 0)
  | k + 1, l => let r := pairUp g l; let s := treeE g k r.1; (s.1, r.2 ||| s.2)

def vreduceE (ty rm opx : Nat) (mask : W64) (v : VReg) : Nat × Nat :=
  let w := tyW ty
  let r := treeE (combineE ty rm opx) 8 ((List.range (2048 / w)).map fun e => if laneOn mask w e then some (elem w v e) else none)
  match r.1 with
  | none => (emptyE ty opx, 0)
  | some x => let p := passE ty x; (p.1, r.2 ||| p.2)

/-- The running results of VSCAN over the enabled elements. -/
def scanE (ty rm opx : Nat) (v : VReg) : Option Nat → List Nat → Elems
  | _, [] => []
  | acc, e :: t =>
    let x := elem (tyW ty) v e
    let r := match acc with
      | none => passE ty x
      | some a => combineE ty rm opx a x
    let seen := match acc with
      | none => x
      | some _ => r.1
    (e, r.1, r.2) :: scanE ty rm opx v (some seen) t

/-! ### Dot products (R351) -/

/-- The exact sum of terms, rounded once. Log entry 33 (DEDUCED). -/
def sumRound (f : Fmt) (rm : Nat) (l : List FVal) : Nat × Nat :=
  let nums := l.filterMap fun x => match x with | .num n m e => some (n, m, e) | _ => none
  let q := nums.foldl (fun q x => min q x.2.2) 0
  let v := nums.foldl (fun a x => a + scaled x.1 x.2.1 x.2.2 q) (0 : Int)
  if v = 0 then
    (f.signBit (if nums.all (fun x => x.2.1 == 0 && x.1) then true else if nums.all (fun x => x.2.1 == 0 && !x.1) then false
      else rm == 3), 0)
  else f.round rm false (decide (v < 0)) v.natAbs q

/-- Log entry 33 (DEDUCED). -/
def vdotE (ty rm : Nat) (sat : Bool) (d : Nat) (xs : List (Nat × Nat)) : Nat × Nat :=
  if tyInt ty then
    let lane := if tySigned ty then 4 else 5
    (tyFit lane sat (xs.foldl (fun s x => s + tyVal ty x.1 * tyVal ty x.2) (tyVal lane d)), 0)
  else
    let f := tyFmt ty
    let z := fmt32.decode d
    let ps := xs.map fun x => (f.decode x.1, f.decode x.2)
    let ops := z :: ps.flatMap fun p => [p.1, p.2]
    let bad := ps.any fun p => !p.1.isNan && !p.2.isNan && (p.1.mul p.2).isNan
    let terms := z :: ps.map fun p => p.1.mul p.2
    let pos := terms.any fun x => x == .inf false
    let neg := terms.any fun x => x == .inf true
    if ops.any (·.isNan) then (fmt32.nan, if ops.any (·.isSnan) || bad || (pos && neg) then fNV else 0)
    else if bad || (pos && neg) then (fmt32.nan, fNV)
    else if pos then (fmt32.infBits, 0)
    else if neg then (fmt32.signBit true + fmt32.infBits, 0)
    else sumRound fmt32 rm terms

end Sys2Proof.Machine
end

