-- ==== Sys2Proof/Machine/Vector.lean ====
section
/-! DEFINITION. Vector instructions (R335 to R356): their issue into the vector queue, the checks and the computation when an
entry starts, and what happens when its latency ends. -/
namespace Sys2Proof.Machine

/-! ### Masks, registers, queue entries -/

/-- R277: the lane mask. -/
def State.laneMaskOf (s : State) (n : Nat) (p : Pred) : W64 := if p.neg then ~~~(s.getP n p.n.toNat) else s.getP n p.n.toNat

/-- R362: the element width of a plain format. -/
def fmtW (k : Nat) : Nat := match k with | 0 => 64 | 1 => 32 | 2 => 16 | 3 => 16 | 7 => 32 | _ => 8
/-- Whether an entry exchanges the planes of template `k` (R376). -/
def Ent.swaps (e : Ent) (k : Nat) : Bool := match e.ins with | .mtplSwap f => f.m == 1 || f.tpl.toNat == k | _ => false
/-- R374: how many vector registers a queued MDRAINV writes: those of its start; before it, as its patch or its template gives the output
format; 8, the most that a format takes, while an entry before it has yet to exchange the template's planes. Log entry 34 (DEDUCED). -/
def State.drainRegs (s : State) (e : Ent) (f : FX) : Nat :=
  let x := s.core (coreOf e.strand)
  let own : Nat :=
    if (x.mq.takeWhile (·.num != e.num)).any (·.swaps f.tpl.toNat) then 8
    else fmtW (bits ((Tbl.get zTpl x.tplA f.tpl.toNat).read (tagOf e.slot e.gen) 0).toNat 8 4) / 8
  match e.started, f.patch with
  | some ws, _ => (ws.filter fun w => match w with | .vreg _ _ _ _ => true | _ => false).length
  | none, some v => if bits v.toNat 16 4 = 2 then fmtW (bits v.toNat 0 16) / 8 else own
  | none, none => own
/-- Whether a queued MDRAINV of the strand still writes one of vector registers `l` (R357). Log entry 34 (DEDUCED). -/
def State.drainPending (s : State) (n : Nat) (l : List Nat) : Bool :=
  (s.core (coreOf n)).mq.any fun e => e.strand == n && (match e.ins with
    | .mdrainv f => l.any fun r => decide (e.a.toNat ≤ r) && decide (r < e.a.toNat + s.drainRegs e f)
    | _ => false)

/-- The vector registers that an instruction reads and writes, by opcode. -/
def vReads (op : Nat) (f : FV) : List Nat :=
  match shapeV op with
  | none => []
  | some sh =>
    let bc := decide (f.bc ≠ .imm 0)
    (if sh.va && !(bc && sh.repl == 1) && op != 0x64 && op != 0x65 then [f.va.toNat] else []) ++
    (if sh.vb && !(bc && sh.repl == 2) && op != 0x56 && op != 0x5E && op != 0x5F then [f.vb.toNat] else []) ++
    (if op = 0x43 ∨ op = 0x44 then [f.vc.toNat] else []) ++
    (if op = 0x61 ∨ op = 0x63 ∨ op = 0x65 ∨ op = 0x67 then [f.vd.toNat] else [])
def vWrites (op : Nat) (f : FV) : List Nat :=
  match shapeV op with
  | none => []
  | some sh => if sh.vd && op != 0x61 && op != 0x63 && op != 0x65 && op != 0x54 then [f.vd.toNat] else []

/-- A vector instruction of strand `n` as a queue entry, with what is read at issue (R339). -/
def State.vecEnt (s : State) (n : Nat) (i : Instr) (f : FV) (acc : Nat) : Ent :=
  { strand := n, gid := (s.strand n).grp.getD 0, slot := s.slotOf n, gen := s.genOf n, ins := i, pc := s.getPc n,
    a := s.opd n f.bc, b := 0, mask := s.laneMaskOf n f.pr, rm := fpcRm (s.getCtl n nFPC), task := (s.strand n).task, acc := acc,
    tok := true, lat := 0, started := none, poison := false, srcBad := false, num := (s.core (coreOf n)).entSeq }

/-- Mark a scoreboard number as not yet produced; s0 and p0 always are. -/
def State.oweAny (s : State) (n : Nat) (l : List Nat) : State :=
  s.mapStrand n fun x => { x with pend := l.foldl (fun t k => if k = 0 ∨ k = 64 then t else addOnce k t) x.pend }

/-! ### The checks of step 9 (R337, R341, R342) -/

/-- The types that an entry accepts. -/
def vTypeOk (op ty : Nat) : Bool :=
  if op ∈ [0x40, 0x41, 0x42, 0x45, 0x46, 0x47, 0x48, 0x54, 0x59, 0x5A] then decide (ty ≤ 11)
  else if op ∈ [0x43, 0x44, 0x49, 0x4A, 0x4B, 0x4C, 0x4D, 0x69] then tyFpw ty
  else if op ∈ [0x51, 0x52, 0x53, 0x5B, 0x5C, 0x66, 0x68] then tyInt ty
  else if op = 0x67 then decide (ty ≤ 3) || ty == 8 || ty == 9 || tyF8 ty
  else if op = 0x6A then tyFpw ty || tyF8 ty
  else if op = 0x62 ∨ op = 0x63 then decide (32 ≤ tyW ty)
  else true

/-- R337: whether the instruction rounds at this type, so that RMEN is allowed. -/
def vRounds (op ty opx src : Nat) : Bool :=
  if op ∈ [0x40, 0x41, 0x42, 0x49, 0x4A, 0x4B, 0x4C, 0x4D, 0x69] then tyFpw ty
  else if op = 0x56 then !(tyInt ty && tyInt src)
  else if op = 0x59 ∨ op = 0x5A then tyFpw ty && opx == 0
  else if op = 0x67 then !(tyInt ty)
  else false

/-- R81, R135: whether the instruction takes its rounding mode from FPC. -/
def vTakesRm (op : Nat) (f : FV) : Bool :=
  op == 0x43 || op == 0x44 || (vRounds op f.ty.toNat (bits f.vc.toNat 4 4) (bits f.vb.toNat 0 4) && !(bit f.vc.toNat 3))

/-- R337: a defined OPX that the type forbids. -/
def vOpxOk (op ty opx : Nat) : Bool :=
  if op ∈ [0x40, 0x41, 0x42, 0x47, 0x48, 0x67] then opx == 0 || tyInt ty
  else if op = 0x54 then decide (opx < 6) || !(tyInt ty)
  else if op = 0x59 ∨ op = 0x5A then decide (opx < 3) || tyInt ty
  else true

/-- Whether VC is a control byte. -/
def vHasCtl (op : Nat) : Bool := match shapeV op with | some sh => sh.ctl.isSome | none => false

/-- Step 9 for a vector entry: registers (R198), types, modifiers, indices. -/
def State.vecCheck (s : State) (op n : Nat) (f : FV) : Chk Unit :=
  let ty := f.ty.toNat
  let opx := bits f.vc.toNat 4 4
  let src := bits f.vb.toNat 0 4
  need ((vReads op f ++ vWrites op f).all (s.vregOk n) && vTypeOk op ty &&
    (!(vHasCtl op) || (vOpxOk op ty opx && (!(bit f.vc.toNat 3) || vRounds op ty opx src))) &&
    (op != 0x54 || decide (f.vd.toNat < 8)) &&
    ((op != 0x5E && op != 0x5F) || decide (f.vb.toNat < 2048 / tyW ty)) &&
    (op != 0x56 || (satmOk ty src opx && decide (bits f.vb.toNat 4 3 < max (tyW ty) (tyW src) / min (tyW ty) (tyW src))))) cOperand

/-! ### Memory elements (R352 to R354) -/

/-- R57, R58: the skew of a rotation code, and the physical offset. -/
def skew (c : Nat) : Nat := [0, 1, 2, 3, 4, 5, 6, 7, 8, 12, 16, 24, 32, 48, 64].getD c 0
def rotAddr (c o i : Nat) : Nat := o / 12288 * 12288 + (o % 12288 / 64 + i * skew c) % 192 * 64 + o % 64

/-- R291: the fields of an operand-descriptor word. -/
structure Desc where
  rot : Nat
  tp : Nat
  rp : Nat
  off : Nat
deriving DecidableEq, Repr
def descOf (v : W64) : Desc := ⟨bits v.toNat 52 4, bits v.toNat 36 16, bits v.toNat 24 12, bits v.toNat 0 24⟩
/-- R291, R58: the checks of a descriptor word. -/
def descCheck (v : W64) : Chk Desc :=
  if bits v.toNat 56 8 ≠ 0 then trapOf cEncoding else if (descOf v).rot = 15 then trapOf cOperand else .ok (descOf v)

/-- The place `k` bytes further. -/
def Place.plus (p : Place) (k : Nat) : Place :=
  match p with
  | .none => .none
  | .hbm a => .hbm (a + k)
  | .ground a => .ground (a + k)
  | .cached d a => .cached d (a + k)
  | .host a => .host (a + k)
  | .peer d a => .peer d (a + k)
  | .twin h o => .twin h (o + k)

/-- The failure that R296's order of steps puts first: space, bounds, alignment. -/
def firstTrap (l : List Trap) : Option Trap :=
  match l.find? (·.code == cSpace), l.find? (·.code == cBound), l.find? (·.code == cMisaligned) with
  | some e, _, _ => some e
  | _, some e, _ => some e
  | _, _, some e => some e
  | _, _, _ => l.head?

def errsOf {α : Type} (l : List (Chk α)) : List Trap := l.filterMap fun x => match x with | .error e => some e | .ok _ => none
def oksOf {α : Type} (l : List (Chk α)) : List α := l.filterMap fun x => match x with | .ok v => some v | .error _ => none

/-- The elements that a memory instruction accesses, with their places; an address is the plain sum. Log entry 110 (DESIGN CHOICE). -/
def State.vecPlaces (s : State) (op n : Nat) (f : FV) (e : Ent) (vb : VReg) : Chk (List (Nat × Place)) :=
  let ty := f.ty.toNat
  let w := tyW ty
  let b := w / 8
  let es := lanes e.mask w
  let spc := bits f.vc.toNat 0 4
  let st := op == 0x61 || op == 0x63 || op == 0x65
  let ea := e.a.toNat
  if es = [] then .ok []
  else if op = 0x60 ∨ op = 0x61 then
    let lo := es.headD 0
    let hi := es.getLastD 0
    match s.resolve n st spc (ea + lo * b) ((hi - lo + 1) * b) with
    | .error x => .error x
    | .ok t => if ea % b ≠ 0 then trapAt cMisaligned ea else .ok (es.map fun k => (k, t.place.plus ((k - lo) * b)))
  else if op = 0x62 ∨ op = 0x63 then
    let ad (k : Nat) : Nat := ea + elem 32 vb (w * k / 32)
    let rs := es.map fun k => (s.resolve n st spc (ad k) b).map fun t => (k, t.place)
    let al := es.filterMap fun k => if ad k % b ≠ 0 then some (⟨cMisaligned, 0, BitVec.ofNat 64 (ad k)⟩ : Trap) else none
    match firstTrap (errsOf rs ++ al) with
    | some x => .error x
    | none => .ok (oksOf rs)
  else
    match descCheck e.a with
    | .error x => .error x
    | .ok d =>
      let seg := f.va.toNat
      let ph (i : Nat) : Nat := rotAddr d.rot (d.off + 16 * seg + 32 * d.rp * i) i
      if spc ≠ 0 then trapAt cSpace d.off
      else
        let rs := es.map fun k => (s.resolve n st 0 (ph (k * b / 16)) 16).map fun t => (k, t.place.plus (k * b % 16))
        let al := if (d.off + 16 * seg) % 16 ≠ 0 then [(⟨cMisaligned, 0, BitVec.ofNat 64 d.off⟩ : Trap)] else []
        match firstTrap (errsOf rs ++ al) with
        | some x => .error x
        | none => .ok (oksOf rs)

/-! ### Issue (R339, R341) -/

/-- The places of the elements of a memory instruction, where its scalar operands give them (R160, R162); none for VLDX and VSTX,
whose offsets are read at the start. -/
def State.vecSpots (s : State) (op n : Nat) (f : FV) (e : Ent) : List (Place × Nat) :=
  if op = 0x62 ∨ op = 0x63 then []
  else match s.vecPlaces op n f e 0 with
    | .ok l => l.map fun p => (p.2, tyW f.ty.toNat / 8)
    | .error _ => []
/-- R159: the access scope of elements in a space. -/
def placeScope (spc c : Nat) (p : Place) : Nat := if spc ≤ 1 then p.scope c else 2
def vecScope (spc c : Nat) (l : List (Place × Nat)) : Nat := if spc ≤ 1 then maxL (l.map fun p => p.1.scope c) else 2

/-- The issue of a vector instruction: scalars read `srcs`, scoreboard numbers written `dsts`, and for a memory instruction
whether it stores; its access takes its place in the strand's order (R356). -/
def State.issueVec (s : State) (op : Nat) (i : Instr) (f : FV) (srcs dsts : List Nat) (mem : Option Bool) : Out :=
  let n := s.cur
  let c := coreOf n
  let spc := bits f.vc.toNat 0 4
  s.issueAs false true i f.pr srcs dsts (
    if mem = some true ∧ spc = 0 ∧ s.inTask n then .trap ⟨cSpecIllegal, 0, 0⟩
    else if (s.core c).vq.length ≥ 16 ∨ s.drainPending n (vReads op f ++ vWrites op f) then .wait s
    else
      let e := { s.vecEnt n i f 0 with srcBad := s.entBad n f.pr (srcs ++ if vTakesRm op f then [pendC nFPC] else []) }
      match mem with
      | some st =>
        if e.mask = 0 then .done ((s.mapCore c fun x => { x with vq := x.vq ++ [e], entSeq := x.entSeq + 1 }).adv n i)
        else
          let l := s.vecSpots op n f e
          let a := { s.newAcc n i (.vec st) (bits f.vc.toNat 4 4) ⟨.none, vecScope spc (coreOf n) l⟩ e.a 0 [] with rsegs := l, wsegs := l }
          .done (((s.addAcc a).mapCore c fun x => { x with vq := x.vq ++ [{ e with acc := a.id }], entSeq := x.entSeq + 1 }).adv n i)
      | none => .done (((s.mapCore c fun x => { x with vq := x.vq ++ [e], entSeq := x.entSeq + 1 }).oweAny n dsts).adv n i))

def execVadd (f : FV) (s : State) : Out := s.issueVec 0x40 (.vadd f) f (opdRegs [f.bc]) [] none
def execVsub (f : FV) (s : State) : Out := s.issueVec 0x41 (.vsub f) f (opdRegs [f.bc]) [] none
def execVmul (f : FV) (s : State) : Out := s.issueVec 0x42 (.vmul f) f (opdRegs [f.bc]) [] none
def execVfma (f : FV) (s : State) : Out := s.issueVec 0x43 (.vfma f) f (opdRegs [f.bc]) [] none
def execVfms (f : FV) (s : State) : Out := s.issueVec 0x44 (.vfms f) f (opdRegs [f.bc]) [] none
def execVmin (f : FV) (s : State) : Out := s.issueVec 0x45 (.vmin f) f (opdRegs [f.bc]) [] none
def execVmax (f : FV) (s : State) : Out := s.issueVec 0x46 (.vmax f) f (opdRegs [f.bc]) [] none
def execVabs (f : FV) (s : State) : Out := s.issueVec 0x47 (.vabs f) f (opdRegs [f.bc]) [] none
def execVneg (f : FV) (s : State) : Out := s.issueVec 0x48 (.vneg f) f (opdRegs [f.bc]) [] none
def execVrcp (f : FV) (s : State) : Out := s.issueVec 0x49 (.vrcp f) f (opdRegs [f.bc]) [] none
def execVrsq (f : FV) (s : State) : Out := s.issueVec 0x4A (.vrsq f) f (opdRegs [f.bc]) [] none
def execVsqrt (f : FV) (s : State) : Out := s.issueVec 0x4B (.vsqrt f) f (opdRegs [f.bc]) [] none
def execVexp2 (f : FV) (s : State) : Out := s.issueVec 0x4C (.vexp2 f) f (opdRegs [f.bc]) [] none
def execVlog2 (f : FV) (s : State) : Out := s.issueVec 0x4D (.vlog2 f) f (opdRegs [f.bc]) [] none
def execVand (f : FV) (s : State) : Out := s.issueVec 0x4E (.vand f) f (opdRegs [f.bc]) [] none
def execVor (f : FV) (s : State) : Out := s.issueVec 0x4F (.vor f) f (opdRegs [f.bc]) [] none
def execVxor (f : FV) (s : State) : Out := s.issueVec 0x50 (.vxor f) f (opdRegs [f.bc]) [] none
def execVshl (f : FV) (s : State) : Out := s.issueVec 0x51 (.vshl f) f (opdRegs [f.bc]) [] none
def execVshr (f : FV) (s : State) : Out := s.issueVec 0x52 (.vshr f) f (opdRegs [f.bc]) [] none
def execVsar (f : FV) (s : State) : Out := s.issueVec 0x53 (.vsar f) f (opdRegs [f.bc]) [] none
/-- VCMP (R345): the predicate it writes also keeps the bits whose mask bit is 0. -/
def execVcmp (f : FV) (s : State) : Out :=
  s.issueVec 0x54 (.vcmp f) f (opdRegs [f.bc]) (if f.vd.toNat < 8 then [pendP f.vd.toNat] else []) none
def execVsel (f : FV) (s : State) : Out := s.issueVec 0x55 (.vsel f) f (opdRegs [f.bc]) [] none
def execVcvt (f : FV) (s : State) : Out := s.issueVec 0x56 (.vcvt f) f [] [] none
def execVperm (f : FV) (s : State) : Out := s.issueVec 0x57 (.vperm f) f (opdRegs [f.bc]) [] none
def execVbcast (f : FV) (s : State) : Out := s.issueVec 0x58 (.vbcast f) f (opdRegs [f.bc]) [] none
def execVreduce (f : FV) (s : State) : Out := s.issueVec 0x59 (.vreduce f) f [] [] none
def execVscan (f : FV) (s : State) : Out := s.issueVec 0x5A (.vscan f) f [] [] none
def execVclmul (f : FV) (s : State) : Out := s.issueVec 0x5B (.vclmul f) f (opdRegs [f.bc]) [] none
def execVpopc (f : FV) (s : State) : Out := s.issueVec 0x5C (.vpopc f) f (opdRegs [f.bc]) [] none
def execVmov (f : FV) (s : State) : Out := s.issueVec 0x5D (.vmov f) f (opdRegs [f.bc]) [] none
/-- VEXTR (R349): BCAST is the destination scalar. -/
def execVextr (f : FV) (s : State) : Out := s.issueVec 0x5E (.vextr f) f [] [f.bc.dest] none
def execVinsr (f : FV) (s : State) : Out := s.issueVec 0x5F (.vinsr f) f (opdRegs [f.bc]) [] none
def execVld (f : FV) (s : State) : Out := s.issueVec 0x60 (.vld f) f (opdRegs [f.bc]) [] (some false)
def execVst (f : FV) (s : State) : Out := s.issueVec 0x61 (.vst f) f (opdRegs [f.bc]) [] (some true)
def execVldx (f : FV) (s : State) : Out := s.issueVec 0x62 (.vldx f) f (opdRegs [f.bc]) [] (some false)
def execVstx (f : FV) (s : State) : Out := s.issueVec 0x63 (.vstx f) f (opdRegs [f.bc]) [] (some true)
def execVldh (f : FV) (s : State) : Out := s.issueVec 0x64 (.vldh f) f (opdRegs [f.bc]) [] (some false)
def execVsth (f : FV) (s : State) : Out := s.issueVec 0x65 (.vsth f) f (opdRegs [f.bc]) [] (some true)
def execViota (f : FV) (s : State) : Out := s.issueVec 0x66 (.viota f) f (opdRegs [f.bc]) [] none
def execVdot (f : FV) (s : State) : Out := s.issueVec 0x67 (.vdot f) f (opdRegs [f.bc]) [] none
def execVmulh (f : FV) (s : State) : Out := s.issueVec 0x68 (.vmulh f) f (opdRegs [f.bc]) [] none
def execVround (f : FV) (s : State) : Out := s.issueVec 0x69 (.vround f) f (opdRegs [f.bc]) [] none
def execVclass (f : FV) (s : State) : Out := s.issueVec 0x6A (.vclass f) f (opdRegs [f.bc]) [] none

/-! ### The start of an entry (R339, R341) -/

/-- A vector register of the entry's strand as its tag reads it. -/
def State.vregOf (s : State) (e : Ent) (v : Nat) : VReg :=
  (Tbl.get zVReg (s.core (coreOf e.strand)).vregs (s.vregIx e.strand v)).read (tagOf e.slot e.gen) 0
def State.vregBad (s : State) (e : Ent) (v : Nat) : Bool :=
  (Tbl.get zVReg (s.core (coreOf e.strand)).vregs (s.vregIx e.strand v)).bad (tagOf e.slot e.gen)

/-- R338: a value in every element. -/
def splat (w : Nat) (v : W64) : VReg := laneVal w ((List.range (2048 / w)).map fun e => (e, v.toNat))

/-- R345: the predicate bits that VCMP writes. -/
def cmpBits (w : Nat) (mask old : W64) (res : Nat → Bool) : W64 :=
  BitVec.ofNat 64 ((List.range 64).foldl (fun r k =>
    let on := if w = 64 then bit mask.toNat (k / 2 * 2) else bit mask.toNat k
    let v := if !on then bit old.toNat k
      else if w = 64 then res (k / 2)
      else (List.range (32 / w)).all fun j => res (k * (32 / w) + j)
    r + if v then 2 ^ k else 0) 0)

/-- R345: which bits those are. -/
def cmpMask (w : Nat) (mask : W64) : W64 :=
  if w = 64 then BitVec.ofNat 64 ((List.range 64).foldl (fun r k => r + if bit mask.toNat (k / 2 * 2) then 2 ^ k else 0) 0) else mask

/-- The writes and flags of a vector instruction that reaches no memory; `va`, `vb`, `vc`, `vd` are its sources after the
broadcast, `rm` its rounding mode. -/
def vecWrites (i : Instr) (f : FV) (mask : W64) (bc : W64) (va vb vc vd : VReg) (rm dreg : Nat) (oldP : W64) : List Wr × Nat :=
  let ty := f.ty.toNat
  let w := tyW ty
  let es := lanes mask w
  let opx := bits f.vc.toNat 4 4
  let sat := opx == 1
  let A (e : Nat) : Nat := elem w va e
  let B (e : Nat) : Nat := elem w vb e
  let out (l : Elems) : List Wr × Nat := if l.isEmpty then ([], 0) else ([l.wr dreg w], l.flags)
  let map2 (g : Nat → Nat → Nat × Nat) : List Wr × Nat := out (es.map fun e => (e, g (A e) (B e)))
  let map1 (g : Nat → Nat × Nat) : List Wr × Nat := out (es.map fun e => (e, g (A e)))
  match i with
  | .vadd _ => map2 (vaddE ty rm sat)
  | .vsub _ => map2 (vsubE ty rm sat)
  | .vmul _ => map2 (vmulE ty rm sat)
  | .vfma _ => out (es.map fun e => (e, vfmaE ty rm (A e) (B e) (elem w vc e)))
  | .vfms _ => out (es.map fun e => (e, vfmsE ty rm (A e) (B e) (elem w vc e)))
  | .vmin _ => map2 (vminE ty)
  | .vmax _ => map2 (vmaxE ty)
  | .vabs _ => map1 (vabsE ty sat)
  | .vneg _ => map1 (vnegE ty sat)
  | .vrcp _ => map1 (vrcpE ty rm)
  | .vrsq _ => map1 (vrsqE ty rm)
  | .vsqrt _ => map1 (vsqrtE ty rm)
  | .vexp2 _ => map1 (vexp2E ty rm)
  | .vlog2 _ => map1 (vlog2E ty rm)
  | .vand _ => map2 fun a b => (a &&& b, 0)
  | .vor _ => map2 fun a b => (a ||| b, 0)
  | .vxor _ => map2 fun a b => (a ^^^ b, 0)
  | .vshl _ => map2 (vshlE ty)
  | .vshr _ => map2 (vshrE ty)
  | .vsar _ => map2 (vsarE ty)
  | .vclmul _ => map2 (vclmulE ty opx)
  | .vpopc _ => map1 (vpopcE ty)
  | .vmulh _ => map2 (vmulhE ty)
  | .vround _ => map1 (vroundE ty rm)
  | .vclass _ => map1 (vclassE ty)
  | .vmov _ => map1 fun a => (a, 0)
  | .vbcast _ => out (es.map fun e => (e, bc.toNat, 0))
  | .viota _ => out (es.map fun e => (e, (bc.toNat + e) % 2 ^ w, 0))
  | .vsel _ => out ((List.range (2048 / w)).map fun e => (e, if laneOn mask w e then A e else B e, 0))
  | .vperm _ => out (es.map fun e => (e, if B e < 2048 / w then A (B e) else 0, 0))
  | .vinsr _ => if laneOn mask w f.vb.toNat then out [(f.vb.toNat, bc.toNat, 0)] else ([], 0)
  | .vextr _ =>
    if laneOn mask w f.vb.toNat then
      ([.scalar f.bc.dest (if tySigned ty then sext64 w (A f.vb.toNat) else BitVec.ofNat 64 (A f.vb.toNat))], 0)
    else ([], 0)
  | .vcmp _ =>
    let rs := (List.range (2048 / w)).map fun e => vcmpE ty opx (A e) (B e)
    ([.pred f.vd.toNat (cmpMask w mask) (cmpBits w mask oldP fun e => (rs.getD e (false, 0)).1)],
      es.foldl (fun a e => a ||| (rs.getD e (false, 0)).2) 0)
  | .vcvt _ =>
    let src := bits f.vb.toNat 0 4
    let ws := tyW src
    let part := bits f.vb.toNat 4 3
    let m := 2048 / max ws w
    let prs := (List.range m).map fun k => if w < ws then (k, part * m + k) else (part * m + k, k)
    out ((prs.filter fun p => laneOn mask w p.2).map fun p => (p.2, vcvtE ty src rm opx (elem ws va p.1)))
  | .vreduce _ => out [(0, vreduceE ty rm opx mask va)]
  | .vscan _ => out (scanE ty rm opx va none es)
  | .vdot _ =>
    let q := 32 / w
    out' ((lanes mask 32).map fun l =>
      (l, vdotE ty rm sat (elem 32 vd l) ((List.range q).map fun k => (A (q * l + k), B (q * l + k))))) dreg
  | _ => ([], 0)
where
  out' (l : Elems) (dreg : Nat) : List Wr × Nat := if l.isEmpty then ([], 0) else ([l.wr dreg 32], l.flags)

/-- R81, R136: whether flags that an entry raises would go into a poisoned FPC. -/
def State.flagsBad (s : State) (e : Ent) (l : List Wr) : Bool :=
  (s.strand e.strand).ctlBad (tagOf e.slot e.gen) nFPC && l.any fun w => match w with | .flags f => f % 32 != 0 | _ => false

/-- Steps 9 to 13 of a vector entry, and what it will write. -/
def State.vecStart (s : State) (e : Ent) (op : Nat) (f : FV) : Chk (List Wr) :=
  let n := e.strand
  match s.vecCheck op n f with
  | .error x => .error x
  | .ok _ =>
    let sh := (shapeV op).getD ⟨false, false, false, none, .un, 0⟩
    let w := tyW f.ty.toNat
    let bc := decide (f.bc ≠ .imm 0)
    let va := if bc && sh.repl == 1 then splat w e.a else s.vregOf e f.va.toNat
    let vb := if bc && sh.repl == 2 then splat w e.a else s.vregOf e f.vb.toNat
    let vc := s.vregOf e f.vc.toNat
    let vd := s.vregOf e f.vd.toNat
    let dreg := s.vregIx n f.vd.toNat
    let poison := e.srcBad || (vReads op f).any (s.vregBad e)
    if op ∈ [0x60, 0x61, 0x62, 0x63, 0x64, 0x65] then
      match s.vecPlaces op n f e vb with
      | .error x => .error x
      | .ok l =>
        if poison then trapOf cUncorrectable
        else if op = 0x60 ∨ op = 0x62 ∨ op = 0x64 then .ok (l.map fun p => .load dreg (w * p.1) w p.2)
        else .ok (l.map fun p => .store p.2 (leBytes (w / 8) (elem w vd p.1)))
    else if poison then trapOf cUncorrectable
    else
      let rm := if vHasCtl op && bit f.vc.toNat 3 then bits f.vc.toNat 0 3 else e.rm
      let r := vecWrites e.ins f e.mask e.a va vb vc vd rm dreg ((s.strand n).p (tagOf e.slot e.gen) f.vd.toNat)
      let l := r.1 ++ [.flags r.2]
      if s.flagsBad e l then trapOf cUncorrectable else .ok l

/-- The vector registers of the core that started entries still write. -/
def wrRegs (l : List Wr) : List Nat := l.filterMap fun x => match x with | .vreg n _ _ _ => some n | .load n _ _ _ => some n | _ => none

/-- An engine entry traps: it leaves the queue, and the strand that issued it traps (R297). Log entries 36 (DEDUCED), 89 (DEDUCED). -/
def State.entTrap (s : State) (e : Ent) (x : Trap) : State :=
  s.trapIn e.strand e.task x.code x.sub x.addr e.pc ((encodeWord e.ins).getD 0)

/-- The scalars and predicates that an entry produces. -/
def entOwes (i : Instr) : List Nat :=
  match i with
  | .vcmp f => [pendP f.vd.toNat]
  | .vextr f => [f.bc.dest]
  | .mstacc f => [f.sb.toNat]
  | .mtplDiff f => [f.sb.toNat]
  | .mtplRd f => [f.sb.toNat]
  | .mstat f => [f.sb.toNat]
  | .tchk f => [f.sb.toNat]
  | .tpack f => [f.sa.toNat]
  | _ => []

/-- R237: whether the strand has left the ordered task that issued the entry. -/
def State.stray (s : State) (e : Ent) : Bool := (s.strand e.strand).task != e.task

/-- The results of an entry are produced, or will never be. -/
def State.paid (s : State) (e : Ent) : State :=
  if s.stray e then s else s.mapStrand e.strand fun x => { x with pend := x.pend.filter fun k => !((entOwes e.ins).contains k) }

/-- Put entry `k` of the vector queue started. -/
def Core.startVec (x : Core) (k : Nat) (w : List Wr) : Core := { x with vq := updAt x.vq k fun e => { e with started := some w } }
/-- Log entry 87 (DEDUCED). -/
def Core.dropVec (x : Core) (k : Nat) : Core := { x with vq := removeAt x.vq k }

/-- The accesses of a vector entry are over; the elements of a store go on. -/
def State.endVecAcc (s : State) (e : Ent) : State :=
  if e.acc = 0 then s else { s with flight := s.flight.filter fun a => !(a.ord == e.acc && a.ofEntry) }

/-- R164, R356: the access of element `w` of an entry, in the place that access `a` of the entry has in the strand's order. -/
def Acc.element (a : Acc) (spc id : Nat) (w : Wr) : Option Acc :=
  let at' (p : Place) (n : Nat) (d : List Byte) (why : Why) : Acc :=
    { a with id := id, ord := a.id, why := why, scope := placeScope spc a.core p, src := p, dst := p, n := n, data := d, rsegs := [], wsegs := [] }
  match w with
  | .load r lo w p => some (at' p (w / 8) [] (.vld a.id r lo w))
  | .store p d => some (at' p d.length d .vst)
  | _ => none
def Acc.elements (a : Acc) (spc : Nat) : Nat → List Wr → List Acc
  | _, [] => []
  | id, w :: t => (a.element spc id w).toList ++ a.elements spc (id + 1) t
/-- The elements of an entry become accesses of their own. -/
def State.vecSplit (s : State) (e : Ent) (ws : List Wr) : State :=
  let spc := match e.ins.form with | .v _ f => bits f.vc.toNat 0 4 | _ => 0
  { s with
    flight := s.flight.flatMap fun a => if a.id = e.acc then a.elements spc s.nextId ws else [a]
    nextId := s.nextId + ws.length }

/-- Whether an entry stores for a speculative task, whose stores enter the pillow (R356). -/
def State.vecPillow (s : State) (e : Ent) (ws : List Wr) : Option Acc :=
  match s.accOf e.acc, ws with
  | some a, .store _ _ :: _ => if (s.specTask a).isSome then some a else none
  | _, _ => none
/-- The accesses of an entry that has started: its elements, or the store that enters a pillow, at the places now known. -/
def State.vecBegin (s : State) (e : Ent) (ws : List Wr) : State :=
  if e.acc = 0 then s
  else match s.vecPillow e ws with
    | some a => s.mapAcc a.id fun a => { a with wsegs := ws.filterMap fun w => match w with | .store p d => some (p, d.length) | _ => none }
    | none => s.vecSplit e ws

/-- VECTOR_ENTRY_START (R339, R341): the first entry that has not started does, once no started entry still writes a register
that it names. A poisoned entry traps (R81). -/
def execVectorEntryStart (core : Nat) (s : State) : Out :=
  .next (
    let q := (s.core core).vq
    let k := q.findIdx (·.started.isNone)
    match q[k]? with
    | none => s
    | some e => match e.ins.form with
      | .v op f =>
        let busy := ((q.take k).flatMap fun b => wrRegs (b.started.getD []))
        if (vReads op f ++ vWrites op f).any fun r => busy.contains (s.vregIx e.strand r) then s
        else if e.poison then (((s.mapCore core (·.dropVec k)).endVecAcc e).paid e).entTrap e ⟨cUncorrectable, 0, 0⟩
        else match s.vecStart e op f with
          | .ok w => (s.mapCore core (·.startVec k w)).vecBegin e w
          | .error x => (((s.mapCore core (·.dropVec k)).endVecAcc e).paid e).entTrap e x
      | _ => s)

/-! ### The end of an entry's latency (R339, R340) -/

/-- R81, R115: a write of masked bits into a vector register. -/
def Core.writeVreg (x : Core) (t : Tag) (n : Nat) (mask val : VReg) (whole : Bool) : Core :=
  { x with vregs := Tbl.upd zVReg x.vregs n fun y =>
      if whole then Tagged.whole t val else y.part t 0 fun v => (v &&& ~~~mask) ||| (val &&& mask) }

/-- R177: what waits of the die's commits at slice offsets of core `c` performs before an engine of the core reads or writes there. -/
def State.settleSlice (s : State) (c : Nat) (l : List Nat) : State :=
  if s.flight.any Acc.isCommit then ((l.map fun o => sliceAt c o / 64).eraseDups).foldl (fun s g => s.settle c (.ground (g * 64)) 64) s else s

/-- R115: an entry's write of bytes of its core's slice, all at once. -/
def State.sliceStore (s : State) (e : Ent) (c : Nat) (cs : List Host.Cell) : State :=
  let p : Place := .ground (sliceAt c 0)
  let s := s.settleSlice c (cs.map (·.1))
  let s := if cs.any (fun x => s.cutAt e.slot e.gen p x.1) then s.countDrop e.slot else s
  let cells := (cs.filter fun x => s.allowedAt e.slot e.gen p x.1).map fun x => (sliceAt c x.1, x.2)
  { s with ground := s.ground.write false (tagOf e.slot e.gen) cells }

/-- A queue entry's write to registers performs. -/
def State.applyWr (s : State) (e : Ent) (w : Wr) : State :=
  let c := coreOf e.strand
  let t := tagOf e.slot e.gen
  match w with
  | .vreg n m v whole => s.mapCore c fun x => x.writeVreg t n m v whole
  | .scalar n v => if s.stray e then s else s.mapStrand e.strand fun x => x.setS t n v
  | .pred n m v => if s.stray e then s else s.mapStrand e.strand fun x => x.maskP t n m v
  | .flags f => s.raiseFlags e.strand t f
  | .bank n b => s.mapCore c fun x => { x with banks := Tbl.put zBank x.banks n (Tagged.whole t b) }
  | .tplActive n v => s.mapCore c fun x => { x with tplA := Tbl.put zTpl x.tplA n (Tagged.whole t v) }
  | .tplStandby n v => s.mapCore c fun x => { x with tplS := Tbl.put zTpl x.tplS n (Tagged.whole t v) }
  | .slice cs => s.sliceStore e c cs
  | .load _ _ _ _ => s
  | .store _ _ => s

/-- The stores of an entry enter the task's pillow (R356). -/
def State.vecBuffer (s : State) (n : Nat) (k : Task) : List Wr → State
  | [] => s
  | .store p d :: t => State.vecBuffer (s.bufferStore n k p d) n k t
  | _ :: t => s.vecBuffer n k t

/-- The element accesses of an entry. -/
def State.vecAccs (s : State) (e : Ent) : List Acc := s.flight.filter fun a => a.ord == e.acc && a.id != e.acc
/-- Those in the core's own slice perform, in element order. -/
def State.vecLocal (s : State) (e : Ent) : State :=
  (s.vecAccs e).foldl (fun s a => if a.dst.onCore a.core then s.arrive a false else s) s

/-- The mask and the value that loaded elements give a register: first bit, width and bytes of each. -/
def loadedReg (l : List (Nat × Nat × List Byte)) : VReg × VReg :=
  (BitVec.ofNat 2048 (l.foldl (fun x y => x ||| ((2 ^ y.2.1 - 1) * 2 ^ y.1)) 0), BitVec.ofNat 2048 (l.foldl (fun x y => x ||| (ofLe y.2.2 * 2 ^ y.1)) 0))
def Acc.lane (a : Acc) : Option (Nat × Nat × List Byte) := match a.why with | .vld _ _ lo w => some (lo, w, a.data) | _ => none

/-- The end of a memory entry: all its elements have performed; a load writes its register or traps with the code of its first
element that has one. -/
def State.vecMemEnd (s : State) (e : Ent) (ws : List Wr) : Option (State × Bool) :=
  let c := coreOf e.strand
  let n := e.strand
  match s.vecPillow e ws with
  | some a => match s.specTask a with
    | none => none
    | some k =>
      let l := a.wsegs
      let gs (g : Bool) : List Nat := ((l.filter fun p => p.1.flat.1 == g).flatMap fun p => granRange p.1.flat.2 p.2).eraseDups
      if !(s.mayPerform a) then none
      else match (if gs false = [] then s.wantPillow n k true (gs true) else s.wantPillow n k false (gs false)) with
        | .room s => some (s.vecBuffer n k ws, true)
        | .direct s => some (s.vecSplit e ws, false)
        | .stalled r => if s.taskStalled n then none else some (r, false)
  | none =>
    if (s.accOf e.acc).isSome then some (s.vecSplit e ws, false)
    else
      let s := s.vecLocal e
      let l := s.vecAccs e
      if l.any (!·.done) then none
      else match ws.head?, l.find? (·.code ≠ 0) with
        | some (.load _ _ _ _), some a => some ((s.endVecAcc e).entTrap e ⟨a.code, 0, e.a⟩, true)
        | some (.load r _ _ _), none =>
          let v := loadedReg (l.filterMap Acc.lane)
          some (s.mapCore c fun x => x.writeVreg (tagOf e.slot e.gen) r v.1 v.2 (decide (v.1 = BitVec.allOnes 2048)), true)
        | _, _ => some (s, true)

/-- The end of entry `e`; `none` while its accesses have yet to perform. -/
def State.vecEnd (s : State) (e : Ent) : Option (State × Bool) :=
  let ws := e.started.getD []
  if e.acc = 0 then some (ws.foldl (fun s w => s.applyWr e w) s, true) else s.vecMemEnd e ws

/-- One of several, where the spec orders none (log entry 2). Log entries 2 (DESIGN CHOICE), 39 (DESIGN CHOICE). -/
def State.pickOf {α : Type} (s : State) : List α → Option (α × State)
  | [] => none
  | [x] => some (x, s)
  | x :: t => some ((x :: t).getD (Config.pick s.free (t.length + 1) % (t.length + 1)) x, s.tick)

/-- The started entries whose latency may end. Log entry 39 (DESIGN CHOICE). -/
def State.vecReadyToEnd (s : State) (l : List Ent) : List Ent := l.filter fun e => e.started.isSome && (s.vecEnd e).isSome

/-- VECTOR_ENTRY_COMPLETE (R339, R340). -/
def execVectorEntryComplete (core : Nat) (s : State) : Out :=
  .next (match s.pickOf (s.vecReadyToEnd (s.core core).vq) with
    | none => s
    | some (e, s) => match s.vecEnd e with
      | some (r, true) => ((r.mapCore core fun x => { x with vq := x.vq.erase e }).endVecAcc e).paid e
      | some (r, false) => r
      | none => s)

end Sys2Proof.Machine
end

