-- ==== Sys2Proof/Machine/Copy.lean ====
section
/-! DEFINITION. Copy commands up to their acceptance (R287, R292, R392, R393, R395 to R407): issue, geometry of rows and pieces,
the checks of a whole specification. -/
namespace Sys2Proof.Machine

/-! ### Issue (R287, R392) -/

/-- The issue of a copy command: it enters the core's queue with its specification as it stands (R427); with a wait peg the strand
waits for its token. -/
def State.issueCopy (s : State) (i : Instr) (f : FC) : Out :=
  let n := s.cur
  let c := coreOf n
  let ix := f.wait.toNat
  let wait := decide (ix ≠ 0xFF)
  s.issue i f.pr ((List.range 8).map (f.spec.toNat + ·)) [] (
    if f.raw ≠ 0 ∧ s.slotOf n ≠ 0 then .trap ⟨cPrivilege, 0, 0⟩
    else if s.inTask n then .trap ⟨cSpecIllegal, 0, 0⟩
    else if wait && !(s.pegOk n ix) then .trap ⟨cOperand, 0, 0⟩
    else if wait && s.objPoison n false ix then .trap ⟨cUncorrectable, 0, 0⟩
    else if (s.core c).cq.length ≥ 64 then .wait s
    else
      let q := (s.core c).cmdSeq
      let k : Copy :=
        { seq := q, strand := n, gid := (s.strand n).grp.getD 0, slot := s.slotOf n, gen := s.genOf n, ins := i, pc := s.getPc n,
          stamp := s.nextId, cs := (List.range 8).map fun j => (s.strand n).s (s.tagOfStrand n) (f.spec.toNat + j), node := none, tok := !wait, lat := 0, accepted := false, boxes := 0, boxLo := 0, doneBoxes := [],
          count := 0, next := 0, open_ := [], code := 0, codeBox := 0, codeAddr := 0, sub := 0, ended := false, tileBad := none,
          tilePoison := false, dests := [], window := 0, bitmap := 0, cursor := 0, twinDst := none, al := 0, bound := false, sent := false,
          poison := false, quiet := false, hold := (s.core c).qptBy.contains n, wrote := [], halves := [] }
      let s := s.mapCore c fun x => { x with cq := x.cq ++ [k], cmdSeq := (q + 1) % 2 ^ 32 }
      if wait then
        let w : Waiter :=
          { who := none, bob := false, ix := ix, kind := 7, n := 1, d := q, len := i.len, tag := s.tagOfStrand n, deadline := none }
        let s := s.mapStrand n fun x => { x with stall := 4, st := .blocked }
        match waitOutcome (s.core c) w with
        | some (code, v, x) => .done (s.release c w code v x)
        | none => .done (s.mapCore c fun x => { x with waiters := x.waiters ++ [w] })
      else .done (s.adv n i))

def execCpy (f : FC) (s : State) : Out := s.issueCopy (.cpy f) f
def execCpyG (f : FC) (s : State) : Out := s.issueCopy (.cpyG f) f
def execCpyS (f : FC) (s : State) : Out := s.issueCopy (.cpyS f) f
def execCpyR (f : FC) (s : State) : Out := s.issueCopy (.cpyR f) f
def execCpyM (f : FC) (s : State) : Out := s.issueCopy (.cpyM f) f
def execCpyW (f : FC) (s : State) : Out := s.issueCopy (.cpyW f) f
def execCpyT (f : FC) (s : State) : Out := s.issueCopy (.cpyT f) f
def execCpyTs (f : FC) (s : State) : Out := s.issueCopy (.cpyTs f) f
def execCpyF (f : FC) (s : State) : Out := s.issueCopy (.cpyF f) f
def execCpyX (f : FC) (s : State) : Out := s.issueCopy (.cpyX f) f
def execCpyQ (f : FC) (s : State) : Out := s.issueCopy (.cpyQ f) f

/-! ### The fields of a command -/

def Copy.op (k : Copy) : Nat := match k.ins.form with | .c op _ => op | _ => 0
def Copy.km (k : Copy) : Nat := match k.ins.form with | .c _ f => f.km.toNat | _ => 0
def Copy.raw (k : Copy) : Nat := match k.ins.form with | .c _ f => f.raw.toNat | _ => 0
def Copy.cls (k : Copy) : Nat := match k.ins.form with | .c _ f => f.cls.toNat | _ => 0
/-- Specification word `i` (R292). -/
def Copy.c (k : Copy) (i : Nat) : Nat := (k.cs.getD i 0).toNat
def Copy.ssp (k : Copy) : Nat := bits (k.c 3) 0 4
def Copy.dsp (k : Copy) : Nat := bits (k.c 3) 4 4
def Copy.sts (k : Copy) : Bool := bit (k.c 3) 8
def Copy.soff (k : Copy) : Nat := 16 * bits (k.c 3) 9 17
def Copy.rot (k : Copy) : Nat := bits (k.c 3) 26 4
/-- R401, R402: a command whose destinations are the members of a multicast group. -/
def Copy.cast (k : Copy) : Bool := k.op == 0xAC || (k.op == 0xAB && bit k.km 3)
/-- R397: the kinds whose boxes R396 cuts. -/
def Copy.linear (k : Copy) : Bool := k.op == 0xA8 || k.op == 0xAC || k.op == 0xAD || k.op == 0xB0 || k.op == 0xB2
def Copy.tile (k : Copy) : Bool := k.op == 0xAE || k.op == 0xAF || k.op == 0xB3
/-- Bytes of a row, rows. -/
def Copy.len (k : Copy) : Nat := k.c 2 % 2 ^ 32
def Copy.rows (k : Copy) : Nat := if k.op = 0xA8 ∨ k.op = 0xB0 then bits (k.c 2) 32 24 else 1
def Copy.sst (k : Copy) : Int := if k.op = 0xA8 then toI 64 (k.c 4) else 0
def Copy.dst' (k : Copy) : Int := if k.op = 0xA8 ∨ k.op = 0xB0 then toI 64 (k.c 5) else 0
/-- Elements or tiles, and the bytes of an element. -/
def Copy.num (k : Copy) : Nat := k.c 2 % 2 ^ 24
def Copy.es (k : Copy) : Nat := if k.op = 0xAB then tyBytes (bits (k.c 2) 24 4) else 2 ^ bits (k.c 2) 24 3
/-- R400: bytes of an index. -/
def Copy.iw (k : Copy) : Nat := if bit (k.c 2) 27 then 8 else 4
def Copy.fmt (k : Copy) : Nat := bits (k.c 2) 24 8
def Copy.dirMode (k : Copy) : Bool := k.op == 0xAE && bit k.km 0
/-- R398: the sides that rotation applies to. -/
def Copy.rotDst (k : Copy) : Bool := k.rot != 0 && k.dsp == 0
def Copy.rotSrc (k : Copy) : Bool := k.rot != 0 && k.ssp == 0 && k.dsp != 0
/-- An address modulo 2^64. -/
def wrap64 (x : Int) : Nat := (x % 2 ^ 64).toNat
/-- R398: the effective address where row `r` of a side begins. -/
def Copy.srcRow (k : Copy) (r : Nat) : Nat := wrap64 (k.c 0 + r * k.sst)
def Copy.dstRow (k : Copy) (r : Nat) : Nat := wrap64 (k.c 1 + r * k.dst')
/-- R130: the address of the companion word of a piece of RAW.TAG. -/
def Copy.tagAddr (k : Copy) (q : Piece) : Nat := (k.c 7 + (q.src - k.c 0) / 64 * 4) % 2 ^ 64
/-- R404, R405: the address of tile `t` at stride word `i` from base word `b`. -/
def Copy.at (k : Copy) (b i t : Nat) : Nat := (k.c b + t * k.c i) % 2 ^ 64

/-! ### Pieces (R396) -/

/-- The first cut of a range that begins at `a`: the bytes to its next granule boundary. -/
def firstCut (a : Nat) : Nat := 64 - a % 64
/-- How many cuts 64 bytes apart from `p` on lie inside `len` bytes. -/
def cutsIn (len p : Nat) : Nat := if p < len then (len - 1 - p) / 64 + 1 else 0
/-- The number of pieces of a row whose sides have their first cuts at `p` and `q`, and where piece `j` begins. -/
def rowPieces (len p q : Nat) : Nat := if len = 0 then 0 else 1 + cutsIn len p + (if p = q then 0 else cutsIn len q)
def pieceAt (p q j : Nat) : Nat :=
  if j = 0 then 0
  else if p = q then p + 64 * (j - 1)
  else if j % 2 = 1 then min p q + 64 * ((j - 1) / 2)
  else max p q + 64 * ((j - 2) / 2)

/-- The first cuts of the destination and of the source of row `r`. Log entry 42 (DEDUCED). -/
def Copy.cuts (k : Copy) (r : Nat) : Nat × Nat :=
  let da := match k.twinDst with
    | some (_, .hbm a, _) => a
    | some (_, .ground a, _) => a
    | _ => 0
  let p := firstCut (k.dstRow r + (if k.dsp = 4 then da else 0))
  (p, if k.op = 0xB0 then p else firstCut (k.srcRow r + (if k.ssp = 4 then k.al else 0)))

def Copy.inRow (k : Copy) (r : Nat) : Nat := let c := k.cuts r; rowPieces k.len c.1 c.2
/-- The cuts of a row repeat every 64 rows. -/
def Copy.inRows (k : Copy) (n : Nat) : Nat := (List.range n).foldl (fun a r => a + k.inRow r) 0
def Copy.pieces (k : Copy) : Nat := k.rows / 64 * k.inRows 64 + k.inRows (k.rows % 64)
/-- The row and the place in it of a piece, searched from row `r`. -/
def Copy.seek (k : Copy) : Nat → Nat → Nat → Nat × Nat
  | 0, r, j => (r, j)
  | fuel + 1, r, j => if j < k.inRow r then (r, j) else k.seek fuel (r + 1) (j - k.inRow r)

/-- Piece `n` of the command. -/
def Copy.piece (k : Copy) (n : Nat) : Piece :=
  let per := k.inRows 64
  let x := k.seek 64 0 (n % per)
  let r := n / per * 64 + x.1
  let c := k.cuts r
  let b := pieceAt c.1 c.2 x.2
  let src := (k.srcRow r + b) % 2 ^ 64
  let dst := (k.dstRow r + b) % 2 ^ 64
  { src := if k.op = 0xB0 then wrap64 (r * k.dst' + b) % 8 else if k.rotSrc then rotAddr k.rot src (r % 16) else src
    dst := if k.rotDst then rotAddr k.rot dst (r % 16) else dst
    n := min (pieceAt c.1 c.2 (x.2 + 1)) k.len - b
    op := if k.op = 0xB0 then 2 else if k.cast then 1 else 0 }

/-- R246: the boxes of a command. -/
def Copy.boxCount (k : Copy) : Nat :=
  if k.op = 0xB2 then (if bit k.km 0 then (k.pieces + 63) / 64 else 0)
  else if k.linear then (k.pieces + 63) / 64
  else if k.tile then k.num
  else (k.num + 63) / 64

/-! ### The checks of acceptance (R393) -/

/-- The scratchpad allotment of a command's group. -/
def State.spadOfCopy (s : State) (k : Copy) : Nat × Nat := match s.group k.gid with | some g => spadRange (g.w 3) | none => (0, 0)

/-- Step 10 for `n` bytes at `ea`: the core mask (R14). -/
def State.spaceBad (s : State) (c slot spc ea : Nat) : Bool :=
  let t := bits ea 27 2 * 48 + bits ea 21 6
  spc == 1 && decide (ea < 2 ^ 29) && decide (bits ea 21 6 < 48) && t != c && !(s.maskBit slot t)

/-- Step 11 for `n` bytes at `ea` (R14, R16, R17, R75); VIRT is checked at translation. -/
def State.boundBad (s : State) (c slot : Nat) (t : Tag) (spad : Nat × Nat) (spc ea n : Nat) : Bool :=
  n != 0 && match spc with
    | 0 => decide (ea ≥ 2 ^ 21) || decide (ea < spad.1) || decide (ea + n > spad.1 + spad.2)
    | 1 => (groundFlat ea n).isNone
    | 2 => decide (ea + n > (s.heapTriple c slot).2.1)
    | 4 =>
      let e := s.twin (dieOfCore c) slot (bits ea 32 10) t
      decide (ea ≥ 2 ^ 42) || !(e.loc == 1 || e.loc == 2) || decide (ea % 2 ^ 32 + n > e.len)
    | _ => false

/-- A TWIN side that names another handle than its first row does. -/
def twinMoves (spc base ea : Nat) : Bool := spc == 4 && bits base 32 10 != bits ea 32 10

/-- The ranges that a side of a command fixes: space, address, bytes. -/
abbrev Range := Nat × Nat × Nat

/-- A rotated row as its granules (R57). -/
def rotRow (rot r ea n : Nat) : List Range :=
  if n = 0 then [] else (List.range ((ea + n - 1) / 64 - ea / 64 + 1)).map fun i =>
    let lo := max ea ((ea / 64 + i) * 64)
    let hi := min (ea + n) ((ea / 64 + i + 1) * 64)
    (0, rotAddr rot lo (r % 16), hi - lo)

/-- R393: the ranges that a specification fixes. -/
def Copy.ranges (k : Copy) : List Range :=
  let rows (rot : Bool) (spc : Nat) (a : Nat → Nat) : List Range :=
    (List.range k.rows).flatMap fun r => if rot then rotRow k.rot r (a r) k.len else [(spc, a r, k.len)]
  let tiles (spc : Nat) (a : Nat → Nat) (n : Nat) : List Range := (List.range k.num).map fun t => (spc, a t, n)
  let rb (f : Nat) : Nat := match sxW f with | some w => recBytes w | none => 0
  if k.op = 0xB2 then (if bit k.km 1 then [] else [(k.ssp, k.c 0, k.len), (k.dsp, k.c 1, k.len)])
  else if k.linear then
    (if k.op = 0xB0 then [] else rows k.rotSrc k.ssp k.srcRow) ++ (if k.cast then [] else rows k.rotDst k.dsp k.dstRow) ++
      (if k.raw = 2 then [(k.dsp, k.c 7, k.len / 64 * 4)] else [])
  else if k.op = 0xAE then
    (if k.dirMode then [(k.ssp, k.c 0, 8 * k.num)] else tiles k.ssp (k.at 0 4) (if k.fmt = 0 then 128 else rb k.fmt)) ++
      tiles k.dsp (k.at 1 5) (if k.fmt = 0 then 128 else rb k.fmt)
  else if k.op = 0xAF then tiles k.ssp (k.at 0 4) (rb k.fmt) ++ tiles k.dsp (k.at 1 5) (rb k.fmt)
  else if k.op = 0xB3 then tiles k.ssp (k.at 0 4) (rb k.fmt) ++ [(k.dsp, k.c 5, 8 * k.num)]
  else if k.op = 0xA9 then [(0, k.c 4, k.num * k.iw), (k.dsp, k.c 1, k.num * k.es)]
  else if k.op = 0xAA then [(0, k.c 4, k.num * k.iw), (k.ssp, k.c 0, k.num * k.es)]
  else [(k.ssp, k.c 0, k.num * k.es)] ++ (if k.cast then [] else [(k.dsp, k.c 1, k.num * k.es)])

/-- Whether a range of a TWIN side names another handle than the side's first address does; the command then ends with ACCESS_BOUND, a
source's as well as a destination's. Log entry 114 (DESIGN CHOICE). -/
def Copy.moves (k : Copy) (r : Range) : Bool := twinMoves r.1 (k.c 0) r.2.1 && twinMoves r.1 (k.c 1) r.2.1

/-- R393: whether source and destination rows in one space share a byte as written. Log entry 44 (DEDUCED). -/
def Copy.overlaps (k : Copy) : Bool :=
  let l : Int := k.len
  let d := k.dst'
  let hit (r : Nat) : Bool :=
    let x : Int := k.c 0 + r * k.sst - k.c 1
    if d = 0 then decide (x.natAbs < k.len)
    else
      let a := (x - l) / d
      let b := (x + l) / d
      let lo := min a b
      let hi := max a b + 1
      let on (j : Int) : Bool := decide (0 ≤ j) && decide (j < k.rows) && decide ((x - j * d).natAbs < k.len)
      if hi - lo ≤ 8 then (List.range (hi - lo + 1).toNat).any fun i => on (lo + i)
      else (List.range k.rows).any fun j => on j
  k.op != 0xB0 && k.op != 0xB2 && !(k.cast) && k.ssp == k.dsp && k.len != 0 && (List.range k.rows).any hit

/-- R393: overlap of the ranges that tiles and elements fix. Log entry 44 (DEDUCED). -/
def Copy.meetsSelf (k : Copy) : Bool :=
  let meet (a n b m : Nat) : Bool := decide (a < b + m) && decide (b < a + n)
  if k.linear then k.overlaps
  else if k.ssp != k.dsp || k.cast then false
  else if k.op = 0xAB then meet (k.c 0) (k.num * k.es) (k.c 1) (k.num * k.es)
  else if k.tile && !(k.dirMode) then
    let n := match sxW k.fmt with | some w => recBytes w | none => 128
    k.op != 0xB3 && (List.range k.num).any fun t => (List.range k.num).any fun u => meet (k.at 0 4 t) n (k.at 1 5 u) n
  else k.dirMode && (List.range k.num).any fun u =>
    meet (k.c 0) (8 * k.num) (k.at 1 5 u) (match sxW k.fmt with | some w => recBytes w | none => 0)

/-- R401: whether an element type may be combined with an operation. -/
def redOk (ty op : Nat) : Bool := decide (ty ≤ 7) || (decide (8 ≤ ty) && decide (ty ≤ 11) && decide (op ≤ 2))

def zeroFrom (x lo : Nat) : Bool := x / 2 ^ lo == 0

/-- Step 9 for a command (R395, R397 to R407): every field and every word that its kind gives no meaning. Log entry 45 (DEDUCED). -/
def Copy.fieldsOk (k : Copy) : Bool :=
  let w := k.c
  let z (l : List Nat) : Bool := l.all fun i => w i == 0
  let fmtOk := (sxW k.fmt).isSome
  zeroFrom (w 3) 30 && (k.rot == 0 || (k.op == 0xA8 && k.rot != 15 && (k.ssp == 0 || k.dsp == 0))) && (k.raw == 0 || k.op == 0xA8) &&
  !(k.meetsSelf) &&
  match k.op with
  | 0xA8 => zeroFrom (w 2) 56 &&
      (if k.raw = 0 then z [6, 7]
       else decide (1 ≤ w 6) && decide (w 6 ≤ 63) && (k.raw == 2 || w 7 == 0) && k.len % 64 == 0 && k.rows == 1 && k.rot == 0)
  | 0xA9 => zeroFrom (w 2) 28 && decide (bits (w 2) 24 3 ≤ 6) && z [5, 6, 7]
  | 0xAA => zeroFrom (w 2) 28 && decide (bits (w 2) 24 3 ≤ 6) && z [5, 6, 7]
  | 0xAB => zeroFrom (w 2) 28 && redOk (bits (w 2) 24 4) (k.km % 8) && z [4, 6, 7] && (if k.cast then zeroFrom (w 5) 6 && k.dsp == 0 else z [5])
  | 0xAC => zeroFrom (w 2) 32 && zeroFrom (w 5) 6 && k.dsp == 0 && z [4, 6, 7]
  | 0xAD => zeroFrom (w 2) 32 && bits (w 5) 11 5 == 0 && zeroFrom (w 5) 22 &&
      (bit (w 5) 10 || (bits (w 5) 0 10 == 0 && bits (w 5) 16 6 == 0)) && w 6 != 0 && z [7]
  | 0xAE => zeroFrom (w 2) 32 && (fmtOk || (k.fmt == 0 && !(k.dirMode) && decide (288 ≤ w 5))) && z [6, 7]
  | 0xAF => zeroFrom (w 2) 32 && fmtOk && z [6, 7]
  | 0xB0 => zeroFrom (w 2) 56 && w 0 == 0 && k.ssp == 0 && z [6, 7]
  | 0xB2 => zeroFrom (w 4) 10 && z [5, 6, 7] &&
      (if bit k.km 1 then !(bit k.km 0) && z [0, 1, 2] && k.ssp == 0 && k.dsp == 0
       else (k.ssp == 3 || k.dsp == 3 || (k.ssp == k.dsp && (k.ssp == 1 || k.ssp == 2))) && w 2 % 64 == 0 && decide (64 ≤ w 2) && decide (w 2 ≤ 0xFFFFFFC0) &&
         !(decide (w 0 < w 1 + w 2) && decide (w 1 < w 0 + w 2)))
  | _ => zeroFrom (w 2) 32 && fmtOk && zeroFrom (w 6) 40 && z [7]

/-- Step 10: the spaces of a command (R14, R15, R404 to R406). -/
def Copy.spacesOk (k : Copy) : Bool :=
  let ok (x : Nat) : Bool := decide (x ≤ 5) && x != 3
  ok k.ssp && ok k.dsp && match k.op with
    | 0xAE => decide (k.dsp ≤ 1)
    | 0xAF => decide (k.ssp ≤ 1)
    | 0xB3 => decide (k.ssp ≤ 1) && (k.dsp == 2 || k.dsp == 5)
    | _ => true

/-- Step 12. Log entry 45 (DEDUCED). -/
def Copy.aligned (k : Copy) : Bool :=
  let w := k.c
  match k.op with
  | 0xA8 => k.raw == 0 || (w 0 % 64 == 0 && w 1 % 64 == 0 && (k.raw == 1 || w 7 % 4 == 0))
  | 0xA9 => w 4 % k.iw == 0 && w 1 % k.es == 0
  | 0xAA => w 4 % k.iw == 0 && w 0 % k.es == 0
  | 0xAD => w 4 % 8 == 0
  | 0xAE => w 1 % 32 == 0 && w 5 % 32 == 0 && (!(k.dirMode) || w 4 % 32 == 0)
  | 0xAF => w 1 % 32 == 0 && w 5 % 32 == 0
  | 0xB3 => w 1 % 32 == 0 && w 5 % 8 == 0
  | _ => true

/-- R393, R397: steps 3 and 7 (of a copy node, R209) and 9 to 12 of R296 on a command; with a count of 0 no range is touched. -/
def State.copyCheck (s : State) (c : Nat) (k : Copy) : Chk Unit := do
  let t := tagOf k.slot k.gen
  let spad := s.spadOfCopy k
  let l := k.ranges
  need (match k.ins.form with | .c op f => k.node.isNone || f.ok op | _ => true) cEncoding
  need (k.raw == 0 || k.slot == 0) cPrivilege
  need k.fieldsOk cOperand
  need (!(k.cast) || k.dests != []) cOperand
  need k.spacesOk cSpace
  need (l.all fun r => r.2.2 == 0 || !(s.spaceBad c k.slot r.1 r.2.1)) cSpace
  need (l.all fun r => !(s.boundBad c k.slot t spad r.1 r.2.1 r.2.2) && !(r.2.2 != 0 && k.moves r)) cBound
  need (!(k.sts) || (decide (spad.1 ≤ k.soff) && decide (k.soff + 16 ≤ spad.1 + spad.2))) cBound
  need (k.op != 0xAD || (zeroFrom (k.c 4) 34 && (bit (k.c 5) 10 || decide (bits (k.c 4) 0 32 + 8 ≤ (s.syncWindow c k.slot).1)))) cBound
  need k.aligned cMisaligned
  need (l.all fun r => r.1 != 4 || r.2.2 == 0 || !(s.twinBad (dieOfCore c) k.slot (bits r.2.1 32 10) t)) cUncorrectable

end Sys2Proof.Machine
end

