-- ==== Sys2Proof/Machine/CopyRun.lean ====
section
/-! DEFINITION. The copy engine at work (R168 to R171, R246, R247, R392 to R407): acceptance, boxes and their accesses, tiles, the
arrival and return of accesses, requests to peers and their answers (R95, R107 to R109), and what table walks, fault responses
and completions release. -/
namespace Sys2Proof.Machine

/-! ### Looking up -/

def State.copyOf (s : State) (c seq : Nat) : Option Copy := (s.core c).cq.find? (·.seq == seq)
def State.mapCopy (s : State) (c seq : Nat) (f : Copy → Copy) : State :=
  s.mapCore c fun x => { x with cq := x.cq.map fun k => if k.seq = seq then f k else k }
def Copy.box (k : Copy) (b : Nat) : Option Box := k.open_.find? (·.num == b)
def Copy.mapBox (k : Copy) (b : Nat) (f : Box → Box) : Copy := { k with open_ := k.open_.map fun x => if x.num = b then f x else x }
def State.mapBox (s : State) (p : Who) (f : Box → Box) : State := s.mapCopy p.1 p.2.1 (·.mapBox p.2.2.1 f)
/-- The command, box and piece of an access. -/
def State.pieceOf (s : State) (p : Who) : Option (Copy × Box × Piece) :=
  match s.copyOf p.1 p.2.1 with
  | none => none
  | some k => match k.box p.2.2.1 with
    | none => none
    | some b => (b.pieces[p.2.2.2]?).map fun q => (k, b, q)

def Box.isDone (b : Box) (k : Nat) : Bool := b.doneMask.getLsbD k
def Box.allDone (b : Box) : Bool := (List.range b.pieces.length).all b.isDone

def Acc.isPiece (a : Acc) (p : Who) : Bool := a.why == .piece p.1 p.2.1 p.2.2.1 p.2.2.2
def State.flying (s : State) (p : Who) : Bool := s.flight.any (·.isPiece p)
/-- Whether an access waits on a walk or on the host. -/
def State.translating (s : State) (p : Who) (slot : Nat) : Bool :=
  let d := s.die (dieOfCore p.1)
  (d.walks ++ d.walkQ).any (·.waiters.contains p) || (s.fn slot).atsWait.any (·.waiters.contains p)
/-- Whether an access is held on a fault record. -/
def State.onRecord (s : State) (p : Who) : Bool := (s.die (dieOfCore p.1)).frecs.any (·.waiters.contains p)

/-- Whether some access of a box that is known by now has been neither translated nor held. -/
def State.someFree (s : State) (c : Nat) (k : Copy) (b : Box) : Bool :=
  (List.range b.pieces.length).any fun i =>
    let p : Who := (c, k.seq, b.num, i)
    !(b.isDone i) && !(s.flying p) && !(s.onRecord p)
/-- Whether a box will make accesses that what it reads has yet to give: a tile box until its writes are known. -/
def Copy.moreToCome (k : Copy) (b : Box) : Bool := k.tile && b.pieces.all (·.op != 2)
/-- R247: whether some access of a box has been neither translated nor held. -/
def State.unresolved (s : State) (c : Nat) (k : Copy) (b : Box) : Bool := s.someFree c k b || k.moreToCome b
/-- R32, R43: whether a box has accesses still to issue that no fault record holds up. Log entry 41 (DEDUCED). -/
def State.issuing (s : State) (c : Nat) (k : Copy) (b : Box) : Bool :=
  s.someFree c k b || (k.moreToCome b && !((List.range b.pieces.length).any fun i => s.onRecord (c, k.seq, b.num, i)))

/-! ### The end of accesses and boxes (R246, R394) -/

/-- R246: BOX_LO moves past every leading completed box. -/
def Copy.advance : Nat → Copy → Copy
  | 0, k => k
  | n + 1, k => if Tbl.get false k.doneBoxes k.boxLo then
      Copy.advance n { k with doneBoxes := Tbl.del k.doneBoxes k.boxLo, boxLo := k.boxLo + 1 } else k

/-- A box has ended; it is completed unless an access of it failed. -/
def Copy.close (k : Copy) (b : Box) : Copy :=
  let k := { k with open_ := k.open_.filter (·.num != b.num) }
  if b.bad then k else Copy.advance 4097 { k with doneBoxes := Tbl.put false k.doneBoxes b.num true, count := k.count + 1 }

/-- Access `p` is over; `more` gives the accesses that follow in the box. -/
def State.pieceEnd (s : State) (p : Who) (bad : Bool) (more : List Piece) (buf : List Byte) : State :=
  s.mapCopy p.1 p.2.1 fun k =>
    match k.box p.2.2.1 with
    | none => k
    | some b =>
      let b := { b with
        doneMask := b.doneMask ||| BitVec.ofNat 64 (2 ^ p.2.2.2)
        bad := b.bad || bad
        pieces := b.pieces ++ more
        buf := buf }
      if b.allDone then k.close b else k.mapBox b.num fun _ => b

/-- R394: a failing access gives the command its code, if its box is the lowest that fails; no further box starts. -/
def Copy.fail (k : Copy) (b : Nat) (code : Code) (ea : W64) : Copy :=
  if k.ended ∧ ¬(b < k.codeBox) then k else { k with ended := true, code := code, codeBox := b, codeAddr := ea }

def State.pieceFail (s : State) (p : Who) (code : Code) (ea : Nat) : State :=
  (s.mapCopy p.1 p.2.1 fun k => k.fail p.2.2.1 code (BitVec.ofNat 64 ea)).pieceEnd p true []
    (match s.pieceOf p with | some x => x.2.1.buf | none => [])

/-! ### Tiles (R147, R148, R404 to R406) -/

/-- R145: fields of a directory entry. -/
def dirKind (e : Nat) : Nat := bits e 44 4
def dirLen (e : Nat) : Nat := bits e 40 4
def dirSec (e : Nat) : Nat := bits e 0 40

/-- What the bytes read so far of a tile give: more to read (address, bytes), a malformed tile, or a record. -/
inductive TileGot where
  | more (a n : Nat)
  | bad (sub : Nat)
  | good (w : Nat) (r : TRec)

/-- The smaller of two subcodes, 0 for none. -/
def subMin (a b : Nat) : Nat := if a = 0 then b else if b = 0 then a else min a b

/-- A plain record of expected format `exp` (0 any); `other` is a subcode from its directory entry. -/
def plainGot (exp other : Nat) (d : List Byte) : TileGot :=
  let f := ofLe (slice d 0 1)
  match sxW f with
  | none => .bad (subMin 2 other)
  | some w =>
    let r := TRec.ofBytes w d
    let m := subMin (if badFormat f exp then 2 else r.bad w) other
    if m ≠ 0 then .bad m else .good w r

/-- Read stage `i` of a tile found by a directory entry: 0 the entry, then the tile. -/
def dirGot (k : Copy) (e i : Nat) (d : List Byte) : TileGot :=
  let w := (sxW k.fmt).getD 2
  let a := (k.c 4 + 32 * dirSec e) % 2 ^ 64
  let rz := if bits e 48 16 ≠ 0 then 6 else 0
  if i = 0 then
    match dirKind e with
    | 0 =>
      let m := if dirLen e ≠ 0 then 3 else if dirSec e ≠ 0 then 6 else rz
      if m ≠ 0 then .bad m else .good w (TRec.make w 0 0 0 [])
    | 1 => .more a 48
    | 2 => .more a (recBytes w)
    | _ => .bad 1
  else if dirKind e = 2 then plainGot k.fmt (subMin rz (if dirLen e ≠ recBytes w / 32 then 3 else 0)) d
  else
    let m := subMin (packedBad1 k.fmt d) (if dirLen e ≠ packedLen w (packedCount d) then 3 else 0)
    if i = 1 then if m ≠ 0 then .bad m else .more a (32 * dirLen e)
    else
      let m := subMin m (subMin rz (if m = 0 then packedBad2 w d else 0))
      if m ≠ 0 then .bad m else .good w (expandPacked w d)

/-- What the read of piece `i` of a tile box gives; `e` is the directory entry, once read. -/
def Copy.got (k : Copy) (e i b : Nat) (d : List Byte) : TileGot :=
  if k.dirMode then dirGot k (if i = 0 then ofLe d else e) i d
  else if k.fmt ≠ 0 then plainGot k.fmt 0 d
  else
    let f := ofLe (slice d 0 1)
    match sxW f with
    | none => .bad 2
    | some w => if d.length ≠ recBytes w then .more (k.at 0 4 b) (recBytes w) else plainGot 0 0 d

/-- The bytes to write for a record, and the accesses that write them from the box's buffer; with the new cursor. -/
def Copy.put (k : Copy) (b w : Nat) (r : TRec) : List Byte × List Piece × Nat :=
  if k.op = 0xAE then
    let d := (if bit k.km 1 then r.transpose w else r).toBytes w
    (d, [⟨0, k.at 1 5 b, d.length, 2⟩], k.cursor)
  else if k.op = 0xAF then (r.toBytes w, [⟨0, k.at 1 5 b, recBytes w, 2⟩], k.cursor)
  else
    let c := k.cursor
    let ent (kind len sec : Nat) : List Byte := leBytes 8 (sec % 2 ^ 40 + len * 2 ^ 40 + kind * 2 ^ 44)
    let dir := (k.c 5 + 8 * b) % 2 ^ 64
    if r.e = 0 then (leBytes 8 0, [⟨0, dir, 8, 2⟩], c)
    else
      let p := (packRec w r).1
      let pack := decide (p.length < recBytes w)
      let d := if pack then p else r.toBytes w
      let l := d.length / 32
      (d ++ ent (if pack then 1 else 2) l c, [⟨0, (k.c 1 + 32 * c) % 2 ^ 64, d.length, 2⟩, ⟨d.length, dir, 8, 2⟩], c + l)

/-- R404, R405: tile `b` is not delivered; UNCORRECTABLE wins over TILE_MALFORMED and the lowest tile is named. CPY.Q stops. -/
def Copy.badTile (k : Copy) (b : Nat) (poison : Bool) (sub : Nat) : Copy :=
  let take := match k.tileBad with
    | none => true
    | some t => if poison = k.tilePoison then decide (b < t) else poison
  let k := if take then { k with tileBad := some b, tilePoison := poison, sub := if poison then 0 else sub } else k
  if k.op = 0xB3 then k.fail b (if poison then cUncorrectable else cTileMalformed) 0 else k

/-- A read of a tile box is over with bytes `d`. Log entry 48 (DEDUCED). -/
def State.tileRead (s : State) (p : Who) (k : Copy) (b : Box) (d : List Byte) (poison : Bool) : State :=
  let t := b.num
  let stop (s : State) (poison : Bool) (sub : Nat) : State :=
    (s.mapCopy p.1 p.2.1 fun k => k.badTile t poison sub).pieceEnd p (k.op == 0xB3) [] []
  if poison then stop s true 0
  else
    let i := p.2.2.2
    let e := if k.dirMode ∧ i = 0 then d else b.buf
    match k.got (ofLe e) i t d with
    | .bad sub => stop s false sub
    | .more a n => s.pieceEnd p false [⟨a, 0, n, 1⟩] (if k.dirMode then e else [])
    | .good w r =>
      let x := k.put t w r
      (s.mapCopy p.1 p.2.1 fun k => { k with cursor := x.2.2 }).pieceEnd p false x.2.1 x.1

/-- An access has made all its reads and writes; with a code, `ea` is the address of the side that gave it. -/
def State.pieceDone (s : State) (a : Acc) (p : Who) : State :=
  let s := s.dropAcc a.id
  match s.pieceOf p with
  | none => s
  | some (k, b, q) =>
    if k.tile ∧ q.op = 1 then s.tileRead p k b a.data (a.code == cUncorrectable)
    else if a.code ≠ 0 then s.pieceFail p a.code a.ea.toNat
    else s.pieceEnd p false [] b.buf

/-- An access ends with a code. -/
def State.accFail (s : State) (a : Acc) (p : Who) (code : Code) (ea : Nat) : State := (s.dropAcc a.id).pieceFail p code ea

def sumN (l : List (Place × Nat)) : Nat := l.foldl (fun a x => a + x.2) 0
/-- R395: the effective address of the side that an access is at: its source until all of that is read, then its destination, and last
the companion bytes of RAW.TAG. -/
def Acc.at (a : Acc) (k : Copy) (q : Piece) : Nat :=
  if a.rsegs = [] ∨ (q.op ≠ 2 ∧ q.n ≤ a.data.length) then (if k.raw = 2 ∧ sumN a.wsegs ≤ 4 then k.tagAddr q else q.dst) else q.src
/-- A range gave a code. -/
def Acc.meet (a : Acc) (k : Copy) (q : Piece) (code : Code) : Acc :=
  if code = 0 ∨ a.code ≠ 0 then a else { a with code := code, ea := BitVec.ofNat 64 (a.at k q) }
def State.failAt (s : State) (a : Acc) (p : Who) (code : Code) : State :=
  match s.pieceOf p with
  | some (k, _, q) => s.accFail a p code (a.at k q)
  | none => s.dropAcc a.id

/-! ### Issuing an access (R17, R393, R396, R400) -/

inductive Segs where
  | ok (l : List (Place × Nat)) (t : List (Tlb × Nat))
  | held
  | fail (c : Code)

/-- VIRT bytes, granule by granule; `fuel` bounds the granules. -/
def State.virtSegs (given : Option Tlb) (p : Who) (slot gen : Nat) (wr : Bool) : Nat → Nat → Nat → State → State × Segs
  | 0, _, _, s => (s, .ok [] [])
  | fuel + 1, ea, n, s =>
    if n = 0 then (s, .ok [] [])
    else
      let m := min n (64 - ea % 64)
      match s.xlate given p slot gen ea wr with
      | (s, .held) => (s, .held)
      | (s, .fail c) => (s, .fail c)
      | (s, .ok q t) => match State.virtSegs given p slot gen wr fuel (ea + m) (n - m) s with
        | (s, .ok l ts) => (s, .ok ((q, m) :: l) ((t.map fun t => (t, ea)).toList ++ ts))
        | r => r

/-- The place `o` bytes on. -/
def Place.off (p : Place) (o : Nat) : Place :=
  match p with
  | .hbm a => .hbm (a + o)
  | .ground a => .ground (a + o)
  | .host a => .host (a + o)
  | .peer d a => .peer d (a + o)
  | q => q
/-- R164: ranges of an element that lie side by side in one memory are one range. -/
def joinSegs : List (Place × Nat) → List (Place × Nat)
  | [] => []
  | (p, n) :: t => match joinSegs t with
    | (q, m) :: r => if p.off n = q then (p, n + m) :: r else (p, n) :: (q, m) :: r
    | [] => [(p, n)]

/-- R22: the granules of device memory that translations with CACHE 0 reach. -/
def uncGrans (l : List (Tlb × Nat)) : List Nat :=
  (l.filter fun x => x.1.mode == 0 && !x.1.host && !x.1.cache).map fun x => x.1.out x.2 / 64

/-- Where `n` bytes at `ea` of a side of a command lie: `buf` is the buffer of a TWIN side with its handle and length. Log entry 51 (DEDUCED). -/
def State.sideSegs (s : State) (given : Option Tlb) (p : Who) (k : Copy) (spc ea n : Nat) (wr : Bool) (hd : Nat) (buf : Option (Place × Nat)) :
    State × Segs :=
  let c := p.1
  let bad := s.boundBad c k.slot (tagOf k.slot k.gen) (s.spadOfCopy k) spc ea n
  match spc with
  | 0 => if bad then (s, .fail cBound) else (s, .ok [(.ground (sliceAt c ea), n)] [])
  | 1 => if s.spaceBad c k.slot 1 ea then (s, .fail cSpace) else match groundFlat ea n with
    | none => (s, .fail cBound)
    | some (_, a) => (s, .ok [(.ground a, n)] [])
  | 2 => if bad then (s, .fail cBound) else (s, .ok [(.hbm ((s.heapTriple c k.slot).2.2 + ea), n)] [])
  | 4 => match buf with
    | none => (s, .fail cBound)
    | some (b, len) =>
      if ea ≥ 2 ^ 42 ∨ bits ea 32 10 ≠ hd ∨ ea % 2 ^ 32 + n > len then (s, .fail cBound) else (s, .ok [(b.off (ea % 2 ^ 32), n)] [])
  | _ => State.virtSegs given p k.slot k.gen wr 16 ea n s

/-- R405: memory of this package. -/
def Place.ours (p : Place) : Bool := match p with | .hbm _ => true | .ground _ => true | _ => false

/-- R398: the bytes of a fill from offset `o` of the pattern. -/
def fillBytes (v o n : Nat) : List Byte := (List.range n).map fun i => BitVec.ofNat 8 (v / 256 ^ ((o + i) % 8))

/-- Whether an element's addresses are aligned to it (R400). -/
def Copy.elemOk (k : Copy) (q : Piece) : Bool := (k.op != 0xA9 && k.op != 0xAA) || (q.src % k.es == 0 && q.dst % k.es == 0)

/-- Issue access `p`: translate its sides; it is then in flight, waits, or fails. Log entry 51 (DEDUCED). -/
def State.issuePiece (s : State) (given : Option Tlb) (p : Who) : State :=
  match s.pieceOf p with
  | none => s
  | some (k, b, q) =>
    if b.isDone p.2.2.2 || s.flying p || s.translating p k.slot || s.onRecord p then s
    else
      let src := if q.op = 2 then (s, .ok [] []) else s.sideSegs given p k k.ssp q.src q.n false (bits (k.c 0) 32 10) b.twin
      match src with
      | (s, .held) => s
      | (s, .fail c) => s.pieceFail p c q.src
      | (s, .ok rs ts) =>
        let dst := if q.op = 1 then (s, .ok [] []) else
          s.sideSegs given p k k.dsp q.dst q.n true (bits (k.c 1) 32 10) (k.twinDst.map (·.2))
        match dst with
        | (s, .held) => s.mapBox p fun b => { b with tagSide := b.tagSide &&& ~~~(BitVec.ofNat 64 (2 ^ p.2.2.2)) }
        | (s, .fail c) => s.pieceFail p c q.dst
        | (s, .ok ws us) =>
          let tag := if k.raw = 2 then s.sideSegs given p k k.dsp (k.tagAddr q) 4 true (bits (k.c 1) 32 10) (k.twinDst.map (·.2)) else (s, .ok [] [])
          match tag with
          | (s, .held) => s.mapBox p fun b => { b with tagSide := b.tagSide ||| BitVec.ofNat 64 (2 ^ p.2.2.2) }
          | (s, .fail c) => s.pieceFail p c (k.tagAddr q)
          | (s, .ok xs vs) =>
            if k.elemOk q = false then s.pieceFail p cMisaligned (if q.src % k.es = 0 then q.dst else q.src)
            else if k.op = 0xAF ∧ ¬(ws.all (·.1.ours)) then s.pieceFail p cSpace q.dst
            else
              let s := (ts ++ us ++ vs).foldl (fun s t => s.countHot (dieOfCore p.1) t.1 t.2) s
              let rs := if k.op = 0xAB then joinSegs rs else rs
              let ws := if k.op = 0xAB then joinSegs ws else ws
              let far := (rs ++ ws ++ xs).foldl (fun m x => max m (x.1.scope p.1)) 0
              s.addAcc
                { id := s.nextId, ord := s.nextId, strand := 1000, core := p.1, slot := k.slot, gen := k.gen, why := .piece p.1 p.2.1 p.2.2.1 p.2.2.2,
                  cls := k.cls, scope := if k.cast then max far 3 else if k.ssp = 4 ∨ k.dsp = 4 then max far 2 else far
                  src := .none, dst := .none, n := q.n
                  runc := uncGrans ts, wunc := uncGrans (us ++ vs)
                  data := if q.op ≠ 2 then [] else if k.op = 0xB0 then fillBytes (k.c 4) q.src q.n else slice b.buf q.src q.n
                  rsegs := rs
                  wsegs := if k.cast then k.dests.map fun d => (Place.peer d (q.dst), q.n) else ws ++ xs
                  task := none, pc := k.pc, ins := (encodeWord k.ins).getD 0, ea := BitVec.ofNat 64 q.src, done := false, twin := false, code := 0 }

/-- Issue what is still to be issued of the open boxes of a command. -/
def State.issueBoxes (s : State) (c : Nat) (k : Copy) : State :=
  k.open_.foldl (fun s b => (List.range b.pieces.length).foldl (fun s i => s.issuePiece none (c, k.seq, b.num, i)) s) s

/-- R395: the effective address of access `i` of a box on its reading side, or on the side that it writes: the destination's, or that of
its companion bytes where it is these that it has asked for. -/
def Copy.sideAddr (k : Copy) (b : Box) (q : Piece) (i : Nat) (wr : Bool) : Nat :=
  if wr then (if b.tagSide.getLsbD i then k.tagAddr q else q.dst) else q.src
/-- The accesses of a list that wait on one side of them end with a code. -/
def State.failSide (s : State) (l : List Who) (wr : Bool) (code : Code) : State :=
  l.foldl (fun s p => match s.pieceOf p with
    | some (k, b, q) => s.pieceFail p code (k.sideAddr b q p.2.2.2 (wr || q.op == 2))
    | none => s) s

/-- What was waiting goes on. -/
def State.reissue (s : State) (given : Option Tlb) (l : List Who) : State := l.foldl (fun s p => s.issuePiece given p) s

/-! ### Acceptance (R292, R392 to R396) -/

/-- R105, R106: the entry of a slot's multicast group on a die. -/
def State.mcastOf (s : State) (d slot g : Nat) (t : Tag) : Nat := ((Tbl.get zMcast (s.die d).mcast (slot * 64 + g)).read t 0).toNat
/-- Log entry 50 (DEDUCED). -/
def mcastDests (v : Nat) : List Nat := (List.range (min (bits v 0 8) 16)).map fun i => bits v (32 + 10 * i) 10

/-- The buffer of a twin entry: visible or shadow. -/
def twinPlace (e : Twin) (shadow : Bool) : Option Place :=
  let a := if shadow then e.shd else e.vis
  if e.loc = 1 then some (.hbm a) else if e.loc = 2 then (groundFlat a 1).map fun x => .ground x.2 else none

/-- The command with what it captures: its group, the buffers of its TWIN sides, the cursor. Log entry 42 (DEDUCED). -/
def State.capture (s : State) (c : Nat) (k : Copy) : Copy :=
  let t := tagOf k.slot k.gen
  let k := { k with accepted := true }
  let d := dieOfCore c
  let e (i : Nat) : Twin := s.twin d k.slot (bits (k.c i) 32 10) t
  let g := s.mcastOf d k.slot (bits (k.c 5) 0 6) t
  { k with
    dests := if k.cast then mcastDests g else []
    window := if k.cast then bits g 8 8 else 0
    cursor := if k.op = 0xB3 then bits (k.c 6) 0 40 else 0
    al := if k.ssp = 4 then (e 0).vis % 64 else 0
    twinDst := if k.dsp = 4 ∧ ¬k.cast then (twinPlace (e 1) true).map fun p => (bits (k.c 1) 32 10, p, (e 1).len) else none }

/-- R407: the entry that CPY.X installs; PUBSEQ and PEND are the home's. Log entry 42 (DEDUCED). -/
def State.bindEntry (s : State) (c : Nat) (k : Copy) : Twin :=
  let h := s.heapTriple c k.slot
  if bit k.km 1 then zTwin0
  else if k.ssp = 2 then { pubseq := 0, pend := false, loc := 1, len := k.len, shd := h.2.2 + k.c 1, vis := h.2.2 + k.c 0 }
  else { pubseq := 0, pend := false, loc := 2, len := k.len, shd := k.c 1 % 2 ^ 29, vis := k.c 0 % 2 ^ 29 }

/-- Accept command `k0` of core `c`; the home of its handle takes PEND unless it has cut for it (R123). -/
def State.acceptCopy (s : State) (c : Nat) (k0 : Copy) : State :=
  let k := s.capture c k0
  let put (s : State) (k : Copy) : State := s.mapCopy c k.seq fun _ => k
  match s.copyCheck c k with
    | .error e => put s { k with ended := true, code := e.code }
    | .ok _ =>
      let k := { k with boxes := k.boxCount }
      let s := put s k
      let s := match k.twinDst with
        | some (h, _) => if s.oldAtDie (h % 4) k.slot k.gen then s.countDrop k.slot else s.mapDie (h % 4) fun x =>
            { x with twins := Tbl.upd zTwin x.twins (k.slot * 1024 + h) fun y => y.part (tagOf k.slot k.gen) zTwin0 fun e => { e with pend := true } }
        | none => s
      if k.op = 0xB2 then
        let h := bits (k.c 4) 0 10
        s.mapDie (h % 4) fun x => { x with pubs := x.pubs ++
          [{ slot := k.slot, gen := k.gen, h := h, pkg := true, strand := none, bind := some (c, k.seq, s.bindEntry c k), started := false,
             prepared := [], acked := [], swapped := [], done := [], committed := false }] }
      else s

/-- R81: a poisoned entry of the copy queue meets its command: the core is contained. -/
def State.poisonedCopy (s : State) (c : Nat) (k : Copy) : State :=
  (s.mapCore c fun x => { x with cq := x.cq.filter (·.seq != k.seq) }).trapGroup k.gid c (s.plainRec cUncorrectable 4 c)

/-- COPY_ACCEPT (R392): the first command whose wait is over, and no QPT before it to be acknowledged (R316); one whose peg was
latched is dropped and its strand traps. -/
def execCopyAccept (core : Nat) (s : State) : Out :=
  .next (match (s.core core).cq.find? (fun k => !k.accepted && k.tok && !k.hold) with
    | none => s
    | some k =>
      if k.poison then s.poisonedCopy core k
      else if k.lat ≠ 0 then
        let s := (s.mapCore core fun x => { x with cq := x.cq.filter (·.seq != k.seq) }).mapStrand k.strand fun x => { x with stall := 0 }
        s.trap k.strand k.lat 0 0 k.pc ((encodeWord k.ins).getD 0)
      else s.acceptCopy core k)

/-! ### Starting a box (R168, R246, R247, R392, R396) -/

/-- R168 rule 3: whether two commands are ordered. Log entry 40 (DEDUCED). -/
def Copy.ordered (k j : Copy) : Bool := classKept k.cls j.cls
/-- Whether every access that a command makes has been made. -/
def Copy.over (k : Copy) : Bool := k.accepted && k.open_.isEmpty && (k.ended || (decide (k.boxes ≤ k.next) && (k.op != 0xB2 || k.bound)))
/-- R168 rule 4, R159: the dirty peer-cached sectors that a command wrote, and whether some of them are on their way.
Log entry 99 (DESIGN CHOICE). -/
def State.unbacked (s : State) (k : Copy) : List (Nat × Nat × Nat × Sector) :=
  if k.wrote.isEmpty then [] else (s.peerSectors k.slot).filter fun e => e.2.2.2.dirty && (find k.wrote (sectorKey e.2.1 e.2.2.1)).isSome
def State.backing (s : State) (k : Copy) : Bool := s.pkg.peers.any fun r => match r.wb with | some q => (find k.wrote q).isSome | none => false
/-- R168 rule 3, R171: whether every write that a command makes has been performed at its scope, a counter's update among them.
Log entry 40 (DEDUCED). -/
def State.copyWritten (s : State) (k : Copy) : Bool :=
  k.over && (s.unbacked k).isEmpty && !(s.backing k) && (k.op != 0xAD || k.bound)

/-- R168 rules 1 and 3, R166: whether the command may make accesses: of the strand's earlier ones those of its class and of class 15
are performed, and the reads of sync variables returned. -/
def State.copyFree (s : State) (c : Nat) (k : Copy) : Bool :=
  (((s.core c).cq.takeWhile (·.seq != k.seq)).all fun j => !(j.ordered k) || s.copyWritten j) &&
  (k.node.isSome || s.flight.all fun a => a.strand != k.strand || decide (k.stamp ≤ a.ord) ||
    (if a.isSync then a.deferred || !a.syncReads else a.done || !(a.cls == 15 || (a.cls == k.cls && k.cls != 0))))

/-- The accesses of box `b`; the index list of a gather or scatter is read now, with whether a word of it is poisoned. -/
def State.boxPieces (s : State) (c : Nat) (k : Copy) (b : Nat) : List Piece × Bool :=
  let es := k.es
  let from_ (total : Nat) (f : Nat → Piece) : List Piece := (List.range (min 64 (total - 64 * b))).map fun i => f (64 * b + i)
  let ix (i : Nat) : Nat := ofLe (s.bytesOf k.slot k.gen (.ground (sliceAt c (k.c 4 + i * k.iw))) k.iw)
  if k.linear then (from_ k.pieces k.piece, false)
  else if k.tile then
    ([if k.dirMode then ⟨(k.c 0 + 8 * b) % 2 ^ 64, 0, 8, 1⟩
      else ⟨k.at 0 4 b, 0, if k.fmt = 0 then 1 else (match sxW k.fmt with | some w => recBytes w | none => 0), 1⟩], false)
  else
    let bad := k.op != 0xAB && s.poisonAt k.slot k.gen (.ground (sliceAt c (k.c 4 + 64 * b * k.iw))) (min 64 (k.num - 64 * b) * k.iw)
    (from_ k.num fun e =>
      { src := if k.op = 0xA9 then (k.c 0 + ix e) % 2 ^ 64 else (k.c 0 + e * es) % 2 ^ 64
        dst := if k.op = 0xAA then (k.c 1 + ix e) % 2 ^ 64 else (k.c 1 + e * es) % 2 ^ 64
        n := es, op := if k.cast then 1 else 0 }, bad)

/-- R122, R177: what waits of the die's commits in the index words of a box performs before they are read; a read that their holder answers
with zero is counted. -/
def State.settleIndex (s : State) (c : Nat) (k : Copy) (b : Nat) : State :=
  let p : Place := .ground (sliceAt c (k.c 4 + 64 * b * k.iw))
  let n := min 64 (k.num - 64 * b) * k.iw
  if k.op = 0xA9 ∨ k.op = 0xAA then (s.settle c p n).noteAccess k.slot k.gen p n 0 else s

/-- R396, R173: the buffer of a TWIN source for a new box; `none` while its replica holds the handle. -/
def State.boxTwin (s : State) (c : Nat) (k : Copy) : Option (Except Code (Option (Place × Nat))) :=
  if k.ssp ≠ 4 ∨ k.op = 0xB0 ∨ k.op = 0xB2 then some (.ok none)
  else
    let d := dieOfCore c
    let h := bits (k.c 0) 32 10
    let t := tagOf k.slot k.gen
    let e := s.twin d k.slot h t
    if (s.die d).holds.contains (k.slot * 1024 + h) then none
    else if s.twinBad d k.slot h t then some (.error cUncorrectable)
    else some (.ok ((twinPlace e false).map fun p => (p, e.len)))

/-- R212: whether a strand is at a safe point, held there or not. -/
def Strand.atRest (x : Strand) : Bool :=
  x.atSafe || x.fresh || (match x.st with | .halted => true | .parked => true | .taskwait => true | .free => true | _ => false)

/-- R251: whether core `c` of a group that is being pre-empted has come to rest, and its copy engine with it. Log entry 25 (DEDUCED). -/
def State.coreStill (s : State) (gid c : Nat) : Bool :=
  match s.group gid with
  | none => false
  | some g => g.pre.isSome && Tbl.get 0 g.choice c != 0 && (g.strands.filter (coreOf · == c)).all fun n => (s.strand n).atRest

/-- Whether the next box of a command may start. Log entry 25 (DEDUCED). -/
def State.mayStart (s : State) (c : Nat) (k : Copy) : Bool :=
  k.accepted && !k.ended && decide (k.next < k.boxes) && decide (k.next < k.boxLo + 4096) && !(s.core c).qpt && !(s.frozen (dieOfCore c)) &&
  !(s.coreStill k.gid c) && (k.op != 0xB2 || k.bound) && (k.op != 0xB3 || k.open_.isEmpty) &&
  decide ((k.open_.filter fun b => b.held || s.unresolved c k b).length < 8) && s.copyFree c k &&
  (((s.core c).cq.filter (·.accepted)).take 8).any (·.seq == k.seq)

/-- COPY_BOX_START (R396): the next box starts, and accesses of the command that have found no room yet are issued. -/
def execCopyBoxStart (core seq : Nat) (s : State) : Out :=
  .next (match s.copyOf core seq with
    | none => s
    | some k =>
      if k.accepted = false ∨ s.copyFree core k = false then s
      else
        let s := s.issueBoxes core k
        match s.copyOf core seq with
        | none => s
        | some k =>
          if s.mayStart core k = false then s
          else if k.poison then s.poisonedCopy core k
          else match s.boxTwin core k with
            | none => s
            | some (.error c) =>
              let src := ((s.boxPieces core k k.next).1.head?.map (·.src)).getD 0
              s.mapCopy core seq fun k => k.fail k.next c (BitVec.ofNat 64 src)
            | some (.ok tw) =>
              let b := k.next
              let s := s.settleIndex core k b
              let r := s.boxPieces core k b
              if r.2 then s.mapCopy core seq fun k => k.fail b cUncorrectable (BitVec.ofNat 64 (k.c 4 + 64 * b * k.iw))
              else
                let x : Box := { num := b, pieces := r.1, doneMask := 0, held := false, buf := [], twin := tw, bad := false, tagSide := 0 }
                let s := s.mapCopy core seq fun k => { k with open_ := k.open_ ++ [x], next := b + 1 }
                (List.range r.1.length).foldl (fun s i => s.issuePiece none (core, seq, b, i)) s)

/-! ### Peer-cached sectors (R66, R174) -/

/-- The die whose directory keeps a sector of a peer (R174). -/
def dirDie (pa : Nat) : Nat := bits pa 7 2
/-- R174, R175: every copy of a peer's sector leaves its bay; a dirty one is written back. -/
def State.sendOut (s : State) (dev pa : Nat) : State :=
  (s.holders (some dev) pa).foldl (fun s b => match (s.bay b).sector (some dev) pa with
    | some x =>
      let s := s.mapBay b fun y => y.setSector (some dev) pa none
      if x.dirty then s.sendBack dev pa x [] else s
    | none => s) s
/-- R101: whether an address of a peer lies in a lease that is being reclaimed, whose sectors are allocated no more. -/
def State.noAllocate (s : State) (dev pa : Nat) : Bool :=
  s.pkg.borrows.any fun b => b.2.st == 3 && b.2.ldev == dev && b.2.lblock == pa / 0x80000000

/-- Put bytes over a sector's. -/
def overBytes (old : List Byte) (o : Nat) (d : List Byte) : List Byte := old.take o ++ d ++ old.drop (o + d.length)

/-- R122, R123: whether an access of core `c` through its bay is an old operation there, or at the directory of a write or a miss. -/
def State.cachedCut (s : State) (c slot gen dev pa : Nat) (wr : Bool) : Bool :=
  s.oldAtDie (dieOfCore c) slot gen ||
    ((wr || ((s.bay (bayOfCore c)).sector (some dev) pa).isNone) && s.oldAtDie (dirDie pa) slot gen)

/-- What becomes of a peer's sector that core `c` needs in its bay. -/
inductive Bring where
  | ready (x : Sector)
  | wait
  | fetch
  | plain
deriving DecidableEq, Repr

/-- R66, R174: bring a sector of a peer to the bay of core `c` for (slot, gen); with `whole`, for a write of all of it, which needs
no fetch. What another tag wrote goes back first; a dirty copy moves, a clean one is shared. Log entry 52 (DEDUCED). -/
def State.bring (s : State) (c slot gen dev pa : Nat) (whole : Bool) : State × Bring :=
  let t := tagOf slot gen
  let own := bayOfCore c
  let hs := s.holders (some dev) pa
  let enter (s : State) (x : Sector) : State := (s.countPerf c slot gen 0xA 1).allocate own (some dev) pa x
  if s.pkg.peers.any fun r => r.wb == some (sectorKey dev pa) then (s, .wait)
  else if s.noAllocate dev pa then if hs.isEmpty then (s, .plain) else (s.sendOut dev pa, .wait)
  else match hs.findSome? fun b => ((s.bay b).sector (some dev) pa).map fun x => (b, x) with
    | none =>
      let x : Sector := ⟨false, t, false, List.replicate 64 0, none⟩
      if !whole then (s.countPerf c slot gen 0xA 1, .fetch)
      else if s.pkg.peers.any fun r => r.dev == dev && r.pa / 64 == pa / 64 && !r.wr then (s, .wait)
      else (enter s x, .ready x)
    | some (b, x) =>
      if x.tag ≠ t then (s.sendOut dev pa, .wait)
      else match (s.bay own).sector (some dev) pa with
        | some y => (s.allocate own (some dev) pa y, .ready y)
        | none =>
          if x.dirty then (enter (s.mapBay b fun y => y.setSector (some dev) pa none) x, .ready x) else (enter s x, .ready x)

/-- R66, R79, R174: a write of a sector that the bay of core `c` holds: no other bay has it then. -/
def State.putCached (s : State) (c dev pa : Nat) (d : List Byte) (poison : Bool) : State :=
  let own := bayOfCore c
  let s := ((s.holders (some dev) pa).filter (· != own)).foldl (fun s b => s.mapBay b fun y => y.setSector (some dev) pa none) s
  s.mapBay own fun y => match y.sector (some dev) pa with
    | none => y
    | some x => y.setSector (some dev) pa (some { x with
        dirty := true, data := overBytes x.data (pa % 64) d, poison := poison || (x.poison && d.length != 64) })

/-! ### One range of an access where it lies -/

/-- R401: the new element. Log entry 57 (DEDUCED). -/
def redElem (ty op : Nat) (d s : List Byte) : List Byte :=
  let a := ofLe d
  let b := ofLe s
  leBytes (tyBytes ty) (match op with
    | 0 => (vaddE ty 0 false a b).1
    | 1 => (vminE ty a b).1
    | 2 => (vmaxE ty a b).1
    | 3 => a &&& b
    | 4 => a ||| b
    | _ => a ^^^ b)

/-- The slot and generation whose tag a command's data carry (R130). Log entry 47 (DEDUCED). -/
def State.rawTag (s : State) (k : Copy) : Nat × Nat :=
  if k.raw = 0 then (k.slot, k.gen) else (bits (k.c 6) 0 6, (s.ctxOf (bits (k.c 6) 0 6)).gen.toNat)

/-- The granule of a local place, as core `c` sees it. -/
def State.granAt (s : State) (c : Nat) (p : Place) : Gran :=
  match p with
  | .hbm a => (s.memSeen c [a / 64]).gran a
  | .ground a => s.ground.gran a
  | _ => Gran.zero

/-- R170: before and after a command reads `n` bytes at a place, its partly read granules. -/
def State.mapHalves (s : State) (c : Nat) (k : Copy) (f : List Half → List Half) : State :=
  if k.tile then s else s.mapCopy c k.seq fun k => { k with halves := f k.halves }
def State.halvesOf (s : State) (c : Nat) (k : Copy) : List Half := match s.copyOf c k.seq with | some k => k.halves | none => []

/-- R79, R82, R92, R130, R170: read a range of this package or of the host: bytes and a code. -/
def State.readSeg (s : State) (k : Copy) (c : Nat) (unc : List Nat) (p : Place) (n : Nat) : State × List Byte × Code :=
  if s.placeFrozen p then (s, List.replicate n 0, cContained)
  else if s.remoteOk k.slot c p = false then (s.remoteRefused k.slot c p 0, List.replicate n 0, 0)
  else
    let s := (s.settle c p n).mapHalves c k (p.halvesBefore n)
    let o := s.asKept c (s.halvesOf c k)
    let s := s.mapHalves c k (p.halvesAfter n)
    if k.raw = 0 then
      let bad := o.coreBad c k.slot k.gen unc p n
      (s.coreRead c k.slot k.gen unc p n, o.coreBytes c k.slot k.gen unc p n, if bad then cUncorrectable else 0)
    else
      let g := o.granAt c p
      let x := s.rawTag k
      let raw : List Byte := (List.range n).map fun i => match p with
        | .hbm a => o.hbm.raw (a + i)
        | .ground a => o.ground.raw (a + i)
        | .host a => Tbl.get 0 s.host (a + i)
        | _ => 0
      let s := s.coreRead c k.slot k.gen unc p n
      if k.raw = 1 then
        let cur := g.current false (tagOf x.1 x.2) || (match p with | .host _ => true | _ => false)
        (s, if cur then raw else List.replicate n 0, if cur && g.poison then cUncorrectable else 0)
      else (s, raw ++ leBytes 2 g.tag.toNat ++ leBytes 1 ((if g.lease then 1 else 0) + (if g.poison then 2 else 0)) ++ leBytes 1 0,
        if g.poison then cUncorrectable else 0)

/-- Cells of local memory poisoned (R79), in core `c`'s bay too. -/
def State.spoilCells (s : State) (c : Nat) (p : Place) (cs : List Host.Cell) : State :=
  match p with
  | .hbm _ => (gransOf cs).foldl (fun s g => s.bayDone c g) { s with hbm := s.hbm.spoil cs }
  | .ground _ => { s with ground := s.ground.spoil cs }
  | _ => s
/-- The granules of a range that a write of core `c` was let into, poisoned. -/
def State.spoilAt (s : State) (k : Copy) (c : Nat) (unc : List Nat) (p : Place) (d : List Byte) : State :=
  match p with
  | .hbm a => s.spoilCells c p (s.coreCells c k.slot k.gen unc p a d)
  | .ground a => s.spoilCells c p (s.allowedCells k.slot k.gen p a d)
  | _ => s

/-- R115, R130: raw data of a command written whole under slot t's tag; its misses are counted (R329). Log entry 47 (DEDUCED). -/
def State.storeRaw (s : State) (c slot gen : Nat) (unc : List Nat) (t : Tag) (p : Place) (d : List Byte) : State :=
  match p with
  | .hbm a => (s.countMiss c slot gen unc (cellsAt a d)).bayPut c (some 0) unc t (cellsAt a d)
  | .ground a => { s with ground := s.ground.write false t (cellsAt a d) }
  | .host a => s.hostWrite a d
  | _ => s

/-- R176: a write of host memory is a PCIe memory write of the slot's function; class 0 sets Relaxed Ordering. -/
def State.tellHost (s : State) (k : Copy) (p : Place) (d : List Byte) : State :=
  match p with | .host a => s.send (.hostWrite k.slot (k.cls == 0) a d) | _ => s

/-- Write a range of this package or of the host; `first` unless it is the companion stream of RAW.TAG. -/
def State.writeSeg (s : State) (k : Copy) (c : Nat) (unc : List Nat) (p : Place) (d : List Byte) (poison first : Bool) : State × Code :=
  if s.placeFrozen p then (s, cContained)
  else if s.remoteOk k.slot c p = false then (s.remoteRefused k.slot c p 1, 0)
  else
    let s := ((s.settle c p d.length).countPerf c k.slot k.gen 6 d.length).tellHost k p d
    if k.raw ≠ 0 ∧ first then
      let x := s.rawTag k
      let s := s.storeRaw c k.slot k.gen unc (tagOf x.1 x.2) p d
      (if poison then s.spoilCells c p (match p with | .hbm a => cellsAt a d | .ground a => cellsAt a d | _ => []) else s, 0)
    else
      let s := s.coreWrite c k.slot k.gen unc p d
      (if poison && first then s.spoilAt k c unc p d else s, 0)

/-! ### Peer windows (R94, R95) -/

/-- R95 case 3: the local address of `n` bytes at offset `o` of a window that admits device `src`. -/
def State.windowAt (s : State) (src w o n : Nat) (wr : Bool) : Option (Nat × Nat) :=
  let x := s.window w
  if x.v && (x.src == 0x3FF || x.src == src) && (if wr then x.wr else x.rd) && decide (o + n ≤ x.len * 65536) then
    some (x.owner, x.base * 65536 + o)
  else none

/-- A write, or a reducing operation, of a peer on device memory under a tag; data of a poisoned source poison what they reach (R79).
Log entry 53 (DEDUCED). -/
def State.peerStore (s : State) (l : Bool) (t : Tag) (a : Nat) (d : List Byte) (op : Option (Nat × Nat)) (poison : Bool) : State :=
  let d := match op with
    | some (o, ty) => redElem ty o (s.hbm.read l t a d.length) d
    | none => d
  let s := s.memWrite l t (cellsAt a d)
  if poison then { s with hbm := s.hbm.spoil (cellsAt a d) } else s

/-! ### An access goes one step on -/

/-- R398, R400: whether the write of an access waits for an access before it of the same command that writes the same bytes. -/
def Copy.writeWaits (k : Copy) (p : Who) (q : Piece) : Bool :=
  k.open_.any fun b => decide (b.num ≤ p.2.2.1) && (List.range b.pieces.length).any fun i =>
    decide (b.num < p.2.2.1 ∨ i < p.2.2.2) && !(b.isDone i) && match b.pieces[i]? with
      | some r => r.op != 1 && decide (r.dst < q.dst + q.n) && decide (q.dst < r.dst + r.n)
      | none => false

/-- Whether a range lies in this package or the host's memory. -/
def Place.direct (p : Place) : Bool := match p with | .hbm _ => true | .ground _ => true | .host _ => true | _ => false
def Place.isPeer (p : Place) : Bool := match p with | .peer _ _ => true | _ => false

/-- Read the ranges at the head that lie here. -/
def readRun (k : Copy) (c : Nat) (unc : List Nat) : List (Place × Nat) → State → State × List Byte × Code × List (Place × Nat)
  | [], s => (s, [], 0, [])
  | (p, n) :: t, s =>
    if p.direct then
      let r := s.readSeg k c unc p n
      let q := readRun k c unc t r.1
      (q.1, r.2.1 ++ q.2.1, if r.2.2 ≠ 0 then r.2.2 else q.2.2.1, q.2.2.2)
    else (s, [], 0, (p, n) :: t)

/-- Write the ranges at the head that lie here; `o` is where the data of the first begin. -/
def writeRun (k : Copy) (c : Nat) (unc : List Nat) (poison : Bool) (whole : Nat) (d : List Byte) :
    Nat → List (Place × Nat) → State → State × Code × List (Place × Nat)
  | _, [], s => (s, 0, [])
  | o, (p, n) :: t, s =>
    if p.direct then
      let r := s.writeSeg k c unc p (slice d o n) poison (decide (o < whole))
      let q := writeRun k c unc poison whole d (o + n) t r.1
      (q.1, if r.2 ≠ 0 then r.2 else q.2.1, q.2.2)
    else (s, 0, (p, n) :: t)

/-- A request of an access to `n` bytes of a peer. -/
def Acc.request (a : Acc) (dev pa n : Nat) (wr : Bool) (d : List Byte) : PeerReq :=
  { id := 0, dev := dev, slot := a.slot, gen := a.gen, pa := pa, wr := wr, n := n, acc := some a.id, cmd := none, wb := none, fences := [],
    poison := wr && a.code == cUncorrectable, data := d, op := none, fetch := false, stale := false, station := 0, sentAt := 0, msg := .flush 0 }
/-- A request of a copy access to a peer. -/
def State.pieceReq (s : State) (a : Acc) (p : Who) (r : PeerReq) : State :=
  let x := s.askPeer r
  if x.2 then x.1 else s.failAt a p cPeerLost
/-- R174: the request for a peer's sector. -/
def State.fetchReq (s : State) (a : Acc) (p : Who) (dev pa : Nat) : State :=
  s.pieceReq a p { a.request dev (pa / 64 * 64) 64 false [] with fetch := true }

/-- R107, R396: the destination bytes of a box of one row or of elements side by side: first offset and length. -/
def Box.span (b : Box) : Nat × Nat :=
  match b.pieces.head?, b.pieces.getLast? with
  | some p, some q => (p.dst, q.dst + q.n - p.dst)
  | _, _ => (0, 0)
/-- R107: where `n` bytes at offset `off` lie, of a box of `len` bytes from `lo` that the window takes whole. -/
def State.boxAt (s : State) (src w lo len off n : Nat) : Option (Nat × Nat) :=
  if lo ≤ off ∧ off + n ≤ lo + len then (s.windowAt src w lo len true).map fun x => (x.1, x.2 + (off - lo)) else none

/-- R402, R107: box data for destination `i` of a group: the device's own window, or a peer. A frozen die refuses the box (R82); a window
whose owner's generation advances waits for the cut of the die (R121). Log entries 50 (DEDUCED), 118 (DEDUCED). -/
def State.castStep (s : State) (a : Acc) (p : Who) (k : Copy) (b : Box) (i dev off : Nat) : State :=
  let next (s : State) (refused : Bool) : State :=
    let s := if refused then s.mapCopy p.1 p.2.1 fun k => { k with bitmap := k.bitmap ||| 2 ^ i } else s
    match a.wsegs with
    | [_] => s.pieceDone a p
    | _ => s.mapAcc a.id fun a => { a with wsegs := a.wsegs.drop 1 }
  let op := if k.op = 0xAB then some (k.km % 8, bits (k.c 2) 24 4) else none
  let bad := a.code == cUncorrectable
  if dev = s.pkg.devNo then
    match s.boxAt dev k.window b.span.1 b.span.2 off a.n with
    | some (o, x) =>
      if s.frozen (dieOfPa x) then next s true
      else if s.beforeCut o x a.n then s
      else next ((s.peerStore false (s.slotTag o) x a.data op bad).countPerf p.1 a.slot a.gen 6 a.n) false
    | none => next s true
  else
    let r : PeerReq := { a.request dev off a.n true a.data with cmd := some (p.1, p.2.1, 2, i), op := op }
    let x := s.sendReq r (.cast dev a.slot k.window off b.span.1 b.span.2 a.data op bad)
    if x.2 then x.1 else next s true

/-- A range of an access has been read. -/
def State.segRead (s : State) (a : Acc) (p : Who) (k : Copy) (q : Piece) (d : List Byte) (code : Code) (left : List (Place × Nat)) : State :=
  let a' := { a.meet k q code with rsegs := left, data := a.data ++ d }
  if left.isEmpty && a.wsegs.isEmpty then s.pieceDone a' p else s.mapAcc a.id fun _ => a'
/-- Ranges of it have been written; `left` is still to be. -/
def State.segWritten (s : State) (a : Acc) (p : Who) (k : Copy) (q : Piece) (code : Code) (left : List (Place × Nat)) : State :=
  let a' := { a.meet k q code with wsegs := left }
  if left.isEmpty then s.pieceDone a' p else s.mapAcc a.id fun _ => a'

/-- The key of a sector that a command has written, with the effective address. -/
def State.noteWrote (s : State) (p : Who) (dev pa ea : Nat) : State :=
  s.mapCopy p.1 p.2.1 fun k => if (find k.wrote (sectorKey dev pa)).isSome then k else { k with wrote := k.wrote ++ [(sectorKey dev pa, ea)] }

/-- R174: the range at the head is in a peer's sector that the bay may hold. Log entry 99 (DESIGN CHOICE). -/
def State.cachedStep (s : State) (a : Acc) (p : Who) (k : Copy) (q : Piece) (dev pa n : Nat) (wr : Bool) (d : List Byte) : State :=
  if s.cachedCut p.1 a.slot a.gen dev pa wr then
    let s := s.countDrop a.slot
    if wr then s.segWritten a p k q 0 (a.wsegs.drop 1) else s.segRead a p k q (List.replicate n 0) 0 (a.rsegs.drop 1)
  else match s.bring p.1 a.slot a.gen dev pa (wr && n == 64) with
    | (s, .wait) => s
    | (s, .plain) => s.mapAcc a.id fun a =>
        if wr then { a with wsegs := (.peer dev pa, n) :: a.wsegs.drop 1 } else { a with rsegs := (.peer dev pa, n) :: a.rsegs.drop 1 }
    | (s, .fetch) => s.fetchReq a p dev pa
    | (s, .ready x) =>
      if wr then
        (((s.putCached p.1 dev pa d (a.code == cUncorrectable)).noteWrote p dev pa (a.at k q)).countPerf p.1 a.slot a.gen 6 d.length).segWritten
          a p k q 0 (a.wsegs.drop 1)
      else s.segRead a p k q (slice x.data (pa % 64) n) (if x.poison then cUncorrectable else 0) (a.rsegs.drop 1)

/-! ### CPY.R (R164, R401) -/

/-- Whether a range of an element must still come to the bay. -/
def State.absent (s : State) (a : Acc) (p : Who) (wr : Bool) (x : Place) : Bool :=
  match x with
  | .cached dev pa => !(s.cachedCut p.1 a.slot a.gen dev pa wr) &&
      !(((s.bay (bayOfCore p.1)).sector (some dev) pa).any fun y => y.tag == tagOf a.slot a.gen)
  | _ => false
/-- A range of an element comes to the bay, or is reached at the peer; what the peer gave before is then asked for again. -/
def State.redBring (s : State) (a : Acc) (p : Who) (dev pa n : Nat) : State :=
  match s.bring p.1 a.slot a.gen dev pa false with
  | (s, .fetch) => s.fetchReq a p dev pa
  | (s, .plain) =>
    let far (l : List (Place × Nat)) : List (Place × Nat) := l.map fun x => if x = (.cached dev pa, n) then (.peer dev pa, n) else x
    s.mapAcc a.id fun a => { a with rsegs := far a.rsegs, wsegs := far a.wsegs, data := if a.rsegs = [] then a.data.take a.n else [] }
  | (s, _) => s

/-- Whether an element lies in several ranges, one of them at a peer. -/
def splitSegs (l : List (Place × Nat)) : Bool := decide (1 < l.length) && l.any (·.1.isPeer)
/-- The peer range whose bytes come next once `got` bytes of peer ranges have come. -/
def nextPeer : List (Place × Nat) → Nat → Option (Nat × Nat × Nat)
  | [], _ => none
  | (.peer dev pa, n) :: t, got => if n ≤ got then nextPeer t (got - n) else some (dev, pa, n)
  | _ :: t, got => nextPeer t got
/-- The ranges that an access of CPY.R is at, and how many bytes of peer ranges among them have come. -/
def Acc.redSide (a : Acc) : List (Place × Nat) × Nat := if a.rsegs = [] then (a.wsegs, a.data.length - a.n) else (a.rsegs, a.data.length)
/-- R401: whether an access is midway through an element that lies partly at a peer. -/
def State.redOpen (s : State) (a : Acc) : Bool :=
  (match a.why with | .piece c q _ _ => (s.copyOf c q).any (·.op == 0xAB) | _ => false) &&
    (a.done || (splitSegs a.redSide.1 && (decide (0 < a.redSide.2) || s.pkg.peers.any (·.acc == some a.id))))
/-- R401: whether an element waits: no other is then midway, and before one that lies partly at a peer none is on its way to a peer.
Log entry 57 (DEDUCED). -/
def State.redWaits (s : State) (a : Acc) : Bool :=
  s.flight.any (fun b => b.id != a.id && s.redOpen b) ||
    (splitSegs a.redSide.1 && s.pkg.peers.any fun r => r.op.isSome && r.cmd.isNone && r.acc != some a.id)

/-- What a range holds now, and whether its owner meets poison. -/
def State.oldBytes (s : State) (a : Acc) (p : Who) (x : Place) (n : Nat) : List Byte × Bool :=
  match x with
  | .cached dev pa =>
    if s.cachedCut p.1 a.slot a.gen dev pa true then (List.replicate n 0, false)
    else match (s.bay (bayOfCore p.1)).sector (some dev) pa with
      | some y => (slice y.data (pa % 64) n, y.poison)
      | none => (List.replicate n 0, false)
  | x => (s.coreBytes p.1 a.slot a.gen a.wunc x n, s.coreBad p.1 a.slot a.gen a.wunc x n)
/-- The bytes of an element: those of its peer ranges, which have come, and `f` for the others. -/
def elemBytes (f : Place → Nat → List Byte) : List (Place × Nat) → List Byte → List Byte
  | [], _ => []
  | (x, n) :: t, far => if x.isPeer then far.take n ++ elemBytes f t (far.drop n) else f x n ++ elemBytes f t far

/-- Read the ranges of a source element at one instant; `far` is what its peer ranges gave. -/
def redRead (a : Acc) (p : Who) (k : Copy) : List (Place × Nat) → List Byte → State → State × List Byte × Code
  | [], _, s => (s, [], 0)
  | (x, n) :: t, far, s =>
    let r : State × List Byte × Code := match x with
      | .peer _ _ => (s, far.take n, 0)
      | .cached dev pa =>
        if s.cachedCut p.1 a.slot a.gen dev pa false then (s.countDrop a.slot, List.replicate n 0, 0)
        else match (s.bay (bayOfCore p.1)).sector (some dev) pa with
          | some y => (s, slice y.data (pa % 64) n, if y.poison then cUncorrectable else 0)
          | none => (s, List.replicate n 0, 0)
      | _ => s.readSeg k p.1 a.runc x n
    let q := redRead a p k t (if x.isPeer then far.drop n else far) r.1
    (q.1, r.2.1 ++ q.2.1, if r.2.2 ≠ 0 then r.2.2 else q.2.2)

/-- The source of an element: what of it lies at peers is asked for, what they let the bay hold comes, and then it is read whole. -/
def State.redSource (s : State) (a : Acc) (p : Who) (k : Copy) (q : Piece) : State :=
  if splitSegs a.rsegs && s.redWaits a then s
  else match nextPeer a.rsegs a.data.length with
    | some (dev, pa, n) => s.pieceReq a p (a.request dev pa n false [])
    | none => match a.rsegs.find? fun x => s.absent a p false x.1 with
      | some (.cached dev pa, n) => s.redBring a p dev pa n
      | _ =>
        let r := redRead a p k a.rsegs a.data s
        if r.2.2 = cContained then r.1.failAt a p cContained else r.1.segRead { a with data := [] } p k q r.2.1 r.2.2 []

/-- The read-modify-write of one element whose ranges are all here, or have come from a peer, which then takes its part. Log entry 57 (DEDUCED). -/
def State.redDo (s : State) (a : Acc) (p : Who) (k : Copy) (q : Piece) : State :=
  let s := a.wsegs.foldl (fun s x => s.settle p.1 x.1 x.2) s
  let here := a.wsegs.filter (!·.1.isPeer)
  let bad := here.any fun x => (s.oldBytes a p x.1 x.2).2
  let old := elemBytes (fun x n => (s.oldBytes a p x n).1) a.wsegs (a.data.drop a.n)
  let new := redElem (bits (k.c 2) 24 4) (k.km % 8) old (a.data.take a.n)
  let poison := a.code == cUncorrectable
  let r := a.wsegs.foldl (fun (r : State × Nat × Code) x =>
    let d := slice new r.2.1 x.2
    match x.1 with
    | .peer _ _ => (r.1, r.2.1 + x.2, r.2.2)
    | .cached dev pa =>
      let s := if r.1.cachedCut p.1 a.slot a.gen dev pa true then r.1.countDrop a.slot
        else ((r.1.putCached p.1 dev pa d poison).noteWrote p dev pa (q.dst + r.2.1)).countPerf p.1 a.slot a.gen 6 x.2
      (s, r.2.1 + x.2, r.2.2)
    | y =>
      let w := r.1.writeSeg k p.1 a.wunc y d poison true
      (w.1, r.2.1 + x.2, if w.2 ≠ 0 then w.2 else r.2.2)) (s, 0, 0)
  let code := if r.2.2 ≠ 0 then r.2.2 else if bad then cUncorrectable else 0
  let far := a.wsegs.filter (·.1.isPeer)
  if code = cContained then r.1.failAt a p code
  else if far = [] then r.1.segWritten a p k q code []
  else
    let a' := { a.meet k q code with data := new, wsegs := far, done := true }
    (a.wsegs.foldl (fun (r : State × Nat) x => match x.1 with
      | .peer dev pa =>
        (if (r.1.accOf a.id).isNone then r.1
         else r.1.pieceReq a' p { a'.request dev pa x.2 true (slice new r.2 x.2) with cmd := some (p.1, p.2.1, 3, r.2) }, r.2 + x.2)
      | _ => (r.1, r.2 + x.2)) (r.1.mapAcc a.id fun _ => a', 0)).1

/-- The write of an element of CPY.R: one read-modify-write once every sector of it is in the bay; an element that lies whole at a peer the
peer combines; of one that lies partly there, that part is read first. Log entry 57 (DEDUCED). -/
def State.redStep (s : State) (a : Acc) (p : Who) (k : Copy) (q : Piece) : State :=
  if s.redWaits a then s
  else match a.wsegs with
  | [(.peer dev pa, n)] => s.pieceReq a p { a.request dev pa n true a.data with op := some (k.km % 8, bits (k.c 2) 24 4) }
  | _ => match nextPeer a.wsegs (a.data.length - a.n) with
    | some (dev, pa, n) => s.pieceReq a p (a.request dev pa n false [])
    | none => match a.wsegs.find? fun x => s.absent a p true x.1 with
      | some (.cached dev pa, n) => s.redBring a p dev pa n
      | _ => s.redDo a p k q

/-- R101: the translations that led an access to `pa` of a peer leave the core's L1 and the die's L2 TLB. -/
def State.dropMoved (s : State) (c slot dev pa : Nat) : State :=
  let gone (t : Tlb) : Bool := t.slot == slot && t.mode != 0 && !t.host && t.peer == dev && decide (t.frame ≤ pa) && decide (pa < t.frame + 2 ^ t.size)
  (s.mapCore c fun x => { x with l1 := x.l1.filter fun t => !(gone t) }).mapDie (dieOfCore c) fun x => { x with l2 := x.l2.filter fun t => !(gone t) }

/-- R101: a part of an element that has moved is written anew, where it now is. -/
def Piece.moved (q : Piece) (o off n : Nat) : Piece :=
  if q.op = 2 then { q with src := if off = 0 then q.src - n else q.src, dst := if off = 0 then q.dst - n else q.dst, n := q.n + n }
  else { q with src := o + off, dst := q.dst + off, n := n, op := 2 }
/-- A peer has taken its part, from byte `off`, of an element, or says that it has moved. -/
def State.redAck (s : State) (a : Acc) (p : Who) (k : Copy) (q : Piece) (r : PeerReq) (off : Nat) (moved : Bool) : State :=
  let left := a.wsegs.filter (· != (.peer r.dev r.pa, r.n))
  let s : State := if moved then (s.dropMoved p.1 a.slot r.dev r.pa).mapBox p fun b => { b with
      buf := if q.op = 2 then b.buf else b.buf ++ a.data
      pieces := updAt b.pieces p.2.2.2 fun q => q.moved b.buf.length off r.n }
    else s.countPerf p.1 a.slot a.gen 6 r.n
  if left ≠ [] then s.mapAcc a.id fun a => { a with wsegs := left }
  else if (moved || q.op == 2) && a.code == 0 then (s.dropAcc a.id).issuePiece none p
  else s.segWritten a p k q 0 []

/-- An access of a copy box reaches what holds its next bytes (R61, R92). Log entries 27 (DEDUCED), 57 (DEDUCED). -/
def State.pieceStep (s : State) (a : Acc) (p : Who) (remote : Bool) : State :=
  match s.pieceOf p with
  | none => s.dropAcc a.id
  | some (k, b, q) =>
    if a.done || s.pkg.peers.any (·.acc == some a.id) then s
    else match a.rsegs with
      | (x, n) :: _ =>
        if k.op = 0xAB then if a.rsegs.any (·.1.remoteOf p.1) != remote then s else s.redSource a p k q
        else match x with
        | .peer dev pa => if remote then s else s.pieceReq a p (a.request dev pa n false [])
        | .cached dev pa => if remote then s else s.cachedStep a p k q dev pa n false []
        | _ =>
          if x.remoteOf p.1 != remote then s
          else
            let r := readRun k p.1 a.runc a.rsegs s
            if r.2.2.1 = cContained then r.1.failAt a p cContained else r.1.segRead a p k q r.2.1 r.2.2.1 r.2.2.2
      | [] => match a.wsegs with
        | [] => s.pieceDone a p
        | (x, n) :: _ =>
          if k.writeWaits p q then s
          else if k.cast then match x with
            | .peer dev off => if remote then s else s.castStep a p k b (k.dests.length - a.wsegs.length) dev off
            | _ => s
          else if k.op = 0xAB ∧ q.op ≠ 2 then if a.wsegs.any (·.1.remoteOf p.1) != remote then s else s.redStep a p k q
          else
            let o := a.data.length - sumN a.wsegs
            let d := slice a.data o n
            match x with
            | .peer dev pa => if remote then s else s.pieceReq a p (a.request dev pa n true d)
            | .cached dev pa => if remote then s else s.cachedStep a p k q dev pa n true d
            | _ =>
              if x.remoteOf p.1 != remote then s
              else
                let gs := if k.op = 0xAF then a.wsegs.flatMap fun x => x.1.grans x.2 else []
                let s := s.finishReads (s.halfRead gs)
                if s.halfRead gs ≠ [] then s
                else
                  let s := s.keepHalves gs
                  let l := if k.raw = 2 then a.wsegs.take 1 else a.wsegs
                  let r := writeRun k p.1 a.wunc (a.code == cUncorrectable) (if k.raw = 2 then 64 else a.data.length) a.data o l s
                  if r.2.1 = cContained then r.1.failAt a p cContained
                  else r.1.segWritten a p k q r.2.1 (r.2.2 ++ a.wsegs.drop l.length)

/-! ### Arrivals and returns -/

/-- GROUND_REMOTE_ARRIVAL (R61). -/
def execGroundRemoteArrival (id : Nat) (s : State) : Out :=
  .next (match s.accOf id with
    | none => s
    | some a => match a.why with
      | .piece c q b k => s.pieceStep a (c, q, b, k) true
      | _ => s.arrive a true)

/-- ACCESS_RESPONSE_RETURN (R217, R389, R416, R417, R431): a result reaches its strand; what an ordered task that is gone had asked for
is discarded. -/
def execAccessResponseReturn (id : Nat) (s : State) : Out :=
  .next (match s.accOf id with
    | none => s
    | some a =>
      if a.done = false then s
      else
        let t := tagOf a.slot a.gen
        match a.why with
        | .load d ty =>
          let s := s.dropAcc id
          if (s.strand a.strand).task ≠ a.task then s
          else if a.code ≠ 0 then s.trapIn a.strand a.task a.code 0 a.ea a.pc a.ins
          else s.resultS a.strand t d (loadExt ty (ofLe a.data))
        | .launch d =>
          let s := s.dropAcc id
          if a.code ≠ 0 then s.trapIn a.strand a.task a.code 0 a.ea a.pc a.ins else s.resultS a.strand t d (BitVec.ofNat 64 (ofLe a.data))
        | .sync o d => if o.op = 1 then s else (s.dropAcc id).resultS a.strand t d (BitVec.ofNat 64 (ofLe a.data))
        | _ => s)

/-! ### Answers of peers (R95, R101, R107 to R109, R175) -/

/-- R107: the current destination of a multicast access is over. -/
def State.castEnd (s : State) (id : Nat) (c seq i : Nat) (refused : Bool) : State :=
  let s := if refused then s.mapCopy c seq fun k => { k with bitmap := k.bitmap ||| 2 ^ i } else s
  match s.accOf id with
  | none => s
  | some a =>
    let s := if refused then s else s.countPerf c a.slot a.gen 6 a.n
    match a.why, a.wsegs with
    | .piece c q b k, [_] => s.pieceDone a (c, q, b, k)
    | _, _ => s.mapAcc id fun a => { a with wsegs := a.wsegs.drop 1 }

/-- R403: the answer to a counter's update or status. -/
def State.counterEnd (s : State) (c seq : Nat) (code : Code) : State :=
  s.mapCopy c seq fun k => { k with bound := true, code := if k.ended then k.code else code }

/-- R109, R168, R175: a write-back that nothing answers is told to the fences and to the commands that wait for it. -/
def State.wbLost (s : State) (r : PeerReq) (key : Nat) : State :=
  let mine (k : Copy) : Bool := (find k.wrote key).isSome && k.over
  let waits := allCores.filter fun c => (s.core c).cq.any mine
  let lose (k : Copy) : Copy := if mine k then k.fail k.boxes cPeerLost (BitVec.ofNat 64 ((find k.wrote key).getD 0)) else k
  let s := waits.foldl (fun s c => s.mapCore c fun x => { x with cq := x.cq.map lose }) s
  if r.fences.isEmpty && !waits.isEmpty then s else s.backLost r.slot r.fences

/-- R109, R175: a request that nothing answers. -/
def State.reqLost (s : State) (r : PeerReq) : State :=
  match r.wb with
  | some key => s.wbLost r key
  | none => match r.cmd with
    | some (c, q, 2, i) => s.castEnd (r.acc.getD 0) c q i true
    | some (c, q, 1, _) => s.counterEnd c q cPeerLost
    | _ => match (r.acc.bind s.accOf) with
      | none => s
      | some a => match a.why with
        | .piece c q b k => s.failAt a (c, q, b, k) cPeerLost
        | _ => s

/-- R66, R174: the answer to a fetch enters the bay of core `c`, unless it is stale, or a copy has been made meanwhile or may be made no
more; the access then asks anew. -/
def State.fetched (s : State) (c : Nat) (r : PeerReq) (poison : Bool) (d : List Byte) : State :=
  if r.stale || s.noAllocate r.dev r.pa || s.holders (some r.dev) r.pa != [] then s
  else s.allocate (bayOfCore c) (some r.dev) r.pa ⟨false, tagOf r.slot r.gen, poison, d.take 64, none⟩

/-- The answer to a copy access's request: 0 data or acknowledgement, 1 refused, 2 MOVED, 4 CONTAINED, else data from a poisoned
granule. Log entry 58 (DEDUCED). -/
def State.pieceReply (s : State) (a : Acc) (p : Who) (r : PeerReq) (kind : Nat) (d : List Byte) : State :=
  let code := if kind = 0 then 0 else cUncorrectable
  match s.pieceOf p with
  | none => s.dropAcc a.id
  | some (k, _, q) =>
    if kind = 1 then s.failAt a p cPagePerm
    else if kind = 4 then s.failAt a p cContained
    else match r.cmd with
    | some (_, _, _, off) => s.redAck a p k q r off (kind == 2)
    | none =>
      if kind = 2 then ((s.dropAcc a.id).dropMoved p.1 a.slot r.dev r.pa).issuePiece none p
      else if r.wr then (s.countPerf p.1 a.slot a.gen 6 r.n).segWritten a p k q 0 (a.wsegs.drop 1)
      else if r.fetch then s.fetched p.1 r (code != 0) d
      else if k.op = 0xAB then s.mapAcc a.id fun a => { a.meet k q code with data := a.data ++ d.take r.n }
      else match a.rsegs with
        | _ :: t => s.segRead a p k q (d.take r.n) code t
        | [] => s

/-- R123: the answer to a request whose engine has cut is discarded. Log entry 75 (DEDUCED). -/
def State.discard (s : State) (r : PeerReq) : State :=
  match r.acc.bind s.accOf with
  | some a => (match a.why with
    | .piece c q b i => s.failAt a (c, q, b, i) cGenRetired
    | _ => s)
  | none => match r.cmd with
    | some (c, q, 1, _) => s.counterEnd c q cGenRetired
    | _ => s
/-- The core whose engine made a request. -/
def State.asker (s : State) (r : PeerReq) : Option Nat :=
  match r.acc.bind s.accOf with | some a => some a.core | none => r.cmd.map (·.1)

/-- PEER_RESPONSE_ARRIVAL (R95, R101, R107, R123, R174). -/
def execPeerResponseArrival (id kind : Nat) (data : BitVec 512) (s : State) : Out :=
  .next (match s.pkg.peers.find? (·.id == id) with
    | none => s
    | some r =>
      let s := s.mapPkg fun p => { p with peers := p.peers.filter (·.id != id) }
      if r.wb.isSome then s
      else if (s.asker r).any (fun c => s.oldAtCore c r.slot r.gen) then s.discard r
      else match r.cmd with
      | some (c, q, 2, i) => s.castEnd (r.acc.getD 0) c q i (kind != 0)
      | some (c, q, 1, _) => s.counterEnd c q (if kind = 0 then 0 else if kind = 4 then cContained else cPagePerm)
      | _ => match (r.acc.bind s.accOf) with
        | none => s
        | some a => match a.why with
          | .piece c q b k => s.pieceReply a (c, q, b, k) r kind (leBytes 64 data.toNat)
          | _ => s)

/-- R109: 2 ms in cycles. -/
def linkTimeout : Nat := 6000000

/-- PEER_TIMEOUT (R103, R109, R175): a request unanswered for 2 ms. -/
def execPeerTimeout (id : Nat) (s : State) : Out :=
  .next (match s.pkg.peers.find? (·.id == id) with
    | none => s
    | some r =>
      if s.cycle < r.sentAt + linkTimeout then s
      else (s.mapPkg fun p => { p with peers := p.peers.filter (·.id != id) }).reqLost r)

/-- R108, R109: requests satisfying `p` go out again on another station; one that no station can carry is lost. -/
def State.resend (s : State) (p : PeerReq → Bool) : State :=
  (s.pkg.peers.filter p).foldl (fun s r =>
    match s.stationFor r.dev r.pa with
    | some k => (s.mapPkg fun x => { x with peers := x.peers.map fun q => if q.id = r.id then { q with station := k } else q }).send r.msg
    | none => (s.mapPkg fun x => { x with peers := x.peers.filter (·.id != r.id) }).reqLost r) s

/-- PACKET_UNDELIVERABLE (R109): the switch's bit for the peer is cleared and its packets go another way. -/
def execPacketUndeliverable (st dev : Nat) (s : State) : Out :=
  .next ((s.mapPkg fun p => { p with routes := Tbl.put 0xFFFF p.routes dev (Tbl.get 0xFFFF p.routes dev &&& ~~~(BitVec.ofNat 16 (2 ^ st))) }).resend
    fun r => r.dev == dev && r.station == st)

/-! ### What walks, responses and completions release -/

/-- R244, R247: whether an access is of a command whose group has ended by a trap, containment, teardown or the watchdog, or which a
discard dropped. -/
def State.abandons (s : State) (p : Who) : Bool :=
  match s.copyOf p.1 p.2.1 with
  | some k => k.quiet || (s.group k.gid).all (·.fail.isSome)
  | none => true
/-- R247: the box of an access is abandoned: its accesses leave their records. -/
def State.abandonBox (s : State) (p : Who) : State :=
  let s := s.mapDie (dieOfCore p.1) fun x => { x with frecs := x.frecs.map fun r =>
    { r with waiters := r.waiters.filter fun w => !(w.1 == p.1 && w.2.1 == p.2.1 && w.2.2.1 == p.2.2.1) } }
  s.mapCopy p.1 p.2.1 fun k => { k with open_ := k.open_.filter (·.num != p.2.2.1) }

/-- TABLE_WALK (R19 to R29, R35, R41, R433): walk `walk` of a die ends; a waiting one takes its place. Log entry 1 (DEDUCED). -/
def execTableWalk (die walk : Nat) (s : State) : Out :=
  .next (match (s.die die).walks[walk]? with
    | none => s
    | some w =>
      let s := s.mapDie die fun x => { x with walks := removeAt x.walks walk ++ x.walkQ.take 1, walkQ := x.walkQ.drop 1 }
      let s := s.settleDie die
      let r := s.walk die w.slot w.gen w.va w.wr ⟨[], [], []⟩
      let s := s.walkReads die r.2
      let s := if w.dropped then s else s.cacheReads die w.slot w.gen r.2
      let s := r.2.marks.foldl (fun s m => s.setMark w.gen m) s
      match r.1 with
      | .error f =>
        if f.cause = wContained then
          s.failSide w.waiters w.wr cContained
        else
          let s := s.recordFault die w f
          w.waiters.foldl (fun s p => if s.abandons p then s.abandonBox p else s.mapBox p fun b => { b with held := true }) s
      | .ok t =>
        let s := (if w.dropped then s else w.waiters.foldl (fun s p => s.fillL1 p.1 t) (s.fillL2 die t)).reoffer t
        s.reissue (some t) w.waiters)

/-- FAULT_RESPONSE_RETRY (R37, R38, R40): the accesses held on the record walk again. -/
def execFaultResponseRetry (fn : Nat) (host : Bool) (s : State) : Out :=
  .next (match s.nextResp fn host with
    | none => s
    | some x => match s.respMeans fn host x with
      | none => s.ignoreResp fn host
      | some (true, _, _) => s
      | some (false, d, r) => ((s.mapFn fn (·.takeResp host)).mapDie d (·.dropRec r)).reissue none r.waiters)

/-- FAULT_RESPONSE_FAIL (R38): the commands held on the record end. -/
def execFaultResponseFail (fn : Nat) (host : Bool) (s : State) : Out :=
  .next (match s.nextResp fn host with
    | none => s
    | some x => match s.respMeans fn host x with
      | none => s.ignoreResp fn host
      | some (false, _, _) => s
      | some (true, d, r) =>
        let s := (s.mapFn fn (·.takeResp host)).mapDie d (·.dropRec r)
        let code := if r.cause = wPermission then cPagePerm else cPageFault
        s.failSide r.waiters r.wr code)

/-! ### ATS and PRI (R30 to R32) -/

def State.mapAts (s : State) (k : Nat) (a : AtsWait) (f : AtsWait → AtsWait) : State :=
  s.mapFn k fun x => { x with atsWait := x.atsWait.map fun b => if b = a then f b else b }
def State.dropAts (s : State) (k : Nat) (a : AtsWait) : State := s.mapFn k fun x => { x with atsWait := x.atsWait.filter (· != a) }

/-- The accesses of a host page end with ATS_FAULT. -/
def State.atsFail (s : State) (k : Nat) (a : AtsWait) : State := (s.dropAts k a).failSide a.waiters a.wr cAtsFault

/-- R31: a Page Request, if the function's allocation has room. -/
def State.askPage (s : State) (k : Nat) (a : AtsWait) : State :=
  if (s.fn k).pageReqs < Config.priAllocation k then
    ((s.mapAts k a fun a => { a with st := 1 }).mapFn k fun x => { x with pageReqs := x.pageReqs + 1 }).send (.pageReq k (s.ctxOf k).pasid.toNat a.va a.wr true)
  else s.mapAts k a fun a => { a with st := 2 }

/-- ATS_TRANSLATION_COMPLETION (R30, R31). -/
def execAtsTranslationCompletion (slot : Nat) (va frame : BitVec 64) (szLog : Nat) (rd wr : Bool) (s : State) : Out :=
  .next (match (s.fn slot).atsWait.find? (fun a => a.va == va.toNat / 4096 * 4096 && (a.st == 0 || a.st == 3)) with
    | none => s
    | some a =>
      let size := max 12 (min szLog 55)
      if if a.wr then wr else rd then
        let s := s.dropAts slot a
        let make (gen : Nat) : Tlb :=
          { slot := slot, gen := gen % 1024, va := a.va / 2 ^ size * 2 ^ size, size := size, frame := frame.toNat / 2 ^ size * 2 ^ size, mode := 0, peer := 0,
            thr := 0, host := true, pin := false, cache := false, rd := rd, wr := wr, dirty := true, ipage := 0, leaf := 0 }
        a.waiters.foldl (fun s p => match s.copyOf p.1 p.2.1 with
          | some k => (((s.fillL2 (dieOfCore p.1) (make k.gen)).fillL1 p.1 (make k.gen))).issuePiece (some (make k.gen)) p
          | none => s) s
      else if a.st = 3 ∨ (s.fn slot).priEn = false then s.atsFail slot a
      else s.askPage slot a)

/-- PRI_PAGE_RESPONSE (R31): the device translates once more, or the accesses fail; a page that waited is asked for. -/
def execPriPageResponse (slot : Nat) (va : BitVec 64) (success : Bool) (s : State) : Out :=
  .next (match (s.fn slot).atsWait.find? (fun a => a.va == va.toNat / 4096 * 4096 && a.st == 1) with
    | none => s
    | some a =>
      let s := s.mapFn slot fun x => { x with pageReqs := x.pageReqs - 1 }
      let s := if success then (s.mapAts slot a fun a => { a with st := 3 }).send (.ats slot (s.ctxOf slot).pasid.toNat (a.ea % 2 ^ 55)) else s.atsFail slot a
      match (s.fn slot).atsWait.find? (·.st == 2) with
      | some b => s.askPage slot b
      | none => s)

/-- R32: the boxes of a slot of which an access at an address in [lo, hi) of the host half has been translated. -/
def State.hostBoxes (s : State) (slot lo hi : Nat) : List (Nat × Nat × Nat) :=
  let inside (spc ea n : Nat) : Bool := spc == 5 && bit ea 55 && decide (ea % 2 ^ 55 < hi) && decide (lo < ea % 2 ^ 55 + n)
  allCores.flatMap fun c => ((s.core c).cq.filter (·.slot == slot)).flatMap fun k =>
    (k.open_.filter fun b => (List.range b.pieces.length).any fun i => match b.pieces[i]? with
      | some q => (b.isDone i || s.flying (c, k.seq, b.num, i)) &&
          ((q.op != 2 && inside k.ssp q.src q.n) || (q.op != 1 && inside k.dsp q.dst q.n))
      | none => false).map fun b => (c, k.seq, b.num)

/-- Whether a box has issued all its requests to the host. -/
def State.hostSent (s : State) (x : Nat × Nat × Nat) : Bool :=
  match s.copyOf x.1 x.2.1 with
  | none => true
  | some k => match k.box x.2.2 with
    | none => true
    | some b => !(s.issuing x.1 k b) && !(s.flight.any fun a => (match a.why with | .piece c q n _ => (c, q, n) == x | _ => false) &&
        (a.rsegs ++ a.wsegs).any fun y => (match y.1 with | .host _ => true | _ => false))

/-- ATS_INVALIDATION_REQUEST (R32): matching HOST entries leave every TLB. -/
def execAtsInvalidationRequest (slot : Nat) (va : BitVec 64) (szLog : Nat) (s : State) : Out :=
  let lo := va.toNat / 2 ^ szLog * 2 ^ szLog % 2 ^ 55
  let hi := lo + 2 ^ szLog
  let keep (t : Tlb) : Bool := !(t.host && bit t.va 55 && t.slot == slot && decide (t.va % 2 ^ 55 < hi) && decide (lo < t.va % 2 ^ 55 + 2 ^ t.size))
  let l := s.hostBoxes slot lo hi
  let s := allCores.foldl (fun s c => s.mapCore c fun x => { x with l1 := x.l1.filter keep }) s
  let s := allDies.foldl (fun s d => s.mapDie d fun x => { x with l2 := x.l2.filter keep }) s
  .next (s.mapFn slot fun x => { x with atsInv := x.atsInv ++ [(lo, l)] })

/-- ATS_INVALIDATION_COMPLETION (R32): once every box that used a removed entry has issued all its requests. -/
def execAtsInvalidationCompletion (slot : Nat) (s : State) : Out :=
  .next (match (s.fn slot).atsInv with
    | [] => s
    | x :: _ =>
      if x.2.all s.hostSent then (s.mapFn slot fun x => { x with atsInv := x.atsInv.drop 1 }).send (.atsInvDone slot) else s)

/-! ### Invalidations at a core (R42, R43) -/

/-- R43: whether a box of the core's engine has an access still to be issued. Log entry 41 (DEDUCED). -/
def State.midBox (s : State) (c : Nat) : Bool := (s.core c).cq.any fun k => k.open_.any (s.issuing c k)

/-- TLBI_CORE_ACKNOWLEDGE (R42): at a QPT, or after a watchdog that found a box mid-way. -/
def execTlbiCoreAcknowledge (core : Nat) (s : State) : Out :=
  .next (
    let x := s.core core
    if x.qpt = false ∨ s.midBox core then s
    else if x.forced = [] then s.ackTlbi core else s.ackForced core x.forced)

/-- TLBI_WATCHDOG_EXPIRY (R43): of an invalidation that the core has not acknowledged, boxes that had started before a QPT among the
reasons; where the QPT came in the same cycle it acknowledges, uncounted. Log entry 113 (DEDUCED). -/
def execTlbiWatchdogExpiry (core k : Nat) (s : State) : Out :=
  .next (match s.pkg.tlbis[k]? with
    | none => s
    | some x =>
      let due := x.postedAt + (s.ctxOf x.slot).tlbiWdog.toNat * 3000
      let y := s.core core
      if x.cores.contains core = false ∨ s.cycle < due ∨ (y.qptAt.isSome ∧ (s.midBox core = false ∨ y.qptAt = some due)) then s
      else if s.midBox core then s.mapCore core fun y => { y with qpt := true, forced := addOnce x.slot y.forced }
      else s.ackForced core (addOnce x.slot y.forced))

end Sys2Proof.Machine
end

