-- ==== Sys2Proof/Machine/Pod.lean ====
section
/-! DEFINITION. The pod: requests that arrive from peers (R95, R97, R107, R171), leases (R97 to R104), stations (R108, R109), and the
administrator's writes to the owner table, the peer windows and the multicast groups (R93, R94, R106). -/
namespace Sys2Proof.Machine

/-! ### Requests from peers (R95) -/

def State.lease (s : State) (i : Nat) : Lease := Tbl.get Lease.init s.pkg.leases i
def State.borrow (s : State) (i : Nat) : Borrow := Tbl.get Borrow.init s.pkg.borrows i
def State.mapLease (s : State) (i : Nat) (f : Lease → Lease) : State := s.mapPkg fun p => { p with leases := Tbl.upd Lease.init p.leases i f }
def State.mapBorrow (s : State) (i : Nat) (f : Borrow → Borrow) : State := s.mapPkg fun p => { p with borrows := Tbl.upd Borrow.init p.borrows i f }

/-- What a peer's request comes to: an answer (code, data), or it is held (R101). -/
inductive PeerRes where
  | reply (code : Nat) (data : List Byte)
  | held

/-- An access to device memory under lease bit `l` and tag `t`. Log entry 27 (DEDUCED). -/
def State.peerAccess (s : State) (l : Bool) (t : Tag) (pa : Nat) (wr : Bool) (n : Nat) (d : List Byte) (op : Option (Nat × Nat)) (poison : Bool) :
    State × PeerRes :=
  if s.frozen (dieOfPa pa) then (s, .reply 4 [])
  else if wr then (s.peerStore l t pa (d.take n) op poison, .reply 0 [])
  else (s, .reply (if s.hbm.bad l t pa n then 3 else 0) (s.hbm.read l t pa n))

/-- R95 case 1: whether a write is an eviction write of a reclaim at this borrower. -/
def State.isEviction (s : State) (src slot pa : Nat) (wr : Bool) : Bool :=
  wr && s.pkg.borrows.any fun b => b.2.st == 3 && b.2.ldev == src && b.2.slot == slot && b.2.fbk == pa / 0x80000000

/-- R95 case 2: the lease that a request of (device, slot) uses. -/
def State.leaseFor (s : State) (src slot pa : Nat) : Option Lease :=
  (s.pkg.leases.find? fun l => (l.2.st == 2 || l.2.st == 3) && l.2.block == pa / 0x80000000 && l.2.bdev == src && l.2.bslot == slot).map (·.2)

/-- R95 case 3: the window of the device that admits the access. -/
def State.windowFor (s : State) (src pa n : Nat) (wr : Bool) : Option Window :=
  (s.pkg.windows.find? fun w => (s.windowAt src w.1 (pa - w.2.base * 65536) n wr).isSome && decide (w.2.base * 65536 ≤ pa)).map (·.2)

/-- R95, R107: the four cases in order; a multicast box is taken or refused whole. What carries a new generation is held until the die
that it reaches has cut (R121). Log entries 46 (DEDUCED), 118 (DEDUCED). -/
def State.peerServe (s : State) (src slot : Nat) (what : PeerWhat) (d : List Byte) : State × PeerRes :=
  match what with
  | .access pa wr n tag op bad =>
    let n := min n 64
    if s.isEviction src slot pa wr then
      if tag ≠ s.slotTag slot ∧ (s.advancing slot).all (fun r => !(r.dies.contains (dieOfPa pa))) then (s.countDrop slot, .reply 0 [])
      else if tag = s.slotTag slot ∧ s.beforeCut slot pa n then (s, .held)
      else s.peerAccess false tag pa true n d none bad
    else match s.leaseFor src slot pa with
      | some l =>
        let piece := pa % 0x80000000 / 0x200000
        if l.st = 3 ∧ piece < l.moved then (s, .reply 2 [])
        else if l.st = 3 ∧ piece < l.copied then (s, .held)
        else s.peerAccess true l.ltag pa wr n d op bad
      | none => match s.windowFor src pa n wr with
        | some w => if s.beforeCut w.owner pa n then (s, .held) else s.peerAccess false (s.slotTag w.owner) pa wr n d op bad
        | none => (s, .reply 1 [])
  | .box w off n lo len op bad =>
    let n := min n 64
    match s.boxAt src w lo len off n with
    | some (o, a) => if s.beforeCut o a n then (s, .held) else s.peerAccess false (s.slotTag o) a true n d op bad
    | none => (s, .reply 1 [])
  | .counter w die off status =>
    let x := s.window w
    let ok := x.v && x.wr && (x.src == 0x3FF || x.src == src)
    let g := (s.ctxOf x.owner).gen.toNat
    if ok = false ∨ die ≥ 4 ∨ off % 8 ≠ 0 ∨ off + 8 > (s.syncWindow (192 + die) x.owner).1 then (s, .reply 1 [])
    else
      let l := s.syncLocate (192 + die) x.owner die off
      if s.frozen die || (match l with | .ovf _ y => s.frozen (dieOfPa y) | .sram _ _ => false) then (s, .reply 4 [])
      else if s.uncut die x.owner || (match l with | .ovf _ y => s.uncut (dieOfPa y) x.owner | .sram _ _ => false) then (s, .held)
      else if s.syncSpoilt x.owner g l then (s.syncPoison x.owner g l, .reply 0 [])
      else if status ≠ 0 then (s.syncLatch x.owner g l status, .reply 0 [])
      else (s.syncUpdate x.owner g l fun v => v + BitVec.ofNat 64 (ofLe (d.take 8)), .reply 0 [])

/-- A request is served, answered or held. -/
def State.peerTake (s : State) (src slot : Nat) (what : PeerWhat) (data : BitVec 512) (ttag : Nat) : State :=
  match s.peerServe src slot what (leBytes 64 data.toNat) with
  | (s, .reply c d) => s.send (.peerReply src ttag c d)
  | (s, .held) => s.mapPkg fun p => { p with held := p.held ++ [(src, slot, what, data, ttag)] }

/-- PEER_REQUEST_ARRIVAL (R95, R97, R101, R106 to R108): a request `age` cycles old; each is performed at most once, within 2 ms. Log entry 56 (DEDUCED). -/
def execPeerRequestArrival (src slot : Nat) (what : PeerWhat) (data : BitVec 512) (ttag age : Nat) (s : State) : Out :=
  .next (
    let seen := s.pkg.seen.filter fun e => decide (s.cycle ≤ e.2.2 + linkTimeout)
    if age > linkTimeout ∨ seen.any (fun e => e.1 == src && e.2.1 == ttag) then s
    else (s.mapPkg fun p => { p with seen := seen ++ [(src, ttag, s.cycle)] }).peerTake src slot what data ttag)

/-- Requests that were held are served again. -/
def State.retryHeld (s : State) : State :=
  let l := s.pkg.held
  l.foldl (fun s h => s.peerTake h.1 h.2.1 h.2.2.1 h.2.2.2.1 h.2.2.2.2) (s.mapPkg fun p => { p with held := [] })

/-! ### Krytyth messages (R99) -/

/-- The 16 bytes of a message. -/
def kryt (type lidx bidx slot : Nat) (ltag : BitVec 16) (arg block fbk : Nat) : BitVec 128 :=
  BitVec.ofNat 128 (type % 256 + lidx % 256 * 2 ^ 8 + bidx % 256 * 2 ^ 16 + slot % 256 * 2 ^ 24 + ltag.toNat * 2 ^ 32 + arg % 65536 * 2 ^ 48 +
    block % 256 * 2 ^ 64 + fbk % 256 * 2 ^ 72)
def kType (m : BitVec 128) : Nat := bits m.toNat 0 8
def kLidx (m : BitVec 128) : Nat := bits m.toNat 8 8
def kBidx (m : BitVec 128) : Nat := bits m.toNat 16 8
def kSlot (m : BitVec 128) : Nat := bits m.toNat 24 8
def kLtag (m : BitVec 128) : BitVec 16 := BitVec.ofNat 16 (bits m.toNat 32 16)
def kArg (m : BitVec 128) : Nat := bits m.toNat 48 16
def kBlock (m : BitVec 128) : Nat := bits m.toNat 64 8
def kFbk (m : BitVec 128) : Nat := bits m.toNat 72 8

/-- R99: whether a message of a type holds zero where it must. -/
def kOk (type : Nat) (m : BitVec 128) : Bool :=
  kType m == type && bits m.toNat 80 48 == 0 && (decide (type ∈ [3, 5, 6, 7, 8]) || kArg m == 0) && (type == 5 || kFbk m == 0)

/-- R99: a malformed message is discarded and counted. -/
def State.kryIn (s : State) (type : Nat) (m : BitVec 128) (k : State) : Out :=
  .next (if kOk type m then k else s.mapPkg fun p => { p with discarded := p.discarded + 1 })

/-- The lender's entry that a message names. Log entry 59 (DEDUCED). -/
def State.leaseIs (s : State) (src : Nat) (m : BitVec 128) : Option (Nat × Lease) :=
  let l := s.lease (kLidx m)
  if l.st ≠ 0 ∧ l.bdev = src ∧ l.bslot = kSlot m ∧ l.ltag = kLtag m ∧ l.block = kBlock m then some (kLidx m, l) else none
/-- The borrower's entry that a message names. Log entry 59 (DEDUCED). -/
def State.borrowIs (s : State) (src : Nat) (m : BitVec 128) : Option (Nat × Borrow) :=
  let b := s.borrow (kBidx m)
  if b.st ≠ 0 ∧ b.ldev = src ∧ b.slot = kSlot m ∧ b.ltag = kLtag m ∧ b.lblock = kBlock m then some (kBidx m, b) else none

def State.sendLease (s : State) (type i : Nat) (l : Lease) (arg : Nat) : State :=
  s.send (.krytyth l.bdev (kryt type i l.bidx l.bslot l.ltag arg l.block 0))
def State.sendBorrow (s : State) (type i : Nat) (b : Borrow) (arg fbk : Nat) : State :=
  s.send (.krytyth b.ldev (kryt type b.lidx i b.slot b.ltag arg b.lblock fbk))

/-- R100 to R103: the lender frees an entry and the block is unowned again; held accesses find no lease. -/
def State.freeLease (s : State) (i : Nat) (l : Lease) : State :=
  ((s.mapLease i fun x => { x with st := 0 }).mapPkg fun p => { p with owner := Tbl.put 0xFF p.owner l.block 0xFF }).retryHeld

/-! ### Entries that slot 0 writes (R98) -/

/-- R98: the fields of a lease entry that a write gives. -/
def Lease.fields (l : Lease) (v : BitVec 64) : Lease :=
  { l with bdev := bits v.toNat 35 10, bslot := bits v.toNat 29 6, block := bits v.toNat 21 8 }
def wordOfLease (l : Lease) : BitVec 64 :=
  BitVec.ofNat 64 (l.moved % 2048 + l.block * 2 ^ 21 + l.bslot * 2 ^ 29 + l.bdev * 2 ^ 35 + l.ltag.toNat * 2 ^ 45 + l.st * 2 ^ 61)

def Borrow.fields (b : Borrow) (v : BitVec 256) : Borrow :=
  { b with l3b := bits v.toNat 156 36, l3a := bits v.toNat 120 36, ipa := bits v.toNat 103 17, fbk := bits v.toNat 94 9,
           ldev := bits v.toNat 60 10, slot := bits v.toNat 54 6 }
def wordOfBorrow (b : Borrow) : BitVec 256 :=
  BitVec.ofNat 256 (b.moved % 2048 * 2 ^ 40 + b.st * 2 ^ 51 + b.slot * 2 ^ 54 + b.ldev * 2 ^ 60 + b.lblock * 2 ^ 70 + b.ltag.toNat * 2 ^ 78 +
    b.fbk * 2 ^ 94 + b.ipa * 2 ^ 103 + b.l3a * 2 ^ 120 + b.l3b * 2 ^ 156)

/-- R98: the checks of a write to a lease entry: RZ bits, then the state held and the state written. Log entry 59 (DEDUCED). -/
def State.leaseCheck (s : State) (i : Nat) (v : BitVec 64) (held : Nat) (written : Nat) : Chk Unit :=
  if bits v.toNat 11 10 ≠ 0 then trapOf cEncoding
  else if (s.lease i).st ≠ held ∨ bits v.toNat 61 3 ≠ written then trapOf cOperand
  else if held = 0 ∧ (bits v.toNat 21 8 ≥ 248 ∨ (written = 1 ∧ bits v.toNat 29 6 = 0)) then trapOf cOperand
  else .ok ()

/-- R100: the grant. Log entry 59 (DEDUCED). -/
def State.grantLease (s : State) (i : Nat) : State :=
  let l := s.lease i
  let g := s.pkg.lgen
  if s.owner l.block ≠ 0xFF then s.event 0 0x57 0 [i, 1]
  else if (g - s.pkg.low).toNat ≥ 65535 then s.event 0 0x57 0 [i, 0]
  else
    let l := { l with st := 1, ltag := g + 1, moved := 0, flushed := false, copied := 0, bidx := 0xFF }
    ((s.mapLease i fun _ => l).mapPkg fun p => { p with lgen := g + 1, owner := Tbl.put 0xFF p.owner l.block 0xFE }).sendLease 1 i l 0

/-- R101: the reclaim starts. -/
def State.startReclaim (s : State) (i : Nat) : State :=
  let l := { s.lease i with st := 3, since := s.cycle, moved := 0, flushed := false, copied := 0 }
  (s.mapLease i fun _ => l).sendLease 4 i l 0

/-- A write to a lease entry (R98, R100, R101). -/
def State.leaseWrite (s : State) (i : Nat) (v : BitVec 64) : Chk State :=
  if (s.lease i).st = 0 then
    let w := bits v.toNat 61 3
    match s.leaseCheck i v 0 (if w = 1 then 1 else 0) with
    | .error e => .error e
    | .ok _ =>
      let s := s.mapLease i fun l => l.fields v
      .ok (if w = 1 then s.grantLease i else s)
  else match s.leaseCheck i v 2 3 with
    | .error e => .error e
    | .ok _ => .ok (s.startReclaim i)

/-- A write to a borrow entry (R98). -/
def State.borrowWrite (s : State) (i : Nat) (v : BitVec 256) : Chk State :=
  let b := s.borrow i
  let w := bits v.toNat 51 3
  if bits v.toNat 192 64 ≠ 0 ∨ bits v.toNat 0 40 ≠ 0 then trapOf cEncoding
  else if b.st = 0 ∧ w ≤ 1 then
    let n := b.fields v
    if w = 1 ∧ (n.slot = 0 ∨ s.owner n.fbk ≠ n.slot) then trapOf cOperand
    else .ok (s.mapBorrow i fun _ => { n with st := w })
  else if (b.st = 1 ∨ b.st = 4) ∧ w = 0 then .ok (s.mapBorrow i fun b => { b with st := 0 })
  else trapOf cOperand

/-- A refused write leaves the registers as they are. -/
def Chk.orKeep (x : Chk State) (s : State) : State := match x with | .ok t => t | .error _ => s

/-- R436, R438: a refused access of function `k` is counted. -/
def State.badAccess (s : State) (k : Nat) : State :=
  s.mapFn k fun f => { f with badAccess := if f.badAccess = BitVec.allOnes 32 then f.badAccess else f.badAccess + 1 }
/-- R438: a refused host write to offset `off` of a BAR, in the block of function `k`; `host` when the PF made it through BAR 4. -/
def State.refuseWrite (s : State) (k off : Nat) (host : Bool) (code : Code) : State :=
  let s := (s.badAccess k).eventTo k 0 0x61 k off code.toNat
  if host ∧ k ≠ 0 then s.eventTo 0 0 0x61 k off code.toNat else s
/-- R436, R438: whether offset `off` of BAR 0 of the PF lies in the borrow entry whose words are staged. -/
def Fn.stagedAt (f : Fn) (off : Nat) : Bool := f.staged.any fun g => g.table == 9 && off / 32 == 0x30000 / 32 + g.entry
/-- R438: a host write to the block of function `k`, performed or refused; the staged words of an entry go with a refused write to it. -/
def State.hostTry (s : State) (k off : Nat) (host : Bool) (x : Chk State) : State :=
  match x with
  | .ok t => t
  | .error e =>
    (if k = 0 ∧ host = false ∧ (s.fn 0).stagedAt off then s.mapFn 0 fun f => { f with staged := none } else s).refuseWrite k off host e.code
/-- A write of the PF to lease entry or borrow entry `i`. -/
def State.leaseTry (s : State) (i : Nat) (v : BitVec 64) : State := if s.shut 0 then s else s.hostTry 0 (0x20000 + 8 * i) false (s.leaseWrite i v)
def State.borrowTry (s : State) (i : Nat) (v : BitVec 256) : State :=
  if s.shut 0 then s else s.hostTry 0 (0x30018 + 32 * i) false (s.borrowWrite i v)

/-- LEASE_ENTRY_SET (R98). -/
def execLeaseEntrySet (i : Nat) (v : BitVec 64) (s : State) : Out :=
  .next (if i < 256 ∧ bits v.toNat 61 3 = 0 then s.leaseTry i v else s)
/-- LEASE_OFFER (R97, R100). -/
def execLeaseOffer (i : Nat) (v : BitVec 64) (s : State) : Out :=
  .next (if i < 256 ∧ bits v.toNat 61 3 = 1 then s.leaseTry i v else s)
/-- LEASE_RECLAIM_START (R101). -/
def execLeaseReclaimStart (i : Nat) (s : State) : Out := .next (if i < 256 ∧ (s.lease i).st = 2 ∧ s.shut 0 = false then s.startReclaim i else s)
/-- BORROW_ENTRY_SET (R98). -/
def execBorrowEntrySet (i : Nat) (v : BitVec 256) (s : State) : Out :=
  .next (if i < 256 ∧ (s.borrow i).st = 0 ∧ bits v.toNat 51 3 = 0 then s.borrowTry i v else s)
/-- BORROW_WAIT (R98). -/
def execBorrowWait (i : Nat) (v : BitVec 256) (s : State) : Out :=
  .next (if i < 256 ∧ bits v.toNat 51 3 = 1 then s.borrowTry i v else s)
/-- BORROW_WITHDRAW (R98). -/
def execBorrowWithdraw (i : Nat) (s : State) : Out :=
  .next (if (s.borrow i).st = 1 ∧ s.shut 0 = false then s.mapBorrow i fun b => { b with st := 0 } else s)
/-- BORROW_RELEASE (R98). -/
def execBorrowRelease (i : Nat) (s : State) : Out :=
  .next (if (s.borrow i).st = 4 ∧ s.shut 0 = false then s.mapBorrow i fun b => { b with st := 0 } else s)

/-! ### Grant (R100) -/

/-- GRANT (R100): the lowest WAITING entry with the lender and the slot takes it. -/
def execGrant (src : Nat) (msg : BitVec 128) (s : State) : Out :=
  s.kryIn 1 msg (match s.pkg.borrows.find? fun b => b.2.st == 1 && b.2.ldev == src && b.2.slot == kSlot msg with
    | some (i, _) =>
      let s := s.mapBorrow i fun b =>
        { b with st := 2, ltag := kLtag msg, lblock := kBlock msg, lidx := kLidx msg, moved := 0, flushed := false }
      s.sendBorrow 2 i (s.borrow i) 0 0
    | none => s.send (.krytyth src (kryt 3 (kLidx msg) (kBidx msg) (kSlot msg) (kLtag msg) 1 (kBlock msg) 0)))

/-- ACCEPT (R100). -/
def execAccept (src : Nat) (msg : BitVec 128) (s : State) : Out :=
  s.kryIn 2 msg (match s.leaseIs src msg with
    | some (i, l) => if l.st = 1 then s.mapLease i fun l => { l with st := 2, bidx := kBidx msg } else s
    | none => s)

/-- REFUSE (R100). -/
def execRefuse (src : Nat) (msg : BitVec 128) (s : State) : Out :=
  s.kryIn 3 msg (match s.leaseIs src msg with
    | some (i, l) => if l.st = 1 then (s.freeLease i l).event 0 0x57 0 [i, 2] else s
    | none => s)

/-! ### Reclaim (R101 to R104) -/

/-- R101 step 1: write back and invalidate every sector of the lease. -/
def State.flushLease (s : State) (b : Borrow) : State :=
  let mine (l : Line) (a : Nat) : Bool := l.peer == some b.ldev && a / 0x80000000 == b.lblock
  (List.range 24).foldl (fun s y =>
    ((s.bay y).lines.flatMap fun e => ((e.2.sectors e.1).filter fun x => mine e.2 x.1).map (·.1)).foldl (fun s a => s.sendOut b.ldev a) s) s

/-- RECLAIM (R101). -/
def execReclaim (src : Nat) (msg : BitVec 128) (s : State) : Out :=
  s.kryIn 4 msg (match s.borrowIs src msg with
    | some (i, b) => if b.st = 2 then (s.mapBorrow i fun b => { b with st := 3, since := s.cycle, flushed := false }).flushLease b else s
    | none => s)

/-- BORROWER_FLUSH_DONE (R101): the write-backs are answered. -/
def execBorrowerFlushDone (b : Nat) (s : State) : Out :=
  .next (
    let x := s.borrow b
    let busy := s.pkg.peers.any fun r => r.wb.isSome && r.dev == x.ldev && r.pa / 0x80000000 == x.lblock
    if x.st ≠ 3 ∨ x.flushed ∨ busy then s
    else (s.mapBorrow b fun x => { x with flushed := true }).sendBorrow 5 b x (s.ctxOf x.slot).gen.toNat x.fbk)

/-- FLUSHED (R101). -/
def execFlushed (src : Nat) (msg : BitVec 128) (s : State) : Out :=
  s.kryIn 5 msg (match s.leaseIs src msg with
    | some (i, l) => if l.st = 3 ∧ l.flushed = false then s.mapLease i fun l => { l with flushed := true, bgen := kArg msg, fbk := kFbk msg } else s
    | none => s)

/-- R101 step 2: the eviction writes of a piece: data of granules current for the lease, zeros elsewhere. Log entry 59 (DEDUCED). -/
def State.pieceOut (s : State) (l : Lease) (piece : Nat) : Msg :=
  let lo := l.block * 0x80000000 + piece * 0x200000
  let into := l.fbk * 0x80000000 + piece * 0x200000
  let cells := s.hbm.bytes.filter fun c => decide (lo ≤ c.1) && decide (c.1 < lo + 0x200000) && (s.hbm.gran c.1).current true l.ltag
  let bad := s.hbm.side.filter fun g => decide (lo ≤ g.1 * 64) && decide (g.1 * 64 < lo + 0x200000) && g.2.current true l.ltag && g.2.poison
  .evict l.bdev l.bslot into (tagOf l.bslot l.bgen) (cells.map fun c => (into + (c.1 - lo), c.2)) (bad.map fun g => (into + (g.1 * 64 - lo)) / 64)

/-- PIECE_COPY_DONE (R101): the next piece is copied; at most four are in flight. -/
def execPieceCopyDone (l : Nat) (s : State) : Out :=
  .next (
    let x := s.lease l
    if x.st ≠ 3 ∨ x.flushed = false ∨ x.copied ≥ 1024 ∨ x.copied ≥ x.moved + 4 then s
    else ((s.send (s.pieceOut x x.copied)).mapLease l fun x => { x with copied := x.copied + 1 }).sendLease 6 l x x.copied)

/-- R101 step 3: the translations of a piece leave every TLB, and its leaf every walk cache. -/
def State.dropPiece (s : State) (b : Borrow) (piece leaf : Nat) : State :=
  let lo := b.lblock * 0x80000000 + piece * 0x200000
  let keep (t : Tlb) : Bool :=
    !(t.slot == b.slot && t.mode != 0 && !t.host && t.peer == b.ldev && decide (t.frame < lo + 0x200000) && decide (lo < t.frame + 2 ^ t.size))
  let s := allCores.foldl (fun s c => s.mapCore c fun x => { x with l1 := x.l1.filter keep }) s
  allDies.foldl (fun s d => s.mapDie d fun x =>
    { x with l2 := x.l2.filter keep, walkCache := x.walkCache.filter fun e => e.addr != leaf }) s

/-- PIECE_MOVED (R101); a frozen die does not take the new leaf (R82). Log entries 27 (DEDUCED), 60 (DEDUCED). -/
def execPieceMoved (src : Nat) (msg : BitVec 128) (s : State) : Out :=
  s.kryIn 6 msg (match s.borrowIs src msg with
    | some (i, b) =>
      let piece := kArg msg
      if b.st ≠ 3 ∨ piece ≥ 1024 then s
      else
        let leaf := (if piece < 512 then b.l3a else b.l3b) * 4096 + piece % 512 * 8
        let t := tagOf 0 0
        let v := ofLe (s.hbm.read false t leaf 8)
        let frame := b.fbk * 0x80000000 + piece * 0x200000
        let v := v % 2 ^ 16 + frame / 2 ^ 16 * 2 ^ 16 + bits v 48 4 * 2 ^ 48
        let s := if s.placeFrozen (.hbm leaf) then s else s.memWrite false t (cellsAt leaf (leBytes 8 v))
        let s := s.dropPiece b piece leaf
        (s.mapBorrow i fun b => { b with moved := piece + 1 }).sendBorrow 7 i b piece 0
    | none => s)

/-- PIECE_ACK (R101): held accesses are answered MOVED; after the last piece the lease is over. Log entry 122 (DESIGN CHOICE). -/
def execPieceAck (src : Nat) (msg : BitVec 128) (s : State) : Out :=
  s.kryIn 7 msg (match s.leaseIs src msg with
    | some (i, l) =>
      if l.st ≠ 3 ∨ kArg msg ≠ l.moved ∨ l.moved ≥ l.copied then s
      else
        let s := (s.mapLease i fun l => { l with moved := l.moved + 1 }).retryHeld
        if l.moved + 1 = 1024 then (s.sendLease 8 i l 0).freeLease i l else s
    | none => s)

/-- R104: the tier-demotion record. Log entry 14 (DESIGN CHOICE). -/
def State.demoted (s : State) (i result : Nat) (b : Borrow) : State :=
  (s.postRecord b.slot (record [(1, 0x41), (1, result), (2, b.moved), (2, b.ldev), (1, i), (1, 0), (8, b.ipa * 0x80000000), (8, s.ref.toNat), (8, 0)])).logDie
    (dieOfPa (b.fbk * 0x80000000)) (Config.boxCode 0x41) b.slot [result, i]

/-- DONE (R101, R102, R104). -/
def execDone (src : Nat) (msg : BitVec 128) (s : State) : Out :=
  s.kryIn 8 msg (match s.borrowIs src msg with
    | some (i, b) =>
      if b.st ≠ 3 then s
      else if kArg msg = 0 then (s.mapBorrow i fun b => { b with st := 0 }).demoted i 0 b
      else (s.mapBorrow i fun b => { b with st := 4 }).demoted i 1 b
    | none => s)

/-- RELEASE (R103). -/
def execRelease (src : Nat) (msg : BitVec 128) (s : State) : Out :=
  s.kryIn 9 msg (match s.leaseIs src msg with
    | some (i, l) => s.freeLease i l
    | none => s)

/-- R102: 4 ms in cycles. -/
def reclaimLimit : Nat := 12000000

/-- LENDER_RECLAIM_TIMEOUT (R102). -/
def execLenderReclaimTimeout (l : Nat) (s : State) : Out :=
  .next (
    let x := s.lease l
    if x.st ≠ 3 ∨ s.cycle < x.since + reclaimLimit then s
    else ((s.sendLease 8 l x 1).freeLease l x).event 0 0x58 0 [l, x.moved])

/-- BORROWER_RECLAIM_TIMEOUT (R102, R104). -/
def execBorrowerReclaimTimeout (b : Nat) (s : State) : Out :=
  .next (
    let x := s.borrow b
    if x.st ≠ 3 ∨ s.cycle < x.since + reclaimLimit then s
    else (s.mapBorrow b fun x => { x with st := 4 }).demoted b 1 x)

/-- R103: at the last die cut of an advance of a slot each of its borrow entries becomes FREE and sends RELEASE. -/
def State.releaseBorrows (s : State) (slot : Nat) : State :=
  (s.pkg.borrows.filter fun e => e.2.slot == slot && e.2.st != 0).foldl (fun s e =>
    (s.mapBorrow e.1 fun b => { b with st := 0 }).sendBorrow 9 e.1 e.2 0 0) s

/-! ### Stations (R108, R330) -/

def State.mapStation (s : State) (k : Nat) (f : Station → Station) : State :=
  s.mapPkg fun p => { p with stations := Tbl.upd Station.init p.stations k f }

/-- FLIT_CHECK_FAIL (R108): flit `st` / 16 of station `st` % 16 has failed its check. After it and then three replays of it the
station retrains, or retires at level 16, and its requests go out on others. Log entry 61 (DEDUCED). -/
def execFlitCheckFail (st : Nat) (s : State) : Out :=
  .next (
    let k := st % 16
    let x := s.station k
    let n := Tbl.get 0 x.fails (st / 16)
    if x.st ≠ 0 then s
    else if n < 3 then s.mapStation k fun x => { x with fails := Tbl.put 0 x.fails (st / 16) (n + 1) }
    else if x.level ≥ 16 then
      ((s.mapStation k fun x => { x with st := 2, fails := [] }).resend fun r => r.station == k).event 0 0x5A 0 [k]
    else (s.mapStation k fun x => { x with st := 1, fails := [], level := x.level + 1 }).event 0 0x59 0 [k, x.level + 1])

/-- RETRAIN_COMPLETE (R108). -/
def execRetrainComplete (st : Nat) (s : State) : Out :=
  .next (if (s.station st).st = 1 then s.mapStation st fun x => { x with st := 0, fails := [] } else s)

/-- BUCKET_LEAK (R108). -/
def execBucketLeak (st : Nat) (s : State) : Out :=
  .next (if 0 < (s.station st).level then s.mapStation st fun x => { x with level := x.level - 1 } else s)

/-- STATION_UP (R330): the device number comes with the first station that is up. Log entry 7 (DEDUCED). -/
def execStationUp (st dev : Nat) (s : State) : Out :=
  .next (if st ≥ 16 ∨ (s.station st).st ≠ 3 then s
    else (s.mapStation st fun x => { x with st := 0 }).mapPkg fun p =>
      { p with everUp := true, devNo := if p.everUp then p.devNo else dev % 1024 })

/-! ### Writes of the administrator (R93, R94, R106) -/

/-- OWNER_TABLE_WRITE (R12, R93): carried by the generation sequencer. -/
def execOwnerTableWrite (block : Nat) (v : BitVec 64) (s : State) : Out :=
  .next (if block ≥ 248 ∨ s.seqIdle = false then s else (s.ownerWrite block v).orKeep s)
/-- PEER_WINDOW_WRITE (R94). -/
def execPeerWindowWrite (w : Nat) (v : BitVec 128) (s : State) : Out := .next (if w ≥ 64 then s else (s.windowWrite w v).orKeep s)
/-- MULTICAST_GROUP_WRITE (R105, R106). -/
def execMulticastGroupWrite (entry : Nat) (v : BitVec 256) (s : State) : Out :=
  .next (if entry ≥ 16384 then s else (s.mcastWrite entry v).orKeep s)

end Sys2Proof.Machine
end

