-- ==== Sys2Proof/Machine/Launch.lean ====
section
/-! DEFINITION. Launches (R185 to R210, R219, R220, R227 to R231, R417): the checks of a packet, the pending-launch store, the queues of the
task hierarchy, dispatch with its reservations, the end of groups with their targets, successors and trap records. -/
namespace Sys2Proof.Machine

/-! ### References and the store (R193, R219) -/

def refOf (epoch die ix : Nat) : BitVec 32 := BitVec.ofNat 32 (2 ^ 31 + epoch % 256 * 2 ^ 12 + die % 4 * 2 ^ 10 + ix % 1024)
def refV (r : BitVec 32) : Bool := bit r.toNat 31
def refEpoch (r : BitVec 32) : Nat := bits r.toNat 12 8
def refDie (r : BitVec 32) : Nat := bits r.toNat 10 2
def refIx (r : BitVec 32) : Nat := bits r.toNat 0 10

def State.storeEnt (s : State) (r : BitVec 32) : StoreEnt := Tbl.get StoreEnt.init (s.die (refDie r)).store (refIx r)
def State.mapEnt (s : State) (r : BitVec 32) (f : StoreEnt → StoreEnt) : State :=
  s.mapDie (refDie r) fun x => { x with store := Tbl.upd StoreEnt.init x.store (refIx r) f }
/-- The entry leaves the store; its EPOCH stays. -/
def State.freeEnt (s : State) (r : BitVec 32) : State := s.mapEnt r fun e => { StoreEnt.init with epoch := e.epoch }

/-- R204: the pending entry that a reference of a launch of (slot, gen) names. -/
def State.pendingEnt (s : State) (r : BitVec 32) (slot gen : Nat) : Option StoreEnt :=
  let e := s.storeEnt r
  if refV r ∧ e.st = .pending ∧ e.slot = slot ∧ e.gen % 1024 = gen % 1024 ∧ e.epoch.toNat = refEpoch r then some e else none

/-! ### A packet's fields (R187 to R195) -/

def pktN (p : BitVec 2048) (k : Nat) : Nat := (pktW p k).toNat
def pktKind (p : BitVec 2048) : Nat := bits (pktN p 0) 60 4
def pktLevel (p : BitVec 2048) : Nat := bits (pktN p 0) 57 3
def pktPrio (p : BitVec 2048) : Nat := bits (pktN p 0) 55 2
def pktLoop (p : BitVec 2048) : Bool := bit (pktN p 0) 54
def pktRecomp (p : BitVec 2048) : Bool := bit (pktN p 0) 53
def pktTask (p : BitVec 2048) : Bool := bit (pktN p 0) 52
def pktPark (p : BitVec 2048) : Bool := bit (pktN p 0) 51
def pktNops (p : BitVec 2048) : Nat := bits (pktN p 0) 44 4
def pktPred (p : BitVec 2048) : Nat := bits (pktN p 0) 32 12
def pktGroups (p : BitVec 2048) : Nat := bits (pktN p 0) 0 24
def pktEntry (p : BitVec 2048) : Nat := bits (pktN p 1) 0 40
def pktSucc (p : BitVec 2048) : List (BitVec 32) := (List.range 4).map fun i => BitVec.ofNat 32 (pktN p (6 + i / 2) / 2 ^ (32 * (i % 2)))
def pktTargets (p : BitVec 2048) : List Nat := [pktN p 4, pktN p 5]
/-- A declared operand: space, address, length, whether the node writes it. -/
def pktOpnd (p : BitVec 2048) (k : Nat) : Nat × Nat × Nat × Bool :=
  let h := pktN p (17 + 2 * k)
  (bits h 32 4, pktN p (16 + 2 * k), h % 2 ^ 32, bit h 36)
def pktOpnds (p : BitVec 2048) : List (Nat × Nat × Nat × Bool) := (List.range (min (pktNops p) 8)).map (pktOpnd p)

/-- R192: the fields of a target. -/
def tgtType (w : Nat) : Nat := bits w 62 2
def tgtInc (w : Nat) : Nat := bits w 48 14
def tgtDie (w : Nat) : Nat := bits w 42 2
def tgtCore (w : Nat) : Nat := bits w 36 6

/-- Check 1 of R196: the bits that must be zero. -/
def pktRz (p : BitVec 2048) : Bool :=
  let w := pktN p
  bits (w 0) 48 3 == 0 && bits (w 0) 24 8 == 0 && (if pktKind p = 2 then bits (w 1) 0 46 == 0 else bits (w 1) 40 24 == 0) &&
  bits (w 2) 0 10 == 0 && bits (w 3) 18 46 == 0 &&
  ((pktTargets p).all fun t => bits t 44 4 == 0 && match tgtType t with
    | 0 => t == 0
    | 1 => bits t 32 10 == 0
    | 2 => bits t 8 28 == 0
    | _ => bits t 5 31 == 0) &&
  ((pktSucc p).all fun r => bits r.toNat 20 11 == 0) &&
  ((List.range 8).all fun k =>
    let h := w (17 + 2 * k)
    if k < pktNops p then bits h 37 27 == 0 else w (16 + 2 * k) == 0 && h == 0)

/-- Check 2: values out of range. -/
def pktRange (p : BitVec 2048) : Bool :=
  let op := bits (pktN p 1) 56 8
  (pktKind p == 1 || pktKind p == 2) && decide (pktLevel p ≤ 4) && decide (pktNops p ≤ 8) && pktGroups p != 0 &&
  ((pktTargets p).all fun t => tgtType t == 0 || tgtInc t != 0) &&
  (pktKind p != 2 || (decide (0xA8 ≤ op) && decide (op ≤ 0xB3) && op != 0xB1)) &&
  ((pktOpnds p).all fun o => decide (o.1 ∈ [0, 1, 2, 5]))

/-- Check 3: resources, scratchpad, vector registers, tasks. -/
def pktRes (p : BitVec 2048) : Bool :=
  let w := pktW p 2
  let r := bits (pktN p 3) 0 9 + bits (pktN p 3) 9 9
  let ok (x : Nat × Nat) (n : Nat) : Bool := decide (x.1 + x.2 ≤ n)
  decide (resVreg w ≤ 32) && ok (resAcc w) 8 && decide ((resAcc w).2 ≤ 8) && ok (resTpl w) 64 && ok (resBob w) 32 && ok (resPeg w) 256 &&
  decide (r ≤ 384) && decide (bits (pktN p 3) 9 9 ≤ 383) && decide ((if pktLevel p = 0 then 1 else 4) * resVreg w ≤ 32) &&
  (!(pktTask p) || (decide (pktLevel p ≤ 3) && pktKind p == 1))

/-- Check 4: a copy node. -/
def pktNode (p : BitVec 2048) : Bool :=
  pktKind p != 2 || (pktLevel p == 1 && pktGroups p == 1 && !(pktLoop p) && !(pktTask p) && !(pktPark p) && pktN p 2 == 0 && pktN p 3 == 0)

/-- R185: the cores of a unit of a level; the units. -/
def levelCores (l : Nat) : Nat := match l with | 0 => 1 | 1 => 1 | 2 => 8 | 3 => 48 | _ => 192
def unitCores (l u : Nat) : List Nat := (List.range (levelCores l)).map (u * levelCores l + ·)
/-- R186: whether a unit lies whole in the slot's core mask. -/
def State.unitIn (s : State) (slot l u : Nat) : Bool := (unitCores l u).all (s.maskBit slot)

/-- Check 6 for one target (R192). -/
def State.targetCheck (s : State) (slot t : Nat) : Code :=
  match tgtType t with
  | 0 => 0
  | 1 =>
    let off := t % 2 ^ 32
    if off + 8 > (s.syncWindow (192 + tgtDie t) slot).1 then cBound else if off % 8 ≠ 0 then cMisaligned else 0
  | _ => if tgtCore t < 48 ∧ s.maskBit slot (tgtDie t * 48 + tgtCore t) then 0 else cSpace

/-- R219: the lowest free entry of a die's store. Log entry 64 (DESIGN CHOICE). -/
def State.freeStore (s : State) (d : Nat) : Option Nat :=
  firstBelow 1024 fun i => (Tbl.get StoreEnt.init (s.die d).store i).st == .free

/-- R196: the refusal status of a packet, NONE if it passes. Log entries 62 (DEDUCED), 67 (DEDUCED). -/
def State.pktCheck (s : State) (slot d : Nat) (p : BitVec 2048) : Code :=
  if pktRz p = false then cEncoding
  else if pktRange p = false ∨ pktRes p = false ∨ pktNode p = false then cOperand
  else if (List.range (192 / levelCores (pktLevel p))).all (fun u => !(s.unitIn slot (pktLevel p) u)) then cOperand
  else
    let c := (pktTargets p).map (s.targetCheck slot)
    match c.find? (· ≠ 0) with
    | some e => e
    | none => if (s.freeStore d).isNone then cFull else 0

/-! ### Queues of the task hierarchy (R227, R228) -/

/-- R228: the entries of a block that satisfy `p`, at most `n`: highest priority first, oldest first within a priority. -/
def takeBest (p : QEnt → Bool) : Nat → List QEnt → List QEnt
  | 0, _ => []
  | n + 1, l =>
    let best := (l.filter p).foldl (fun (o : Option QEnt) e => match o with
      | none => some e
      | some b => if e.prio > b.prio ∨ (e.prio = b.prio ∧ e.order < b.order) then some e else some b) none
    match best with
    | none => []
    | some b => b :: takeBest p n (l.erase b)

/-- The newest entry of a list by acceptance order, the later of two tokens of one launch; the oldest. -/
def newest (l : List QEnt) : Option QEnt :=
  l.foldl (fun (o : Option QEnt) e => match o with | none => some e | some b => if b.order ≤ e.order then some e else some b) none
def oldestOf (l : List QEnt) : Option QEnt :=
  l.foldl (fun (o : Option QEnt) e => match o with | none => some e | some b => if e.order < b.order then some e else some b) none
/-- At most `n` entries as `f` picks them. -/
def takeBy (f : List QEnt → Option QEnt) : Nat → List QEnt → List QEnt
  | 0, _ => []
  | n + 1, l => match f l with
    | none => []
    | some e => e :: takeBy f n (l.erase e)

/-- R228: the newest entries of the lowest priority present, at most `n`. -/
def takeWorst (n : Nat) (l : List QEnt) : List QEnt :=
  let lo := l.foldl (fun m e => min m e.prio) 3
  takeBy newest n (l.filter (·.prio == lo))

def without (l m : List QEnt) : List QEnt := m.foldl (·.erase ·) l

/-- R228: eight entries of a full die queue go to the die's spill area, if they find room there: a write of slot 0's memory at
SPILL_BASE, which a frozen die does not take (R82). Log entries 27 (DEDUCED), 87 (DEDUCED). -/
def State.spillFrozen (s : State) (d : Nat) : Bool := s.frozen (dieOfPa (s.die d).spillBase.toNat)
def State.spillOut (s : State) (d : Nat) : State :=
  let w := takeWorst 8 (s.die d).queue
  if (s.die d).spill.length + w.length ≤ Config.spillEntries ∧ s.spillFrozen d = false then
    let cs := (Config.spillCells s.free).map fun c => ((s.die d).spillBase.toNat + c.1 % 0x40000, c.2)
    (s.tick.memWrite false (tagOf 0 0) cs).mapDie d fun x => { x with queue := without x.queue w, spill := x.spill ++ w }
  else s

/-- An entry enters a die queue; a full one first moves eight to its spill area, and with that full refuses it. -/
def State.enqueue (s : State) (d : Nat) (e : QEnt) : Option State :=
  let s := if (s.die d).queue.length < 4096 then s else s.spillOut d
  if (s.die d).queue.length < 4096 then some (s.mapDie d fun x => { x with queue := x.queue ++ [e] }) else none

/-- R227: the die queue of a launch: its store's die, die 0 at level 4. Log entry 69 (DEDUCED). -/
def queueDie (r : BitVec 32) (level : Nat) : Nat := if level = 4 then 0 else refDie r

/-- Up to `n` more tokens of a launch, while the queue takes them. -/
def addTokens (r : BitVec 32) : Nat → State → State
  | 0, s => s
  | n + 1, s =>
    let e := s.storeEnt r
    if e.st ≠ .live ∨ e.given ≥ e.total then s
    else
      let q : QEnt :=
        { slot := e.slot, gen := e.gen, prio := pktPrio e.pkt, level := pktLevel e.pkt, order := e.order, ref := r, resumed := none, num := e.given }
      let d := queueDie r q.level
      match s.enqueue d q with
      | none => s
      | some s => addTokens r n (s.mapEnt r fun e => { e with given := e.given + 1 })

/-- R227, R228: the tokens that a launch has yet to hand out by now: 4,096, and a block of eight more for every eight of its groups that
have been dispatched, but those that its queue has taken. Log entry 92 (DESIGN CHOICE). -/
def StoreEnt.owed (e : StoreEnt) : Nat := min e.total (4096 + e.next / 8 * 8) - e.given
/-- A block of up to eight of them. -/
def State.moreTokens (s : State) (r : BitVec 32) : State := addTokens r (min 8 (s.storeEnt r).owed) s

/-- Whether a launch has tokens that must still enter its die queue. -/
def State.owes (s : State) (r : BitVec 32) : Bool :=
  (s.storeEnt r).st == .live && decide (0 < (s.storeEnt r).owed)
/-- R228: whether an entry must enter the queue of die `d`. -/
def State.mustEnter (s : State) (d : Nat) : Bool :=
  allDies.any fun k => (s.die k).store.any fun e =>
    let r := refOf e.2.epoch.toNat k e.1
    s.owes r && queueDie r (pktLevel e.2.pkt) == d

/-- R200, R227: a launch leaves PENDING. -/
def State.makeReady (s : State) (r : BitVec 32) : State :=
  let e := s.storeEnt r
  addTokens r (min e.total 4096) (s.mapEnt r fun e => { e with st := .live })

/-- R219, R220: an accepted packet takes an entry of the store of die `d`. -/
def State.acceptPacket (s : State) (slot gen d : Nat) (p : BitVec 2048) (q : Option Nat) : State × BitVec 32 :=
  match s.freeStore d with
  | none => (s, 0)
  | some i =>
    let epoch := ((Tbl.get StoreEnt.init (s.die d).store i).epoch + 1)
    let r := refOf epoch.toNat d i
    let s := { s with nextId := s.nextId + 1 }.mapEnt r fun _ =>
      { st := .pending, pkt := p, epoch := epoch, slot := slot, gen := gen, pred := pktPred p, next := 0, given := 0, ended := 0, failed := 0,
        q := q, order := s.nextId, total := pktGroups p, ran := [] }
    (if pktPred p = 0 then s.makeReady r else s, r)

/-- R417: the packet at a place is read for strand `n` of core `c`, checked, and accepted: the state, the code of the trap that poison in it
raises, and D. -/
def State.launchRead (s : State) (n slot gen : Nat) (p : Place) : State × Code × W64 :=
  let c := coreOf n
  let d := dieOf n
  let s := s.settle c p 256
  if s.coreBad c slot gen [] p 256 then (s, cUncorrectable, 0)
  else
    let k := BitVec.ofNat 2048 (ofLe (s.coreBytes c slot gen [] p 256))
    let old := s.oldAtCore (d * 48) slot gen
    let code := if s.placeFrozen p then cContained else if old then cGenRetired else s.pktCheck slot d k
    let s := if s.placeFrozen p then s else s.coreRead c slot gen [] p 256
    let s := if old then s.countDrop slot else s
    if code ≠ 0 then (s, 0, code.setWidth 64)
    else
      let r := s.acceptPacket slot gen d k (match s.groupOf n with | some g => g.q | none => none)
      (r.1, 0, BitVec.ofNat 64 (r.2.toNat * 2 ^ 32))

/-- LAUNCH (R187 to R196, R219, R220, R417): a release at PACKAGE scope; the packet is read once every earlier access of the strand has
performed, and the strand goes on meanwhile. Log entries 27 (DEDUCED), 63 (DEDUCED). -/
def execLaunch (f : FY) (s : State) : Out :=
  let n := s.cur
  let i : Instr := .launch f
  let a := s.opd n f.a
  s.issue i f.pr (opdRegs [f.a]) [f.d.dest] (
    if s.inTask n then .trap ⟨cOperand, 0, 0⟩
    else match s.resolve n false (if f.m = 1 then 0 else 2) a.toNat 256 with
      | .error e => .trap e
      | .ok t =>
        if a.toNat % 256 ≠ 0 then .trap ⟨cMisaligned, 0, a⟩
        else if s.performedTo n 4 then
          match s.launchRead n (s.slotOf n) (s.genOf n) t.place with
          | (s, code, v) => if code ≠ 0 then .trap ⟨code, 0, a⟩ else .done ((s.setS n f.d.dest v).adv n i)
        else .done (((s.addAcc (s.newAcc n i (.launch f.d.dest) 0 t a 256 [])).owe n f.d.dest).adv n i))

/-- R417: whether every access of its strand before a LAUNCH has performed. -/
def State.launchReady (s : State) (a : Acc) : Bool := (s.flight.takeWhile (·.id != a.id)).all fun b => b.strand != a.strand || b.done
/-- R417: a LAUNCH that waited reads its packet. -/
def State.launchArrives (s : State) (a : Acc) : State :=
  if a.done || !(s.launchReady a) then s
  else let r := s.launchRead a.strand a.slot a.gen a.src; r.1.loaded a.id (leBytes 8 r.2.2.toNat) r.2.1

/-- MEMORY_ACCESS_ARRIVAL (R46, R65 to R68, R79, R84, R92, R122, R417). -/
def execMemoryAccessArrival (id : Nat) (s : State) : Out :=
  .next (match s.accOf id with
    | none => s
    | some a => match a.why with
      | .piece c q b k => s.pieceStep a (c, q, b, k) false
      | .launch _ => s.launchArrives a
      | _ => s.arrive a false)

/-! ### Completion records (R223, R224) -/

def State.lqOf (s : State) (slot q : Nat) : LQueue := Tbl.get LQueue.init (s.fn slot).lq q
def State.mapLq (s : State) (slot q : Nat) (f : LQueue → LQueue) : State :=
  s.mapFn slot fun x => { x with lq := Tbl.upd LQueue.init x.lq q f }

/-- A record waits for its ring; its PHASE is that of the place that it takes. -/
def State.queueRecord (s : State) (slot q type : Nat) (status : Code) (ref seq : Nat) : State :=
  s.mapLq slot q fun x => { x with
    waiting := x.waiting ++ [BitVec.ofNat 128 (type + status.toNat * 2 ^ 8 + ref % 2 ^ 32 * 2 ^ 32 + seq % 2 ^ 32 * 2 ^ 64)] }

/-! ### Targets and successors (R202 to R204) -/

/-- R202, R203: a target takes its increment, or latches a code; it carries the group's generation (R123). The launch machinery of the
target's die decides. Log entry 121 (DESIGN CHOICE). -/
def State.targetDo (s : State) (slot gen w : Nat) (code : Code) : State :=
  let t := tagOf slot gen
  match tgtType w with
  | 0 => s
  | 1 =>
    let d := tgtDie w
    if s.frozen d then s
    else if s.oldAtDie d slot gen then s.countDrop slot
    else
      let l := s.syncLocate (192 + d) slot d (w % 2 ^ 32)
      if w % 2 ^ 32 + 8 > (s.syncWindow (192 + d) slot).1 || (match l with | .ovf _ x => s.frozen (dieOfPa x) | .sram _ _ => false) then s
      else if s.syncSpoilt slot gen l then s.syncPoison slot gen l
      else if code ≠ 0 then s.syncLatch slot gen l code
      else s.syncUpdate slot gen l fun v => v + BitVec.ofNat 64 (tgtInc w)
  | k =>
    let c := tgtDie w * 48 + tgtCore w
    let bob := k == 3
    let ix := bits w 0 (if bob then 5 else 8)
    if s.frozen (tgtDie w) then s
    else if s.oldAtCore c slot gen then s.countDrop slot
    else if s.objBad c t bob ix then
      (s.logBox (dieOfCore c) 0x04 slot c [0]).contain c fun _ => s.plainRec cContained 1 c
    else if code ≠ 0 then (if bob then s.bobLatch c t ix code else s.pegLatch c t ix code)
    else
      let s := s.countLost slot c bob ix
      if bob then s.bobFill c t ix (tgtInc w) else s.pegPost c t ix (tgtInc w)

/-- R245: the trap record of group `idx` of the launch `ref`. -/
def trapBytes (slot gen : Nat) (ref : BitVec 32) (idx : Nat) (r : TrapRec) : BitVec 512 :=
  record [(1, 1), (1, r.code.toNat), (1, r.sub), (1, r.flags), (1, slot), (1, coreByte r.core), (1, r.strand % 4), (1, 0), (2, gen), (2, 0),
    (4, ref.toNat), (4, idx % 2 ^ 24), (4, 0), (8, r.pc.toNat), (8, r.ins.toNat), (8, r.addr.toNat), (8, r.time.toNat), (8, r.taskts.toNat)]

/-- R245: to slot 0's ring, and to the slot's own unless the code is GEN_RETIRED; both enter the black box (R439). -/
def State.postTrap (s : State) (slot gen : Nat) (ref : BitVec 32) (idx : Nat) (r : TrapRec) : State :=
  let d := dieOfCore r.core
  let b := trapBytes slot gen ref idx r
  let s := (s.postRecord 0 b).logBox d 0x05 slot r.core [r.code.toNat, ref.toNat]
  if r.code = cGenRetired ∨ slot = 0 then s else s.postRecord slot b

/-- R200, R245: groups `lo` to `hi` - 1 of a launch are ENDED without dispatch. Log entry 19 (DEDUCED). -/
def State.endUnrun (s : State) (e : StoreEnt) (r : BitVec 32) (code : Code) (lo hi : Nat) : State :=
  (List.range (hi - lo)).foldl (fun s i => s.postTrap e.slot e.gen r (lo + i) (s.plainRec code 0 (refDie r * 48))) s

/-- R203: each pending successor fails with the code: it leaves the store, latches its targets, fails its own successors. `q` is the
queue whose teardown it is, which gets a record of each (R232), of the tenancy that enabled it (R225). -/
def failSuccs : Nat → List (BitVec 32) → Nat → Nat → Code → Option Nat → State → State
  | 0, _, _, _, _, _, s => s
  | fuel + 1, rs, slot, gen, code, q, s => rs.foldl (fun s r =>
      match s.pendingEnt r slot gen with
      | none => s
      | some e =>
        let s := (s.freeEnt r)
        let s := (pktTargets e.pkt).foldl (fun s w => s.targetDo e.slot e.gen w code) s
        let s := s.endUnrun e r code 0 e.total
        let s := match q with | some q => if e.gen = (s.ctxOf slot).gen.toNat then s.queueRecord slot q 3 code r.toNat 0 else s | none => s
        failSuccs fuel (pktSucc e.pkt) e.slot e.gen code q s) s

/-- R204, R219: with its last group ended, a launch sends its decrements and leaves the store. -/
def State.settleEnt (s : State) (r : BitVec 32) : State :=
  let e := s.storeEnt r
  if e.st ≠ .live ∨ e.ended < e.total then s
  else
    let s := if e.failed = 0 then
        s.mapPkg fun p => { p with decs := p.decs ++ ((pktSucc e.pkt).filter refV).map fun x => (x, e.slot, e.gen) }
      else s
    s.freeEnt r

/-- SUCC_DECREMENT (R204): decrement `k` of those on their way arrives. -/
def execSuccDecrement (k : Nat) (s : State) : Out :=
  .next (match s.pkg.decs[k]? with
    | none => s
    | some (r, slot, gen) =>
      let s := s.mapPkg fun p => { p with decs := removeAt p.decs k }
      let s := if s.oldAtCore (refDie r * 48) slot gen then s.countDrop slot else s
      match if s.oldAtCore (refDie r * 48) slot gen then none else s.pendingEnt r slot gen with
      | none =>
        (s.mapDie (refDie r) fun x => { x with stray := if x.stray = BitVec.allOnes 32 then x.stray else x.stray + 1 }).event (refDie r) 0x5C slot
          [slot, r.toNat]
      | some e =>
        let s := s.mapEnt r fun e => { e with pred := e.pred - 1 }
        if e.pred ≤ 1 then s.makeReady r else s)

/-! ### Deficits (R230, R231) -/

/-- The key of a slot and a priority. -/
def defKey (slot prio : Nat) : Nat := slot * 4 + prio

/-- The groups that run on a core. -/
def State.groupsOn (s : State) (c : Nat) : List (Nat × Group) := s.groups.filter fun g => g.2.cores.contains c && g.2.st != .saved
def Group.prio (g : Group) : Nat := pktPrio g.pkt

/-- R230: every cycle since the last charge is charged to the slot of every group on the core. Log entry 66 (DEDUCED). -/
def State.charge (s : State) (c : Nat) : State :=
  let gs := s.groupsOn c
  s.mapCore c fun x =>
    let dt : Int := (s.cycle - x.chargedAt : Nat)
    { x with
      deficit := gs.foldl (fun t g => Tbl.upd 0 t (defKey g.2.slot g.2.prio) (· - dt)) x.deficit
      chargedAt := s.cycle }

def State.quantum (s : State) (slot : Nat) : Int := (s.ctxOf slot).schedSlice.toNat * (s.ctxOf slot).schedWeight.toNat * 3000

/-- The visits after which a deficit is above zero. -/
def visitsFor (d q : Int) : Nat := if q ≤ 0 then 1 else if d > 0 then 1 else ((-d) / q + 1).toNat

/-- R230: of the slots with a ready entry that fits at a priority, the one that core `c` serves, and the deficits after the visits. Log entry 66 (DEDUCED). -/
def State.drr (s : State) (c prio : Nat) (slots : List Nat) : Option (Nat × State) :=
  let x := s.core c
  let cur := Tbl.get 0 x.served prio
  let dist (k : Nat) : Nat := (k + 127 - cur) % 64
  let need (k : Nat) : Nat := visitsFor (Tbl.get 0 x.deficit (defKey k prio)) (s.quantum k)
  let best := slots.foldl (fun (o : Option Nat) k => match o with
    | none => some k
    | some b => if need k < need b ∨ (need k = need b ∧ dist k < dist b) then some k else some b) none
  best.map fun w =>
    let rounds (k : Nat) : Nat := if dist k ≤ dist w then need w else need w - 1
    let bump (t : Tbl Int) (k : Nat) : Tbl Int :=
      if rounds k = 0 then t else Tbl.upd 0 t (defKey k prio) fun d => min (d + rounds k * s.quantum k) (s.quantum k)
    (w, s.mapCore c fun x => { x with deficit := slots.foldl bump x.deficit, served := Tbl.put 0 x.served prio w })

/-! ### Reservations (R197, R208) -/

/-- Whether two ranges (base, count) share a number. -/
def rangesMeet (a b : Nat × Nat) : Bool := decide (a.1 < b.1 + b.2) && decide (b.1 < a.1 + a.2) && a.2 != 0 && b.2 != 0

/-- Whether the object ranges and the scratchpad of two packets share nothing. -/
def disjointPkts (p q : BitVec 2048) : Bool :=
  let a := pktW p 2
  let b := pktW q 2
  !(rangesMeet (resAcc a) (resAcc b)) && !(rangesMeet (resTpl a) (resTpl b)) && !(rangesMeet (resBob a) (resBob b)) &&
    !(rangesMeet (resPeg a) (resPeg b)) && !(rangesMeet (spadRange (pktW p 3)) (spadRange (pktW q 3)))

/-- The vector registers in use on a core: (base, count). -/
def State.vregsUsed (s : State) (c : Nat) : List (Nat × Nat) :=
  (s.groupsOn c).flatMap fun g => (g.2.strands.filter (coreOf · == c)).map fun n => (Tbl.get 0 g.2.vbase n, resVreg (g.2.w 2) * 8)

/-- The lowest bases of `k` runs of `v` registers of 256 beside those in use. Log entry 64 (DESIGN CHOICE). -/
def placeRegs (v : Nat) : Nat → List (Nat × Nat) → Option (List Nat)
  | 0, _ => some []
  | k + 1, used =>
    let ok (b : Nat) : Bool := decide (b + v ≤ 256) && used.all fun u => !(rangesMeet (b, v) u)
    match (0 :: used.map fun u => u.1 + u.2).foldl (fun (o : Option Nat) b =>
        if ok b then (match o with | none => some b | some m => some (min m b)) else o) none with
    | none => none
    | some b => (placeRegs v k ((b, v) :: used)).map (b :: ·)

/-- The strands of a core that no group holds. Log entry 64 (DESIGN CHOICE). -/
def State.freeStrands (s : State) (c : Nat) : List Nat := ((List.range 4).map (4 * c + ·)).filter fun n => (s.strand n).grp.isNone

/-- R197: what core `c` reserves for a group of a packet: its strands with their first vector registers. A contained core takes none until
its engines have stopped (R254). -/
def State.reserve (s : State) (c : Nat) (p : BitVec 2048) : Option (List (Nat × Nat)) :=
  let want := if pktKind p = 2 then 0 else if pktLevel p = 0 then 1 else 4
  let free := s.freeStrands c
  if s.frozen (dieOfCore c) ∨ ((s.core c).contained ∧ (s.core c).cq ≠ []) ∨ free.length < want ∨ (pktKind p = 2 ∧ (s.core c).cq.length ≥ 64) ∨
      (s.groupsOn c).any (fun g => !(disjointPkts p g.2.pkt)) then none
  else (placeRegs (resVreg (pktW p 2) * 8) want (s.vregsUsed c)).map fun bs => (free.take want).zip bs

/-- The same on every core of a unit, or on none. -/
def State.reserveAll (s : State) (p : BitVec 2048) : List Nat → Option (List (Nat × Nat))
  | [] => some []
  | c :: t => match s.reserve c p, s.reserveAll p t with
    | some a, some b => some (a ++ b)
    | _, _ => none

/-- R208: whether two declared operands hold each other; `same` when the nodes share a core. Log entry 67 (DEDUCED). -/
def opndMeet (same : Bool) (a b : Nat × Nat × Nat × Bool) : Bool :=
  a.1 == b.1 && (a.2.2.2 || b.2.2.2) && (a.1 != 0 || same) && decide (a.2.1 < b.2.1 + b.2.2.1) && decide (b.2.1 < a.2.1 + a.2.2.1)

/-- R208: whether the guard holds a group of node `me` of a slot on cores `cs`: by the operands of another node of which a group has been
placed on one of their dies, until that node ends. Log entry 106 (DEDUCED). -/
def State.guarded (s : State) (slot : Nat) (p : BitVec 2048) (cs : List Nat) (me : BitVec 32) : Bool :=
  s.dies.any fun d => d.2.store.any fun x =>
    let e := x.2
    e.st == .live && e.slot == slot && refOf e.epoch.toNat d.1 x.1 != me && (e.ran.any fun c => cs.any fun k => dieOfCore k == dieOfCore c) &&
      (let same := e.ran.any cs.contains
       (pktOpnds p).any fun a => (pktOpnds e.pkt).any (opndMeet same a))

/-- The packet of a queue entry. -/
def State.pktOf (s : State) (e : QEnt) : Option (BitVec 2048) :=
  match e.resumed with
  | some g => (s.group g).map (·.pkt)
  | none => let x := s.storeEnt e.ref; if x.st = .live ∧ x.epoch.toNat = refEpoch e.ref then some x.pkt else none

/-- R121, R124: whether an operation of the new generation would be issued at core `c`, or by the launch machinery of a die whose lowest core
it is, before every die and this core have cut. -/
def State.tooNew (s : State) (c slot gen : Nat) : Bool :=
  gen == (s.ctxOf slot).gen.toNat && match s.advancing slot with | some r => !r.dies.isEmpty || r.cores.contains c | none => false

/-- R197, R208, R227: what unit `u` reserves for an entry, if it fits. -/
def State.fits (s : State) (u : Nat) (e : QEnt) : Option (List (Nat × Nat)) :=
  match s.pktOf e with
  | none => none
  | some p =>
    let cs := unitCores e.level u
    if s.noImage ∨ s.unitIn e.slot e.level u = false ∨ s.guarded e.slot p cs e.ref ∨ cs.any (fun c => s.oldAtCore c e.slot e.gen || s.tooNew c e.slot e.gen) then none
    else s.reserveAll p cs

/-! ### Dispatch (R199 to R201, R206, R207, R209, R210, R229) -/

/-- R207: the first declared operand that fails its check. -/
def State.opndCode (s : State) (c slot gen : Nat) (p : BitVec 2048) : Code :=
  let spad := spadRange (pktW p 3)
  let one (o : Nat × Nat × Nat × Bool) : Code :=
    if o.1 = 5 then
      let h := s.heapTriple c slot
      if h.1 ≤ o.2.1 ∧ o.2.1 < h.1 + h.2.1 ∧ h.1 + h.2.1 < o.2.1 + o.2.2.1 then cBound else 0
    else if s.spaceBad c slot o.1 o.2.1 then cSpace
    else if s.boundBad c slot (tagOf slot gen) spad o.1 o.2.1 o.2.2.1 then cBound else 0
  (((pktOpnds p).map one).find? (· ≠ 0)).getD 0

/-- R210: the loop record of a packet: PRO, KER, EPI, TRIP; or the code that its group ends with. Log entries 27 (DEDUCED), 62 (DEDUCED), 105 (DESIGN
CHOICE). -/
def State.loopRec (s : State) (c slot gen : Nat) (p : BitVec 2048) : Except Code (W64 × W64 × W64 × W64) :=
  let a := pktEntry p
  let h := s.heapTriple c slot
  if a % 32 ≠ 0 ∨ a + 32 > h.2.1 then .error cOperand
  else if s.placeFrozen (.hbm (h.2.2 + a)) then .error cContained
  else if s.coreBad c slot gen [] (.hbm (h.2.2 + a)) 32 then .error cUncorrectable
  else
    let d := s.coreBytes c slot gen [] (.hbm (h.2.2 + a)) 32
    let w (i : Nat) : Nat := ofLe (slice d (8 * i) 8)
    let trip := ofLe (slice d 24 4)
    let src := ofLe (slice d 28 1)
    let ok (x : Nat) : Bool := x % 4 == 0 && decide (x < 2 ^ 40)
    if ok (w 0) ∧ ok (w 1) ∧ ok (w 2) ∧ src ≤ 1 ∧ ofLe (slice d 29 3) = 0 ∧ (src = 0 ∨ trip < 8) then
      .ok (BitVec.ofNat 64 (w 0), BitVec.ofNat 64 (w 1), BitVec.ofNat 64 (w 2), if src = 1 then pktW p (8 + trip) else BitVec.ofNat 64 trip)
    else .error cOperand

/-- R122: the read of a loop record, counted where a holder drops or refuses it. -/
def State.loopRead (s : State) (c slot gen : Nat) (p : BitVec 2048) : State :=
  let h := s.heapTriple c slot
  let q : Place := .hbm (h.2.2 + pktEntry p)
  if pktLoop p && pktEntry p % 32 == 0 && decide (pktEntry p + 32 ≤ h.2.1) && !(s.placeFrozen q) then s.coreRead c slot gen [] q 32 else s

/-- R209: the command of a copy node. -/
def State.nodeCopy (s : State) (c gid : Nat) (g : Group) : Copy :=
  let w := pktN g.pkt 1
  let f : FC :=
    { pr := ⟨0, false⟩, cls := BitVec.ofNat 4 (bits w 52 4), km := BitVec.ofNat 4 (bits w 46 4), raw := BitVec.ofNat 2 (bits w 50 2),
      spec := 1, wait := 0xFF, post := 0xFF, inc := 0, ct := 0 }
  { seq := (s.core c).cmdSeq, strand := 4 * c, gid := gid, slot := g.slot, gen := g.gen, ins := (ofC (bits w 56 8) f).getD (.cpy f), pc := 0,
    stamp := s.nextId, cs := (List.range 8).map fun i => pktW g.pkt (8 + i), node := some g.ref, tok := true, lat := 0, accepted := false,
    boxes := 0, boxLo := 0, doneBoxes := [], count := 0, next := 0, open_ := [], code := 0, codeBox := 0, codeAddr := 0, sub := 0,
    ended := false, tileBad := none, tilePoison := false, dests := [], window := 0, bitmap := 0, cursor := 0, twinDst := none, al := 0,
    bound := false, sent := false, poison := false, quiet := false, hold := false, wrote := [], halves := [] }

/-- R199, R206, R211, R213: strand `n` of a new group starts at `pc`. Log entry 65 (DEDUCED). -/
def State.startStrand (s : State) (n gid : Nat) (t : Tag) (pc lph : W64) (parked : Bool) : State :=
  s.mapStrand n fun x =>
    let x := ((if parked then x else x.setPc t pc).setCtl t nLPH lph).setCtl t nRLBL 0
    { x with
      st := if parked then .parked else .running
      dbg := false, oneStep := false, brkLen := 0, grp := some gid, staged := none, pend := [], yieldUntil := 0, task := none, swait := false
      spLph := lph, spIter := x.ctlReg t nITER, spCycle := s.cycle, iterLen := none, atSafe := false, fresh := true, stall := 0, peerLost := false }

/-- A group of a launch starts on cores `cs` with strands and vector registers `rs` (R199, R201, R206). With PARK the lowest of its strands on
a core starts, at level 0 the one it has. Log entry 104 (DESIGN CHOICE). -/
def State.startGroup (s : State) (e : QEnt) (p : BitVec 2048) (cs : List Nat) (rs : List (Nat × Nat)) : State :=
  let x := s.storeEnt e.ref
  let c := cs.headD 0
  let s := if pktLoop p then s.settle c (.hbm ((s.heapTriple c e.slot).2.2 + pktEntry p)) 32 else s
  let gid := s.nextId
  let lp : Except Code (W64 × W64 × W64 × W64) :=
    if pktLoop p then s.loopRec c e.slot e.gen p else .ok (BitVec.ofNat 64 (pktEntry p), 0, 0, 0)
  let oc := s.opndCode c e.slot e.gen p
  let bad : Code := if oc ≠ 0 then oc else match lp with | .error k => k | .ok _ => 0
  let s := s.loopRead c e.slot e.gen p
  let l := match lp with | .ok l => l | .error _ => (0, 0, 0, 0)
  let g : Group :=
    { slot := e.slot, gen := e.gen, ref := e.ref, idx := x.next, level := e.level, cores := cs, strands := rs.map (·.1), pkt := p, vbase := rs,
      pro := l.1, ker := l.2.1, epi := l.2.2.1, trip := l.2.2.2, st := .running, q := x.q, pre := none, choice := [], dbgSince := none,
      frame0 := none, copies := [], dispatched := s.cycle, fail := if bad = 0 then none else some (s.plainRec bad (if pktKind p = 2 then 4 else 0) c) }
  let s := (cs.foldl (fun s c => s.mapCore c fun x => { x with contained := false }) { s with nextId := s.nextId + 1, groups := Tbl.ins s.groups gid g } : State)
  let s := s.mapEnt e.ref fun x => { x with next := x.next + 1, ran := cs.foldl (fun l c => addOnce c l) x.ran }
  if pktKind p = 2 then
    let k := s.nodeCopy c gid g
    (if bad = 0 then (s.mapCore c fun y => { y with cq := y.cq ++ [k], cmdSeq := (y.cmdSeq + 1) % 2 ^ 32 }).acceptCopy c k else s)
  else
    rs.foldl (fun s n =>
      let first := ((rs.map (·.1)).find? fun m => coreOf m == coreOf n.1) == some n.1
      s.startStrand n.1 gid (tagOf e.slot e.gen) l.1 (if pktLoop p then 1 else 0) (pktPark p && !first)) s

/-- R250: a resumed group takes its cores; RESTORE gives it its state. -/
def State.resumeGroup (s : State) (gid : Nat) (cs : List Nat) (rs : List (Nat × Nat)) : State :=
  let s := cs.foldl (fun s c => s.mapCore c fun x => { x with contained := false }) (s.mapGroup gid fun g =>
    { g with cores := cs, strands := rs.map (·.1), vbase := rs, st := .restoring, pre := none, dispatched := s.cycle })
  let s := s.mapEnt (match s.group gid with | some g => g.ref | none => 0) fun x => { x with ran := cs.foldl (fun l c => addOnce c l) x.ran }
  rs.foldl (fun s n => s.mapStrand n.1 fun x => { x with grp := some gid, st := .blocked, atSafe := true, dbg := false, oneStep := false }) s

/-- The queue that a unit of a level takes from: a core's, a bay's or a die's. -/
def State.unitQueue (s : State) (level u : Nat) : List QEnt :=
  match level with
  | 0 => (s.core u).queue.filter fun e => decide (e.level ≤ 1)
  | 1 => (s.core u).queue.filter fun e => decide (e.level ≤ 1)
  | 2 => (Tbl.get Bay.init (s.die (u / 6)).bays (u % 6)).queue.filter (·.level == 2)
  | 3 => (s.die u).queue.filter (·.level == 3)
  | _ => (s.die 0).queue.filter (·.level == 4)

def State.dropQueued (s : State) (level u : Nat) (e : QEnt) : State :=
  match level with
  | 0 => s.mapCore u fun x => { x with queue := x.queue.erase e }
  | 1 => s.mapCore u fun x => { x with queue := x.queue.erase e }
  | 2 => s.mapBay u fun b => { b with queue := b.queue.erase e }
  | 3 => s.mapDie u fun x => { x with queue := x.queue.erase e }
  | _ => s.mapDie 0 fun x => { x with queue := x.queue.erase e }

/-- R229 item 3: resumed groups before tokens, then the oldest. -/
def oldestEnt (l : List QEnt) : Option QEnt :=
  l.foldl (fun (o : Option QEnt) e => match o with
    | none => some e
    | some b => if (e.resumed.isSome ∧ b.resumed.isNone) ∨ (e.resumed.isSome = b.resumed.isSome ∧ e.order < b.order) then some e else some b) none

/-- Tokens whose launch has no group left to hand out are discarded (R229), and old entries after the cut (R123). -/
def State.spent (s : State) (e : QEnt) : Bool :=
  s.oldAtCore (refDie e.ref * 48) e.slot e.gen || match e.resumed with
    | some g => (s.group g).isNone
    | none => let x := s.storeEnt e.ref; x.st != .live || x.epoch.toNat != refEpoch e.ref || decide (x.total ≤ x.next)

/-- GROUP_DISPATCH (R186, R197 to R201, R206 to R210, R227, R229, R230): unit `unit` of a level chooses an entry that fits.
Log entry 92 (DESIGN CHOICE). -/
def execGroupDispatch (level unit : Nat) (s : State) : Out :=
  .next (
    if level > 4 ∨ unit ≥ 192 / levelCores level then s
    else
      let cs := unitCores level unit
      let s := cs.foldl (fun s c => s.charge c) s
      let q := s.unitQueue level unit
      match q.find? s.spent with
      | some e => s.dropQueued level unit e
      | none =>
        let l := q.filter fun e => (s.fits unit e).isSome
        let top := maxL (l.map (·.prio))
        let l := l.filter (·.prio == top)
        match s.drr (cs.headD 0) top (l.foldl (fun m e => addOnce e.slot m) []) with
        | none => s
        | some (slot, s) => match oldestEnt (l.filter (·.slot == slot)) with
          | none => s
          | some e => match s.fits unit e, s.pktOf e with
            | some rs, some p =>
              let s := s.dropQueued level unit e
              match e.resumed with
              | some g => s.resumeGroup g cs rs
              | none => (s.startGroup e p cs rs).moreTokens e.ref
            | _, _ => s)

/-! ### Moves between queues (R228) -/

/-- R227: whether a queue over cores `cs` may hold an entry: a unit of its level lies in them and in the slot's mask. Log entry 68 (DESIGN CHOICE). -/
def State.mayHold (s : State) (e : QEnt) (cs : List Nat) : Bool :=
  cs.any fun c => let u := c / levelCores e.level; s.unitIn e.slot e.level u && (unitCores e.level u).all cs.contains

/-- QUEUE_BLOCK_MOVE (R228): kind 0 bay to core, 1 die to bay, 2 core to bay, 3 bay to die, 4 die to spill, 5 spill to die, 6 die to die;
and tokens that found no room enter (kind 7). Of several slots that a die may move to another the lowest goes. Log entry 68 (DESIGN CHOICE). -/
def execQueueBlockMove (kind src dst : Nat) (s : State) : Out :=
  .next (
    let bayQ (b : Nat) : List QEnt := (Tbl.get Bay.init (s.die (b / 6)).bays (b % 6)).queue
    match kind with
    | 0 =>
      let l := takeBest (fun e => decide (e.level ≤ 1) && s.mayHold e [dst]) 8 (bayQ src)
      if dst ≥ 192 ∨ bayOfCore dst ≠ src ∨ (s.core dst).queue.length ≥ 8 then s
      else (s.mapBay src fun b => { b with queue := without b.queue l }).mapCore dst fun x => { x with queue := x.queue ++ l }
    | 1 =>
      let l := takeBest (fun e => decide (e.level ≤ 2) && s.mayHold e (unitCores 2 dst)) 8 (s.die src).queue
      if dst ≥ 24 ∨ dst / 6 ≠ src ∨ (bayQ dst).length ≥ 64 then s
      else (s.mapDie src fun x => { x with queue := without x.queue l }).mapBay dst fun b => { b with queue := b.queue ++ l }
    | 2 =>
      let l := takeWorst 8 (s.core src).queue
      if src ≥ 192 ∨ bayOfCore src ≠ dst ∨ (s.core src).queue.length < 32 ∨ (bayQ dst).length + l.length > 256 then s
      else (s.mapCore src fun x => { x with queue := without x.queue l }).mapBay dst fun b => { b with queue := b.queue ++ l }
    | 3 =>
      let l := takeWorst 8 (bayQ src)
      if src ≥ 24 ∨ src / 6 ≠ dst ∨ (bayQ src).length < 256 ∨ (s.die dst).queue.length + l.length > 4096 then s
      else (s.mapBay src fun b => { b with queue := without b.queue l }).mapDie dst fun x => { x with queue := x.queue ++ l }
    | 4 =>
      if src ≥ 4 ∨ (s.die src).queue.length < 4096 ∨ s.mustEnter src = false then s else s.spillOut src
    | 5 =>
      let l := takeBy oldestOf 8 (s.die src).spill
      if src ≥ 4 ∨ (s.die src).queue.length ≥ 3584 ∨ s.spillFrozen src then s
      else s.mapDie src fun x => { x with queue := x.queue ++ l, spill := without x.spill l }
    | 6 =>
      let x := s.die src
      let may (k : Nat) : List QEnt := takeBest (fun e => e.slot == k && decide (e.level ≤ 1) && e.resumed.isNone && s.mayHold e (unitCores 3 dst)) 8 x.queue
      let many (k : Nat) : Bool := decide (512 < (x.queue.filter (·.slot == k)).length) && (s.die dst).queue.all (·.slot != k) && may k != []
      match (List.range 64).find? many with
      | none => s
      | some k =>
        let l := may k
        if src ≥ 4 ∨ dst ≥ 4 ∨ src = dst ∨ (s.die dst).queue.length + l.length > 4096 then s
        else (s.mapDie src fun x => { x with queue := without x.queue l }).mapDie dst fun x => { x with queue := x.queue ++ l }
    | _ =>
      let r := refOf (Tbl.get StoreEnt.init (s.die src).store dst).epoch.toNat src dst
      if src ≥ 4 ∨ dst ≥ 1024 ∨ s.owes r = false then s else s.moreTokens r)

/-! ### The end of a group (R202, R203, R245) -/

/-- R203, R232, R254: the code that a group's targets and its pending successors take. -/
def TrapRec.latch (r : TrapRec) : Code := if r.flags % 2 = 1 then cContained else r.code

/-- What waits at a home or at the sequencer for strand `n` answers it no more. -/
def State.forgetStrand (s : State) (n : Nat) : State :=
  let forget (q : SeqReq) : SeqReq := match q with
    | .genAdv k m d l => .genAdv k (if m = n then Config.strands else m) d l
    | q => q
  let s := allDies.foldl (fun s d => s.mapDie d fun x =>
    { x with pubs := x.pubs.map fun p => if p.strand.map (·.1) = some n then { p with strand := none } else p }) s
  s.mapPkg fun p => { p with seqQ := p.seqQ.map forget, seqRun := p.seqRun.map fun r => { r with req := forget r.req } }

/-- A strand is held by no group; a task that it ran stays RUNNING. Log entry 126 (DESIGN CHOICE). -/
def State.freeStrand (s : State) (n : Nat) : State :=
  ((s.forgetStrand n).mapCore (coreOf n) fun y => { y with qptBy := y.qptBy.filter (· != n) }).mapStrand n fun x =>
    { x with st := .free, grp := none, dbg := false, oneStep := false, staged := none, pend := [], task := none, swait := false, stall := 0,
             atSafe := false, fresh := false, yieldUntil := 0, peerLost := false }

/-- R250: a group gives back its save frames. -/
def State.dropFrames (s : State) (slot gid : Nat) : State :=
  s.mapCtx slot fun x => { x with frames := x.frames.filter fun f => f.2 != gid }

/-- R202, R203, R204, R219, R245: the end of group `gid`. Log entry 126 (DESIGN CHOICE). -/
def State.endGroup (s : State) (gid : Nat) : State :=
  match s.group gid with
  | none => s
  | some g =>
    let s := g.cores.foldl (fun s c => s.charge c) s
    let code : Code := match g.fail with | none => 0 | some r => r.latch
    let q := if g.fail.any (·.code == cTeardown) ∧ g.gen = (s.ctxOf g.slot).gen.toNat then g.q else none
    let s := (pktTargets g.pkt).foldl (fun s w => s.targetDo g.slot g.gen w code) s
    let s : State := if g.st = .saved then s else
      g.strands.foldl (fun s n => if (s.strand n).grp = some gid then s.freeStrand n else s) s
    let s := { s with flight := s.flight.filter fun a => !(decide (g.st ≠ GState.saved) && g.strands.contains a.strand) }
    let s := { (s.dropFrames g.slot gid) with groups := Tbl.del s.groups gid }
    let s : State := match g.fail with | none => s | some r => s.postTrap g.slot g.gen g.ref g.idx r
    let e := s.storeEnt g.ref
    if e.st ≠ .live ∨ e.epoch.toNat ≠ refEpoch g.ref then s
    else
      let s := s.mapEnt g.ref fun e => { e with ended := e.ended + 1, failed := if e.failed = 0 then code else e.failed }
      let s : State := if code ≠ 0 ∧ e.failed = 0 then
          failSuccs 4097 (pktSucc g.pkt) g.slot g.gen code q s
        else s
      s.settleEnt g.ref

/-- Whether an engine of core `c` still works for a group. -/
def State.engineBusy (s : State) (gid c : Nat) : Bool :=
  let x := s.core c
  (x.mq ++ x.vq).any (·.gid == gid) || x.cq.any (·.gid == gid)

/-- R202, R215: whether the end condition of a group holds; a failed group ends when its engines have
stopped and what its strands issued before is complete (R244), but for what ordered tasks asked for. A strand in DEBUG keeps its group (R205), and the writes of tasks
committed on its cores perform first. Log entry 18 (DEDUCED). -/
def State.canEnd (s : State) (gid : Nat) (g : Group) : Bool :=
  !(g.cores.any (s.engineBusy gid)) && !(s.flight.any fun a => a.isCommit && a.slot == g.slot && g.st != .saved && g.cores.contains a.core) &&
  match g.fail with
  | some _ => !(s.flight.any fun a => g.st != .saved && g.strands.contains a.strand && (match a.why with
      | .store => true
      | .vst => true
      | .sync _ _ => true
      | .load _ _ => a.task.isNone
      | .launch _ => true
      | _ => false))
  | none =>
    g.st == .running && pktKind g.pkt == 1 &&
    (g.strands.all fun n => !(s.strand n).dbg && (match (s.strand n).st with | .halted => true | .parked => true | .taskwait => true | _ => false)) &&
    !(s.flight.any fun a => g.strands.contains a.strand && !(match a.why with | .piece _ _ _ _ => true | _ => false)) &&
    (!(pktTask g.pkt) || g.cores.all fun c => (s.die (dieOfCore c)).tasks.all (·.slot != g.slot))

/-- GROUP_END (R202, R203, R245). Log entry 18 (DEDUCED). -/
def execGroupEnd (gid : Nat) (s : State) : Out :=
  .next (match s.group gid with
    | none => s
    | some g => if s.canEnd gid g then s.endGroup gid else s)

end Sys2Proof.Machine
end

