-- ==== Sys2Proof/Machine/CopyEnd.lean ====
section
/-! DEFINITION. The end of copy commands (R168, R171, R209, R394, R395, R403 to R406) and the publishes of twin handles (R172, R173, R407). -/
namespace Sys2Proof.Machine

/-! ### The status of a command (R394, R395) -/

/-- The status, once the command is over. -/
def Copy.status (k : Copy) : Code :=
  if k.ended ∨ k.code ≠ 0 then k.code
  else if k.tileBad.isSome then (if k.tilePoison then cUncorrectable else cTileMalformed)
  else if k.bitmap ≠ 0 then cPartial
  else 0

/-- R394, R402, R404 to R406: DETAIL of the status record. -/
def Copy.detail (k : Copy) : Nat :=
  if k.op = 0xB3 then k.cursor % 2 ^ 40 + (k.tileBad.getD 0) % 2 ^ 24 * 2 ^ 40
  else if k.ended then k.codeAddr.toNat
  else match k.tileBad with
    | some t => t % 2 ^ 24
    | none => k.bitmap

/-- R395: the 16 bytes of the record. -/
def Copy.record (k : Copy) : List Byte :=
  let c := k.status
  [c, BitVec.ofNat 8 (if c = cTileMalformed then k.sub else 0), 0, 0] ++ leBytes 4 k.count ++ leBytes 8 k.detail

/-- R395, R177, R329: the record is written when its bytes lie in the allotment. -/
def State.writeStatus (s : State) (c : Nat) (k : Copy) : State :=
  let spad := s.spadOfCopy k
  let p : Place := .ground (sliceAt c k.soff)
  if k.sts ∧ spad.1 ≤ k.soff ∧ k.soff + 16 ≤ spad.1 + spad.2 then
    ((s.settle c p 16).countPerf c k.slot k.gen 6 16).store k.slot k.gen p k.record else s

/-! ### The counter of CPY.W (R171, R403) -/

/-- Whether CS4 and CS5 name a counter. Log entry 46 (DEDUCED). -/
def State.counterOk (s : State) (c : Nat) (k : Copy) : Bool :=
  zeroFrom (k.c 4) 34 && bits (k.c 5) 11 5 == 0 && zeroFrom (k.c 5) 22 && k.c 4 % 8 == 0 &&
    (bit (k.c 5) 10 || (bits (k.c 5) 0 10 == 0 && bits (k.c 5) 16 6 == 0 && decide (bits (k.c 4) 0 32 + 8 ≤ (s.syncWindow c k.slot).1)))

/-- The increment, or the status of an early end, goes to the counter, which the engine finds in its core's sync window (R72); on this
device it performs at once; one that lies there beyond SYNC_LIMIT by now fails the check of R14. What goes through a window of this device
whose owner's generation advances waits for the cut of the die (R121). Log entries 46 (DEDUCED), 118 (DEDUCED). -/
def State.sendCounter (s : State) (c : Nat) (k : Copy) : State :=
  let die := bits (k.c 4) 32 2
  let off := bits (k.c 4) 0 32
  let st := k.status
  let l := syncAt (s.syncWindow c k.slot) die off
  let s0 := s
  let s := s.mapCopy c k.seq fun k => { k with sent := true }
  let done (s : State) (code : Code) : State := s.counterEnd c k.seq code
  if k.code = 0 ∧ k.len = 0 then done s k.code
  else if s.counterOk c k = false then done s cBound
  else if bit (k.c 5) 10 then
    let dev := bits (k.c 5) 0 10
    let w := bits (k.c 5) 16 6
    if dev = s.pkg.devNo then
      match s.peerServe dev k.slot (.counter w die off st) (leBytes 8 (k.c 6)) with
      | (s, .reply 0 _) => done s k.code
      | (s, .reply 4 _) => done s cContained
      | (_, .held) => s0
      | (s, _) => done s cPagePerm
    else
      let r : PeerReq :=
        { id := 0, dev := dev, slot := k.slot, gen := k.gen, pa := off, wr := true, n := 8, acc := none, cmd := some (c, k.seq, 1, 0), wb := none,
          fences := [], poison := false, data := leBytes 8 (k.c 6), op := none, fetch := false, stale := false, station := 0, sentAt := 0, msg := .flush 0 }
      let x := s.sendReq r (.counter dev w off die (BitVec.ofNat 64 (k.c 6)) st)
      if x.2 then x.1 else done x.1 cPeerLost
  else if s.frozen die || (match l with | .ovf _ x => s.frozen (dieOfPa x) | .sram _ _ => false) then done s cContained
  else if s.oldAtDie die k.slot k.gen then done (s.countDrop k.slot) cGenRetired
  else if s.syncSpoilt k.slot k.gen l then done (s.syncPoison k.slot k.gen l) cUncorrectable
  else if st ≠ 0 then done (s.syncLatch k.slot k.gen l st) k.code
  else done (s.syncUpdate k.slot k.gen l fun v => v + BitVec.ofNat 64 (k.c 6)) 0

/-! ### The end (R168 rules 3 to 5, R394) -/

/-- The completion target of a command: the latch, then the post or the fill. -/
def State.copyTarget (s : State) (c : Nat) (k : Copy) : State :=
  match k.ins.form with
  | .c _ f =>
    let bob := f.ct == 1
    let ix := f.post.toNat
    let t := tagOf k.slot k.gen
    let st := k.status
    if ix = 0xFF then s
    else if s.oldAtCore c k.slot k.gen then s.countDrop k.slot
    else if s.objBad c t bob ix then
      (s.logBox (dieOfCore c) 0x04 k.slot c [0]).contain c fun g =>
        if g = k.gid then s.plainRec cUncorrectable 5 c else s.plainRec cContained 1 c
    else
      let s : State := s.countLost k.slot c bob ix
      let s : State := if st = 0 ∨ st = cPartial then s else if bob then s.bobLatch c t ix st else s.pegLatch c t ix st
      if bob then s.bobFill c t ix f.inc.toNat else s.pegPost c t ix f.inc.toNat
  | _ => s

/-- R209: a copy node's group ends with its command. -/
def State.endNode (s : State) (c : Nat) (k : Copy) : State :=
  let st := k.status
  let r : TrapRec :=
    { code := st, sub := if st = cTileMalformed then k.sub else 0, flags := 4, core := c, strand := 0, pc := 0, ins := 0, addr := k.codeAddr, time := s.ref,
      taskts := 0 }
  let s := if st = 0 ∨ st = cPartial then s else s.mapGroup k.gid fun g => { g with fail := some (g.fail.getD r) }
  s.endGroup k.gid

/-- R423: a command with an access held on a fault record ends at the cut that retires the record: its status, its counter's latch and its
completion target take GEN_RETIRED at once, and what of its boxes is under way changes nothing further. Log entry 75 (DEDUCED). -/
def State.endHeld (s : State) (p : Who) (ea : Nat) : State :=
  match s.copyOf p.1 p.2.1 with
  | none => s
  | some k =>
    if k.quiet then s
    else
      let k := { k with ended := true, code := cGenRetired, codeAddr := BitVec.ofNat 64 ea }
      let s := s.mapCopy p.1 k.seq fun _ => { k with quiet := true }
      let s := if k.op = 0xAD ∧ k.sent = false then s.sendCounter p.1 k else s
      let s := (s.writeStatus p.1 k).copyTarget p.1 k
      if k.node.isSome then s.endNode p.1 k else s

/-- R168 rule 4: what the command still has dirty in the bays is written back. Log entry 99 (DESIGN CHOICE). -/
def State.backOut (s : State) (k : Copy) : State := (s.unbacked k).foldl (fun s e => s.writeBack [] e) s

/-- COPY_COMPLETE (R168, R171, R209, R394, R395, R403). -/
def execCopyComplete (core seq : Nat) (s : State) : Out :=
  .next (match s.copyOf core seq with
    | none => s
    | some k =>
      if k.over = false then s
      else if s.unbacked k ≠ [] then s.backOut k
      else if s.backing k ∨ ((s.core core).cq.takeWhile (·.seq != seq)).any (fun j => j.ordered k) then s
      else
        let gone (s : State) : State := s.mapCore core fun x => { x with cq := x.cq.filter (·.seq != seq) }
        if k.quiet then gone s
        else if k.op = 0xAD ∧ k.sent = false then s.sendCounter core k
        else if k.op = 0xAD ∧ k.bound = false then s
        else
          let s := gone ((s.writeStatus core k).copyTarget core k)
          if k.node.isSome then s.endNode core k else s)

/-! ### PUB (R172, R173, R408) -/

/-- R172, R180: whether a copy command that strand `n` has issued, or that its core has accepted, writes the handle's shadow buffer. -/
def State.copyToHandle (s : State) (n slot h : Nat) : Bool :=
  let c := coreOf n
  (s.core c).cq.any fun k => k.slot == slot && (k.accepted || k.strand == n) &&
    (if k.accepted then k else s.capture c k).twinDst.map (·.1) == some h

/-- PUB (R408): a release; the strand stalls until the publish returns. -/
def execPub (f : FM) (s : State) : Out :=
  let n := s.cur
  let h := (s.opd n f.a).toNat
  s.issue (.pub f) f.pr (opdRegs [f.a]) [f.d.dest] (
    if s.inTask n then .trap ⟨cSpecIllegal, 0, 0⟩
    else if h > 1023 ∨ (f.ty ≠ 1 ∧ f.ty ≠ 2) then .trap ⟨cOperand, 0, 0⟩
    else if s.performedTo n 2 = false ∨ s.copyToHandle n (s.slotOf n) h then .wait s
    else
      let p : Publish :=
        { slot := s.slotOf n, gen := s.genOf n, h := h, pkg := f.ty == 2, strand := some (n, f.d.dest, (Instr.pub f).len), bind := none,
          started := false, prepared := [], acked := [], swapped := [], done := [], committed := false }
      .done ((s.mapDie (h % 4) fun x => { x with pubs := x.pubs ++ [p] }).mapStrand n fun x => { x with stall := 2, st := .blocked }))

/-! ### Publishes (R172, R173, R407) -/

def Publish.is (p : Publish) (slot h : Nat) : Bool := p.slot == slot && p.h == h

/-- The change of a replica's entry: the swap, or the entry that CPY.X installs. -/
def Publish.apply (p : Publish) (e : Twin) : Twin :=
  match p.bind with
  | some (_, _, n) => { n with pubseq := e.pubseq, pend := false }
  | none => { e with pubseq := e.pubseq + 1, pend := false, shd := e.vis, vis := e.shd }

/-- A replica makes the change. -/
def State.replica (s : State) (d : Nat) (p : Publish) : State :=
  s.mapDie d fun x => { x with
    twins := Tbl.upd zTwin x.twins (p.slot * 1024 + p.h) fun y => y.part (tagOf p.slot p.gen) zTwin0 p.apply
    holds := x.holds.filter (· != p.slot * 1024 + p.h) }

/-- The first publish of a handle at its home that satisfies `q` is changed. -/
def mapFirst (q : Publish → Bool) (f : Publish → Publish) : List Publish → List Publish
  | [] => []
  | p :: t => if q p then f p :: t else p :: mapFirst q f t
def State.mapPub (s : State) (p : Publish) (f : Publish → Publish) : State :=
  s.mapDie (p.h % 4) fun x => { x with pubs := mapFirst (· == p) f x.pubs }
def State.dropPub (s : State) (p : Publish) : State := s.mapDie (p.h % 4) fun x => { x with pubs := x.pubs.erase p }

/-- A publish returns: D of its strand, or the copy command that binds. -/
def State.pubReturn (s : State) (p : Publish) (code : Code) : State :=
  let d := match p.strand with | some (n, _, _) => if p.pkg then p.h % 4 else dieOf n | none => p.h % 4
  let seq := (s.twin d p.slot p.h (tagOf p.slot p.gen)).pubseq
  match p.bind with
  | some (c, q, _) => s.mapCopy c q fun k =>
      { k with bound := true, ended := k.ended || code != 0, code := if k.ended ∨ code = 0 then k.code else code }
  | none => match p.strand with
    | some (n, d, len) => s.endWait n d len (tagOf p.slot p.gen)
        (if code = 0 then BitVec.ofNat 64 (seq.toNat % 2 ^ 56 * 256) else code.setWidth 64)
    | none => s

/-- A publish ends without its change. -/
def State.pubFail (s : State) (p : Publish) (code : Code) : State :=
  let s := allDies.foldl (fun s d => s.mapDie d fun x => { x with holds := x.holds.filter (· != p.slot * 1024 + p.h) }) s
  (s.pubReturn p code).dropPub p

/-- R172, R408: whether the home can take a publish: a bound handle, not poisoned. Log entry 27 (DEDUCED). -/
def State.pubCheck (s : State) (p : Publish) : Code :=
  let d := p.h % 4
  let t := tagOf p.slot p.gen
  let e := s.twin d p.slot p.h t
  if s.frozen d then cContained
  else if s.oldAtDie d p.slot p.gen then cGenRetired
  else if p.bind.isSome then 0
  else if s.twinBad d p.slot p.h t then cUncorrectable
  else if e.loc = 1 ∨ e.loc = 2 then 0 else cBound

/-- R79, R82, R122, R123: why replica `d` does not make a publish that its home has taken; 0 where it does. It then ends with that code
everywhere. Log entry 27 (DEDUCED). -/
def State.pubStop (s : State) (p : Publish) (d : Nat) : Code :=
  if s.frozen d then cContained
  else if s.oldAtDie d p.slot p.gen then cGenRetired
  else if p.bind.isNone && s.twinBad d p.slot p.h (tagOf p.slot p.gen) then cUncorrectable
  else 0
/-- The publish ends with a code; one that a cut has made old is counted (R122). -/
def State.pubEnd (s : State) (p : Publish) (code : Code) : State := (if code = cGenRetired then s.countDrop p.slot else s).pubFail p code

/-- PUBLISH_PREPARE (R173): the home takes the publish with its own; a replica holds later reads of the handle and acknowledges. -/
def execPublishPrepare (slot h die : Nat) (s : State) : Out :=
  .next (match (s.die (h % 4)).pubs.find? (·.is slot h) with
    | none => s
    | some p =>
      if (p.pkg = false ∧ p.bind.isNone) ∨ die ≥ 4 ∨ p.prepared.contains die ∨ (p.started = false ∧ die ≠ h % 4) then s
      else
        let code := if p.started then s.pubStop p die else s.pubCheck p
        if code ≠ 0 then s.pubEnd p code
        else (s.mapDie die fun x => { x with holds := addOnce (slot * 1024 + h) x.holds }).mapPub p fun p =>
          { p with started := true, prepared := addOnce die p.prepared })

/-- PREPARE_ACK (R173): with all four the home swaps, and COMMIT goes out. -/
def execPrepareAck (slot h die : Nat) (s : State) : Out :=
  .next (match (s.die (h % 4)).pubs.find? (·.is slot h) with
    | none => s
    | some p =>
      if p.prepared.contains die = false ∨ p.acked.contains die then s
      else
        let p' := { p with acked := addOnce die p.acked }
        if p'.acked.length < 4 then s.mapPub p fun _ => p'
        else if s.pubStop p (h % 4) ≠ 0 then s.pubEnd p (s.pubStop p (h % 4))
        else (s.replica (h % 4) p).mapPub p fun _ => { p' with committed := true, swapped := [h % 4] })

/-- PUBLISH_COMMIT (R173): a replica swaps and releases its held reads. -/
def execPublishCommit (slot h die : Nat) (s : State) : Out :=
  .next (match (s.die (h % 4)).pubs.find? (·.is slot h) with
    | none => s
    | some p =>
      if p.committed = false ∨ die ≥ 4 ∨ p.swapped.contains die then s
      else if s.pubStop p die ≠ 0 then s.pubEnd p (s.pubStop p die)
      else (s.replica die p).mapPub p fun p => { p with swapped := addOnce die p.swapped })

/-- COMMIT_ACK (R173): with all four the PUB returns. -/
def execCommitAck (slot h die : Nat) (s : State) : Out :=
  .next (match (s.die (h % 4)).pubs.find? (·.is slot h) with
    | none => s
    | some p =>
      if p.committed = false ∨ p.swapped.contains die = false ∨ p.done.contains die then s
      else
        let p' := { p with done := addOnce die p.done }
        if p'.done.length < 4 then s.mapPub p fun _ => p' else (s.pubReturn p 0).dropPub p)

/-- TWIN_SWAP (R172): at DIE scope the home swaps as it takes the publish, and then each replica in that order; the PUB returns with
the issuing die's. -/
def execTwinSwap (slot h die : Nat) (s : State) : Out :=
  .next (
    let home := h % 4
    match (s.die home).pubs.find? (fun p => p.is slot h && !(p.swapped.contains die)) with
    | none => s
    | some p =>
      let later := ((s.die home).pubs.takeWhile (· != p)).any fun q => q.is slot h && (q.pkg || q.bind.isSome)
      if p.pkg ∨ p.bind.isSome ∨ die ≥ 4 ∨ later ∨ (p.started = false ∧ die ≠ home) then s
      else
        let code := if p.started then s.pubStop p die else s.pubCheck p
        if code ≠ 0 then s.pubEnd p code
        else
          let s := s.replica die p
          let mine := match p.strand with | some (n, _, _) => dieOf n == die | none => false
          let s : State := if mine then s.pubReturn p 0 else s
          let p' := { p with started := true, swapped := addOnce die p.swapped, strand := if mine then none else p.strand }
          if p'.swapped.length < 4 then s.mapPub p fun _ => p' else s.dropPub p)

end Sys2Proof.Machine
end

