-- ==== Sys2Proof/Machine/Matrix.lean ====
section
/-! DEFINITION. Matrix instructions (R150 to R156, R357 to R378): issue into the matrix queue, templates, operands in the slice,
accumulator banks. -/
namespace Sys2Proof.Machine

/-! ### Issue (R357, R358, R360) -/

/-- A matrix instruction of strand `n` as a queue entry, with the scalars read at issue. -/
def State.matEnt (s : State) (n : Nat) (i : Instr) (f : FX) : Ent :=
  { strand := n, gid := (s.strand n).grp.getD 0, slot := s.slotOf n, gen := s.genOf n, ins := i, pc := s.getPc n,
    a := s.opd n (.reg f.sa), b := s.opd n (.reg f.sb), mask := 0, rm := fpcRm (s.getCtl n nFPC), task := (s.strand n).task,
    acc := s.nextId, tok := f.wait == 0xFF, lat := 0, started := none, poison := false, srcBad := false, num := (s.core (coreOf n)).entSeq }

/-- The issue of a matrix or tile instruction with scalar sources `srcs`; `taskOk` if an ordered task may run it without pegs. -/
def State.issueMat (s : State) (i : Instr) (f : FX) (srcs : List Nat) (taskOk : Bool) : Out :=
  let n := s.cur
  let c := coreOf n
  s.issueAs true true i f.pr srcs (entOwes i) (
    if s.inTask n && !(taskOk && f.wait == 0xFF && f.post == 0xFF) then .trap ⟨cSpecIllegal, 0, 0⟩
    else if (s.core c).mq.length ≥ 32 then .wait s
    else
      let e := { s.matEnt n i f with srcBad := s.entBad n f.pr (srcs ++ match i with | .tdeq _ => [pendC nFPC] | _ => []) }
      .done (((s.mapCore c fun x => { x with mq := x.mq ++ [e], entSeq := x.entSeq + 1 }).oweAny n (entOwes i)).adv n i))

def execMma (f : FX) (s : State) : Out := s.issueMat (.mma f) f [f.sa.toNat, f.sb.toNat] false
def execMmaz (f : FX) (s : State) : Out := s.issueMat (.mmaz f) f [f.sa.toNat, f.sb.toNat] false
def execMzero (f : FX) (s : State) : Out := s.issueMat (.mzero f) f [] false
def execMhad (f : FX) (s : State) : Out := s.issueMat (.mhad f) f [] false
def execMdrain (f : FX) (s : State) : Out := s.issueMat (.mdrain f) f [f.sa.toNat] false
def execMdrainv (f : FX) (s : State) : Out := s.issueMat (.mdrainv f) f [f.sa.toNat] false
def execMldacc (f : FX) (s : State) : Out := s.issueMat (.mldacc f) f [f.sa.toNat, f.sb.toNat] false
def execMstacc (f : FX) (s : State) : Out := s.issueMat (.mstacc f) f [f.sa.toNat] false
def execMtplLd (f : FX) (s : State) : Out := s.issueMat (.mtplLd f) f [f.sa.toNat] false
def execMtplDiff (f : FX) (s : State) : Out := s.issueMat (.mtplDiff f) f [f.sa.toNat] false
def execMtplSwap (f : FX) (s : State) : Out := s.issueMat (.mtplSwap f) f [] false
def execMtplRd (f : FX) (s : State) : Out := s.issueMat (.mtplRd f) f [f.sa.toNat] true
def execMscale (f : FX) (s : State) : Out := s.issueMat (.mscale f) f [f.sb.toNat] false
def execMscaleRebase (f : FX) (s : State) : Out := s.issueMat (.mscaleRebase f) f [f.sb.toNat] false
/-- MSTAT (R372): a task may run it without .clr. -/
def execMstat (f : FX) (s : State) : Out := s.issueMat (.mstat f) f [] (f.m == 0)
def execTquant (f : FX) (s : State) : Out := s.issueMat (.tquant f) f [f.sa.toNat, f.sb.toNat] false
def execTdeq (f : FX) (s : State) : Out := s.issueMat (.tdeq f) f [f.sa.toNat, f.sb.toNat] false
def execTtrn (f : FX) (s : State) : Out := s.issueMat (.ttrn f) f [f.sa.toNat, f.sb.toNat] false
def execTcomp (f : FX) (s : State) : Out := s.issueMat (.tcomp f) f [f.sa.toNat, f.sb.toNat] false
def execTchk (f : FX) (s : State) : Out := s.issueMat (.tchk f) f [f.sa.toNat] true
def execTpack (f : FX) (s : State) : Out := s.issueMat (.tpack f) f [f.sa.toNat, f.sb.toNat] false
def execTunpk (f : FX) (s : State) : Out := s.issueMat (.tunpk f) f [f.sa.toNat, f.sb.toNat] false

/-! ### Operands in the slice (R365) -/

/-- The slice offsets of the bytes of plain tile `t` of width `w`, row by row. -/
def tileAddrs (d : Desc) (t w : Nat) : List Nat :=
  (List.range 16).flatMap fun i => (List.range (2 * w)).map fun b => rotAddr d.rot (d.off + 32 * d.tp * t + 32 * d.rp * i + b) i
/-- The slice offsets of `n` bytes of record `t`: row 0, which no rotation moves. -/
def recAddrs (d : Desc) (t n : Nat) : List Nat := (List.range n).map (d.off + 32 * d.tp * t + ·)

/-- Step 11 for the bytes at offsets `l` of an operand. Log entry 36 (DEDUCED). -/
def State.inSlice (s : State) (e : Ent) (d : Desc) (l : List Nat) : Chk Unit :=
  let r := s.spadOf e.strand
  if bits d.off 21 3 ≠ 0 ∨ l.any (fun a => decide (a < r.1) || decide (r.1 + r.2 ≤ a)) then trapAt cBound d.off else .ok ()
/-- Step 12. Log entry 36 (DEDUCED). -/
def alignedTo (k : Nat) (d : Desc) : Chk Unit := if d.off % k ≠ 0 then trapAt cMisaligned d.off else .ok ()
/-- R365: a record operand has no row pitch; a written tile's rows do not meet. -/
def recDesc (v : W64) : Chk Desc := do
  let d ← descCheck v
  need (d.rp == 0) cOperand
  pure d
def outDesc (v : W64) (w : Nat) : Chk Desc := do
  let d ← descCheck v
  need (decide (2 * w ≤ 32 * d.rp)) cOperand
  pure d

/-- The bytes at slice offsets, as the entry's operation reads them (R114, R235). -/
def State.sliceBytes (s : State) (e : Ent) (l : List Nat) : List Byte :=
  let c := coreOf e.strand
  l.map fun a =>
    let p : Place := .ground (sliceAt c a)
    let d := s.bytesOf e.slot e.gen p 1
    (match e.task with | some q => s.overlay c q p d | none => d).headD 0
/-- R79: whether one of them is poisoned for the owner. -/
def State.slicePoison (s : State) (e : Ent) (l : List Nat) : Bool :=
  l.any fun a => s.poisonAt e.slot e.gen (.ground (sliceAt (coreOf e.strand) a)) 1

/-- Step 13: no poison; of an entry, none in the scalars that it read at its issue either (R360). -/
def clean (b : Bool) : Chk Unit := need (!b) cUncorrectable
def Ent.clean (e : Ent) (b : Bool) : Chk Unit := Machine.clean (e.srcBad || b)
/-- R148, R379: the trap of a malformed tile; subcode 0 is a good one. -/
def wellTiled (sub : Nat) : Chk Unit := if sub ≠ 0 then .error ⟨cTileMalformed, sub, 0⟩ else .ok ()

/-! ### Templates (R361 to R364) -/

/-- A plane of a template as the entry's tag reads it, and its poison. -/
def State.tplPlane (s : State) (e : Ent) (k : Nat) (standby : Bool) : Nat :=
  let x := s.core (coreOf e.strand)
  ((Tbl.get zTpl (if standby then x.tplS else x.tplA) k).read (tagOf e.slot e.gen) 0).toNat
def State.tplBad (s : State) (e : Ent) (k : Nat) (standby : Bool) : Bool :=
  let x := s.core (coreOf e.strand)
  (Tbl.get zTpl (if standby then x.tplS else x.tplA) k).bad (tagOf e.slot e.gen)

/-- R364: place and width of a patched field. -/
def patchField (k : Nat) : Nat × Nat :=
  match k with
  | 0 => (0, 4)
  | 1 => (4, 4)
  | 2 => (8, 4)
  | 3 => (12, 3)
  | 4 => (15, 1)
  | 5 => (16, 1)
  | 6 => (17, 1)
  | 7 => (18, 6)
  | _ => (32, 16)
/-- Put `v` into bits [lo+len-1:lo]. -/
def setBits (x lo len v : Nat) : Nat := x - bits x lo len * 2 ^ lo + v * 2 ^ lo
/-- R364: the template that the instruction uses. -/
def patched (t : Nat) (p : Option (BitVec 32)) : Chk Nat :=
  match p with
  | none => .ok t
  | some v =>
    let f := patchField (bits v.toNat 16 4)
    let x := bits v.toNat 0 16
    if x ≥ 2 ^ f.2 then trapOf cOperand else .ok (setBits t f.1 f.2 x)

def tplA (t : Nat) : Nat := bits t 0 4
def tplB (t : Nat) : Nat := bits t 4 4
def tplO (t : Nat) : Nat := bits t 8 4
def tplOrm (t : Nat) : Nat := bits t 12 3
def tplKt (t : Nat) : Nat := bits t 18 6

/-- R362: the format classes. -/
def wideFmt (k : Nat) : Bool := decide (k ≤ 3)
def narrowFmt (k : Nat) : Bool := (decide (4 ≤ k) && decide (k ≤ 6)) || (decide (8 ≤ k) && decide (k ≤ 10))

/-- R363: what every use asks of a template's operand formats and its depth. -/
def tplPairs (t : Nat) : Bool :=
  (!(wideFmt (tplA t) && wideFmt (tplB t)) || tplA t == tplB t) &&
  !(wideFmt (tplA t) && narrowFmt (tplB t)) && !(narrowFmt (tplA t) && wideFmt (tplB t)) && tplKt t != 0

/-- R361, R363, R364: the checks of a template that every use makes. Log entry 38 (DEDUCED). -/
def State.tplUse (s : State) (e : Ent) (f : FX) : Chk Nat := do
  need (s.tplOk e.strand f.tpl.toNat) cOperand
  let t := s.tplPlane e f.tpl.toNat false
  need (bits t 24 8 == 0 && bits t 48 208 == 0) cEncoding
  let t ← patched t f.patch
  need (tplPairs t && decide (tplOrm t ≤ 4)) cOperand
  pure t

/-- R362. -/
def operandFmt (k : Nat) : Bool := decide (k ≤ 6) || (decide (8 ≤ k) && decide (k ≤ 10))
def outputFmt (k : Nat) : Bool := decide (k ≤ 7)
def fmtOf (k : Nat) : Fmt := match k with | 0 => fmt64 | 1 => fmt32 | 2 => fmt16 | 3 => fmtBf | 4 => fmtE4 | _ => fmtE5
/-- The magnitude width of a record format. -/
def fmtSx (k : Nat) : Option Nat := match k with | 8 => some 2 | 9 => some 4 | 10 => some 7 | _ => none

/-- R363: the formats of a multiplication. -/
def mmaFmts (t : Nat) : Bool := operandFmt (tplA t) && operandFmt (tplB t)

/-! ### Banks (R150 to R156) -/

def Bank.el (b : Bank) (n : Nat) : Nat := (Tbl.get (0 : BitVec 128) b.elems n).toNat
/-- The anchor as a number. -/
def Bank.anch (b : Bank) : Int := toI 16 b.anchor.toNat
/-- The elements as a table. -/
def bankElems (f : Nat → Nat) : Tbl (BitVec 128) :=
  (List.range 256).filterMap fun n => let v := BitVec.ofNat 128 (f n); if v = 0 then none else some (n, v)
def anchorBits (a : Int) : BitVec 16 := BitVec.ofNat 16 (ofI 16 a)
def anchorOk (a : Int) : Bool := decide (-32768 ≤ a) && decide (a ≤ 32767)

/-- A new value of every element, with whether OVF and INEXACT are raised. -/
abbrev ElemFn := Nat → Nat × Bool × Bool
def Bank.update (b : Bank) (f : ElemFn) : Bank :=
  let l := (List.range 256).map f
  { b with
    elems := bankElems fun n => (l.getD n (0, false, false)).1
    ovf := b.ovf || l.any (·.2.1)
    inexact := b.inexact || l.any (·.2.2) }

/-- R152: the NaN mark. -/
def nanMark : Nat := 2 ^ 127
/-- R154: saturation, with whether it changed the value. -/
def sat127 (v : Int) : Nat × Bool :=
  if v > 2 ^ 127 - 1 then (2 ^ 127 - 1, true) else if v < -(2 ^ 127 - 1) then (2 ^ 127 + 1, true) else (ofI 128 v, false)
/-- R151: an element takes a rounded binary128 value, with the flags of FPC's bits. -/
def rne128 (r : Nat × Nat) : Nat × Bool × Bool := (r.1, bit r.2 2, bit r.2 4)

/-- R151: one addition. -/
def accfAdd (x : Nat × Bool × Bool) (p : FVal) : Nat × Bool × Bool :=
  let r := rne128 (fmt128.add 0 (fmt128.decode x.1) p)
  (r.1, x.2.1 || r.2.1, x.2.2 || r.2.2)
def accf (c : Nat) (ps : List FVal) : Nat × Bool × Bool := ps.foldl accfAdd (c, false, false)

/-- R154. -/
def accx (anchor : Int) (x : Nat) (ps : List FVal) : Nat × Bool × Bool :=
  let pos := ps.any (· == .inf false)
  let neg := ps.any (· == .inf true)
  if x = nanMark ∨ ps.any (·.isNan) ∨ (pos ∧ neg) then (nanMark, false, false)
  else if pos then (2 ^ 127 - 1, true, false)
  else if neg then (2 ^ 127 + 1, true, false)
  else
    let terms := ps.map fun p => match p with
      | .num n m e => let r := roundAt 0 n m (e - (anchor - 40)) 0; ((if n then -(r.1 : Int) else (r.1 : Int)), r.2)
      | _ => (0, false)
    let r := sat127 (terms.foldl (fun a t => a + t.1) (toI 128 x))
    (r.1, r.2, terms.any (·.2))

/-- R155: the sign of H[k][j]. -/
def hadNeg (k j : Nat) : Bool := popc 4 (k &&& j) % 2 == 1

/-- R155, R370. -/
def Bank.had (b : Bank) : Chk Bank :=
  if b.x then
    if b.anch - 2 < -32768 then trapOf cOperand
    else
      let r := b.update fun n =>
        let row := (List.range 16).map fun k => b.el (16 * (n / 16) + k)
        if row.any (· == nanMark) then (nanMark, false, false)
        else
          let v := sat127 ((List.range 16).foldl (fun a k => a + (if hadNeg k (n % 16) then -1 else 1) * toI 128 (row.getD k 0)) (0 : Int))
          (v.1, v.2, false)
      .ok { r with anchor := anchorBits (b.anch - 2) }
  else .ok (b.update fun n =>
    let t := accf 0 ((List.range 16).map fun k =>
      let v := fmt128.decode (b.el (16 * (n / 16) + k))
      if hadNeg k (n % 16) then v.flip else v)
    let q := match fmt128.decode t.1 with
      | .num a m e => rne128 (fmt128.round 0 false a m (e - 2))
      | v => rne128 (fmt128.ofVal 0 v)
    (q.1, t.2.1 || q.2.1, t.2.2 || q.2.2))

/-- R371: MSCALE with MOD 0. -/
def Bank.scale (b : Bank) (k : Int) : Chk Bank :=
  if anchorOk k = false then trapOf cOperand
  else if b.x then if anchorOk (b.anch + k) = false then trapOf cOperand else .ok { b with anchor := anchorBits (b.anch + k) }
  else .ok (b.update fun n => match fmt128.decode (b.el n) with
    | .num a m e => rne128 (fmt128.round 0 false a m (e + k))
    | v => rne128 (fmt128.ofVal 0 v))

/-- R371: MSCALE.rebase. -/
def Bank.rebase (b : Bank) (k : Int) : Chk Bank :=
  if anchorOk k = false then trapOf cOperand
  else if b.x = false then trapOf cOperand
  else
    let sh := b.anch - k
    let r := b.update fun n =>
      let x := b.el n
      if x = nanMark then (x, false, false)
      else if sh ≥ 0 then let v := sat127 (toI 128 x * 2 ^ sh.toNat); (v.1, v.2, false)
      else
        let m := (toI 128 x).natAbs
        let v := roundAt 0 (decide (toI 128 x < 0)) m 0 (-sh)
        (ofI 128 (if toI 128 x < 0 then -(v.1 : Int) else v.1), false, v.2)
    .ok { r with anchor := anchorBits k }

/-- R372: the state word. -/
def Bank.word (b : Bank) : W64 :=
  BitVec.ofNat 64 (b.anchor.toNat + (if b.x then 2 ^ 16 else 0) + (if b.ovf then 2 ^ 17 else 0) + if b.inexact then 2 ^ 18 else 0)
/-- R373: a bank from raw elements and a state word. -/
def Bank.ofWord (v : Nat) (els : Tbl (BitVec 128)) : Bank :=
  { elems := els, anchor := BitVec.ofNat 16 v, x := bit v 16, ovf := bit v 17, inexact := bit v 18 }

/-- R156: the value of element `n`. -/
def Bank.value (b : Bank) (n : Nat) : FVal :=
  if b.x then
    if b.el n = nanMark then .nan false
    else .num (decide (toI 128 (b.el n) < 0)) (toI 128 (b.el n)).natAbs (b.anch - 40)
  else fmt128.decode (b.el n)

/-- R156, R374: a value times 2^d in output format `o`. -/
def drainTo (o orm : Nat) (nsat : Bool) (d : Int) (v : FVal) : Nat × Nat :=
  let v := match v with | .num a m e => .num a m (e + d) | v => v
  if o = 7 then toIntType 32 true orm v
  else if o = 6 then toIntType 8 true orm v
  else (fmtOf o).convert orm (decide (4 ≤ o) && !nsat) v

/-- The drained elements in order of position; with .t position (j, i) takes element (i, j). -/
def Bank.drain (b : Bank) (t : Nat) (trn : Bool) : List (Nat × Nat) :=
  (List.range 256).map fun n =>
    drainTo (tplO t) (tplOrm t) (bit t 15) (toI 16 (bits t 32 16)) (b.value (if trn then 16 * (n % 16) + n / 16 else n))

def flagsOf (l : List (Nat × Nat)) : Nat := l.foldl (fun f x => f ||| x.2) 0

/-! ### Reading a bank and the operands of a product -/

def State.bankOf (s : State) (e : Ent) (k : Nat) : Bank :=
  (Tbl.get zBank (s.core (coreOf e.strand)).banks k).read (tagOf e.slot e.gen) zBank0
def State.bankBad (s : State) (e : Ent) (k : Nat) : Bool :=
  (Tbl.get zBank (s.core (coreOf e.strand)).banks k).bad (tagOf e.slot e.gen)

/-- The descriptor of an operand in format `k`. -/
def inDesc (k : Nat) (v : W64) : Chk Desc := if (fmtSx k).isSome then recDesc v else descCheck v
/-- The slice offsets of tile `t` of an operand in format `k`. -/
def inAddrs (k : Nat) (d : Desc) (t : Nat) : List Nat :=
  match fmtSx k with
  | some w => recAddrs d t (recBytes w)
  | none => tileAddrs d t (fmtW k)
def inAlign (k : Nat) : Nat := if (fmtSx k).isSome then 32 else 16

/-- R148, R379: the subcode of a record operand. -/
def inBad (k : Nat) (l : List Byte) : Nat :=
  match fmtSx k with
  | some w => let r := TRec.ofBytes w l; if badFormat r.fmt (sxCode w) then 2 else r.bad w
  | none => 0

/-- Element (i, j) of a tile of format `k` with these bytes. -/
def inVal (k : Nat) (l : List Byte) : Nat → Nat → FVal :=
  match fmtSx k with
  | some w => let r := TRec.ofBytes w l; fun i j => r.val w i j
  | none =>
    let b := fmtW k / 8
    let x := ofLe l
    fun i j =>
      let v := bits x (8 * (b * (16 * i + j))) (8 * b)
      if k = 6 then .num (decide (toI 8 v < 0)) (toI 8 v).natAbs 0 else (fmtOf k).decode v

/-- R153: the low weight of an operand, by its tile 0. -/
def lowWeight (k : Nat) (l : List Byte) : Int :=
  match fmtSx k with
  | some w => (min (max (TRec.ofBytes w l).e 1) 254 : Nat) - 127 - (w - 1)
  | none => if k = 4 then -9 else if k = 5 then -16 else 0

/-- R367: the products of element (i, j). -/
def products (kt : Nat) (at_ bt : Bool) (a b : List (Nat → Nat → FVal)) (i j : Nat) : List FVal :=
  (List.range kt).flatMap fun t =>
    let x := a.getD t fun _ _ => .nan false
    let y := b.getD t fun _ _ => .nan false
    (List.range 16).map fun k => (if at_ then x k i else x i k).mul (if bt then y j k else y k j)

/-- MMA and MMAZ (R367, R368). Of several malformed records the first gives the subcode, A's before B's. Log entry 37 (DESIGN CHOICE). -/
def State.mmaStart (s : State) (e : Ent) (f : FX) (zero : Bool) : Chk (List Wr) := do
  need (s.accOk e.strand f.bank.toNat) cOperand
  let t ← s.tplUse e f
  need (mmaFmts t) cOperand
  let da ← inDesc (tplA t) e.a
  let db ← inDesc (tplB t) e.b
  let la := (List.range (tplKt t)).map (inAddrs (tplA t) da)
  let lb := (List.range (tplKt t)).map (inAddrs (tplB t) db)
  s.inSlice e da la.flatten
  s.inSlice e db lb.flatten
  alignedTo (inAlign (tplA t)) da
  alignedTo (inAlign (tplB t)) db
  e.clean (s.tplBad e f.tpl.toNat false || (!zero && s.bankBad e f.bank.toNat) || s.slicePoison e (la.flatten ++ lb.flatten))
  let ba := la.map (s.sliceBytes e)
  let bb := lb.map (s.sliceBytes e)
  wellTiled ((((ba.map (inBad (tplA t))) ++ bb.map (inBad (tplB t))).find? (· != 0)).getD 0)
  let x := !(wideFmt (tplA t))
  let b := if zero then
      { zBank0 with x := x, anchor := if x then
          anchorBits (lowWeight (tplA t) (ba.headD []) + lowWeight (tplB t) (bb.headD []) + 40) else 0 }
    else s.bankOf e f.bank.toNat
  need (b.x == x) cOperand
  let va := ba.map (inVal (tplA t))
  let vb := bb.map (inVal (tplB t))
  let ps (n : Nat) : List FVal := products (tplKt t) (bit t 16) (bit t 17) va vb (n / 16) (n % 16)
  pure [.bank f.bank.toNat (b.update fun n => if x then accx b.anch (b.el n) (ps n) else accf (b.el n) (ps n))]

/-- The cells of a written plain tile: bytes by position. -/
def tileCells (d : Desc) (w : Nat) (l : List Nat) : List Host.Cell := (tileAddrs d 0 w).zip (l.flatMap (leBytes (w / 8)))

/-- MDRAIN (R374). -/
def State.drainStart (s : State) (e : Ent) (f : FX) : Chk (List Wr) := do
  need (s.accOk e.strand f.bank.toNat) cOperand
  let t ← s.tplUse e f
  need (outputFmt (tplO t)) cOperand
  let w := fmtW (tplO t)
  let d ← outDesc e.a w
  s.inSlice e d (tileAddrs d 0 w)
  alignedTo 16 d
  e.clean (s.tplBad e f.tpl.toNat false || s.bankBad e f.bank.toNat)
  let l := (s.bankOf e f.bank.toNat).drain t (f.m == 1)
  pure [.slice (tileCells d w (l.map (·.1))), .flags (flagsOf l)]

/-- MDRAINV (R374). Log entry 34 (DEDUCED). -/
def State.drainVecStart (s : State) (e : Ent) (f : FX) : Chk (List Wr) := do
  need (s.accOk e.strand f.bank.toNat) cOperand
  let t ← s.tplUse e f
  need (outputFmt (tplO t)) cOperand
  let w := fmtW (tplO t)
  need (decide (e.a.toNat + w / 8 ≤ resVreg (s.resOf e.strand) * 8)) cOperand
  e.clean (s.tplBad e f.tpl.toNat false || s.bankBad e f.bank.toNat)
  let l := (s.bankOf e f.bank.toNat).drain t (f.m == 1)
  let x := ofLe (l.flatMap fun v => leBytes (w / 8) v.1)
  pure (((List.range (w / 8)).map fun k =>
    Wr.vreg (s.vregIx e.strand (e.a.toNat + k)) (BitVec.allOnes 2048) (BitVec.ofNat 2048 (x / 2 ^ (2048 * k))) true) ++ [.flags (flagsOf l)])

/-- MSTACC (R373). -/
def State.stAccStart (s : State) (e : Ent) (f : FX) : Chk (List Wr) := do
  need (s.accOk e.strand f.bank.toNat) cOperand
  let d ← outDesc e.a 128
  s.inSlice e d (tileAddrs d 0 128)
  alignedTo 16 d
  e.clean (s.bankBad e f.bank.toNat)
  let b := s.bankOf e f.bank.toNat
  pure [.slice (tileCells d 128 ((List.range 256).map b.el)), .scalar f.sb.toNat b.word]

/-- MLDACC (R373). -/
def State.ldAccStart (s : State) (e : Ent) (f : FX) : Chk (List Wr) := do
  need (s.accOk e.strand f.bank.toNat) cOperand
  need (bits e.b.toNat 19 45 == 0) cOperand
  let d ← descCheck e.a
  let l := tileAddrs d 0 128
  s.inSlice e d l
  alignedTo 16 d
  e.clean (s.slicePoison e l)
  let x := ofLe (s.sliceBytes e l)
  pure [.bank f.bank.toNat (.ofWord e.b.toNat (bankElems fun n => x / 2 ^ (128 * n)))]

/-- R366: a slice-offset operand. -/
def State.sliceOffset (s : State) (e : Ent) (n : Nat) : Chk (List Nat) := do
  let o := e.a.toNat
  need (decide (o < 2 ^ 21)) cBound
  let l := (List.range n).map (o + ·)
  s.inSlice e ⟨0, 0, 0, o⟩ l
  need (o % n == 0) cMisaligned
  pure l

/-- MTPL.LD (R375). -/
def State.tplLdStart (s : State) (e : Ent) (f : FX) : Chk (List Wr) := do
  need (s.tplOk e.strand f.tpl.toNat) cOperand
  let l ← s.sliceOffset e 32
  e.clean (s.slicePoison e l)
  pure [.tplStandby f.tpl.toNat (BitVec.ofNat 256 (ofLe (s.sliceBytes e l)))]

/-- MTPL.DIFF (R377). -/
def State.tplDiffStart (s : State) (e : Ent) (f : FX) : Chk (List Wr) := do
  need (s.tplOk e.strand f.tpl.toNat) cOperand
  let l ← s.sliceOffset e 64
  e.clean (s.slicePoison e l || s.tplBad e f.tpl.toNat false)
  let b := s.sliceBytes e l
  let v := s.tplPlane e f.tpl.toNat false ^^^ ofLe (slice b 0 32)
  pure (if ofLe (slice b 32 4) = crc32c (leBytes 32 v) ∧ ofLe (slice b 36 28) = 0 then
      [.tplStandby f.tpl.toNat (BitVec.ofNat 256 v), .scalar f.sb.toNat 0]
    else [.scalar f.sb.toNat (cTemplateCheck.setWidth 64)])

/-- MTPL.SWAP (R376). -/
def State.tplSwapStart (s : State) (e : Ent) (f : FX) : Chk (List Wr) := do
  need (f.m == 1 || s.tplOk e.strand f.tpl.toNat) cOperand
  let r := resTpl (s.resOf e.strand)
  let l := if f.m = 1 then (List.range r.2).map (r.1 + ·) else [f.tpl.toNat]
  e.clean (l.any fun k => s.tplBad e k false || s.tplBad e k true)
  pure (l.flatMap fun k =>
    [.tplActive k (BitVec.ofNat 256 (s.tplPlane e k true)), .tplStandby k (BitVec.ofNat 256 (s.tplPlane e k false))])

/-- R361: word `k` of a plane as it reads: its RZ fields read zero. -/
def tplWord (t k : Nat) : W64 := if k = 0 then BitVec.ofNat 64 t &&& 0xFFFF00FFFFFF else 0
/-- MTPL.RD (R378). Log entry 88 (DEDUCED). -/
def State.tplRdStart (s : State) (e : Ent) (f : FX) : Chk (List Wr) := do
  need (s.tplOk e.strand f.tpl.toNat) cOperand
  need (decide (e.a.toNat < 8)) cOperand
  e.clean (s.tplBad e f.tpl.toNat (bit e.a.toNat 2))
  pure [.scalar f.sb.toNat (tplWord (s.tplPlane e f.tpl.toNat (bit e.a.toNat 2)) (e.a.toNat % 4))]

/-- The instructions that change a bank as a whole: MZERO (R369), MHAD (R370), MSCALE (R371). `reads` if the old bank counts, `fit` the
operand's own range; what the bank's contents forbid comes after their poison. Log entry 37 (DESIGN CHOICE). -/
def State.bankStart (s : State) (e : Ent) (f : FX) (reads fit : Bool) (g : Bank → Chk Bank) : Chk (List Wr) := do
  need (s.accOk e.strand f.bank.toNat) cOperand
  need fit cOperand
  e.clean (reads && s.bankBad e f.bank.toNat)
  let b ← g (s.bankOf e f.bank.toNat)
  pure [.bank f.bank.toNat b]

/-- MSTAT (R372). Log entry 88 (DEDUCED). -/
def State.statStart (s : State) (e : Ent) (f : FX) : Chk (List Wr) := do
  need (s.accOk e.strand f.bank.toNat) cOperand
  e.clean (s.bankBad e f.bank.toNat)
  let b := s.bankOf e f.bank.toNat
  pure (.scalar f.sb.toNat b.word :: if f.m = 1 then [.bank f.bank.toNat { b with ovf := false, inexact := false }] else [])

end Sys2Proof.Machine
end

