-- ==== Sys2Proof/Machine/Preempt.lean ====
section
/-! DEFINITION. Pre-emption (R212, R213, R230, R231, R247 to R252, R387): the request and each core's choice, safe points, the save of a
group in its frames, its restore, the watchdog. -/
namespace Sys2Proof.Machine

/-! ### The estimates and the choice (R248, R249) -/

/-- The strands of a group on a core, in order; the number of its core `c` in the group's order. -/
def Group.on (g : Group) (c : Nat) : List Nat := g.strands.filter (coreOf · == c)
def Group.coreIx (g : Group) (c : Nat) : Nat := g.cores.findIdx (· == c)

/-- The kind of pre-emption that a core chose; a late drain is a drain. -/
def Group.kind (g : Group) (c : Nat) : Nat := if Tbl.get 0 g.choice c = 4 then 1 else Tbl.get 0 g.choice c

/-- The copy commands of a group on a core. -/
def State.copiesOn (s : State) (gid c : Nat) : List Copy := (s.core c).cq.filter (·.gid == gid)

/-- R251: where in a frame a kind (1 drain, 2 save, 3 discard) writes: offsets and lengths, for `m` strands and `q` copy commands. -/
def Group.ranges (g : Group) (kind m q : Nat) : List (Nat × Nat) :=
  let w := g.w 2
  [(0, 256), (0x100, 0x400 * m), (0x1100 + 32 * (resPeg w).1, 32 * (resPeg w).2), (0x3100 + 64 * (resBob w).1, 64 * (resBob w).2),
    (0x3900 + 64 * (resTpl w).1, 64 * (resTpl w).2)] ++
  (if kind = 3 then [] else [(0x30000, 0x400 * q)]) ++
  (if kind = 2 then
    [(0x10000 + 0x1000 * (resAcc w).1, 0x1000 * (resAcc w).2), (0x18000 + 8 * (resAcc w).1, 8 * (resAcc w).2),
      (0x20000, 2048 * resVreg w * m), (0x80000, (spadRange (g.w 3)).2)]
  else [])

/-- R215, R248: D, with none for infinity. -/
def State.drainIn (s : State) (g : Group) (c : Nat) : Option Nat :=
  (g.on c).foldl (fun d n =>
    let x := s.strand n
    let own : Option Nat :=
      if x.atRest then some 0
      else if (s.getCtl n nLPH) = 2 ∧ x.task.isNone then x.iterLen.map fun l => l - (s.cycle - x.spCycle)
      else none
    match d, own with
    | some a, some b => some (max a b)
    | _, _ => none) (some 0)

/-- R248: S. -/
def State.saveCost (s : State) (gid : Nat) (g : Group) (c : Nat) : Nat :=
  let b := (g.ranges 2 (g.on c).length (s.copiesOn gid c).length).foldl (fun a r => a + r.2) 0
  300 + (b + 127) / 128

/-- R213: whether a discard is permitted. -/
def State.discardOk (s : State) (g : Group) : Bool :=
  pktRecomp g.pkt && g.strands.all fun n => (match (s.strand n).st with | .running => false | .blocked => false | _ => true) || s.getCtl n nRLBL != 0

/-- R248: C, with none for infinity. -/
def State.discardCost (s : State) (g : Group) (c : Nat) : Option Nat :=
  if s.discardOk g then some (maxL ((g.on c).map fun n => (s.getCtl n nRCOST).toNat)) else none

/-- R250: the lowest run of `n` free frames of a slot. -/
def State.frameRun (s : State) (slot n : Nat) : Option Nat :=
  let x := s.ctxOf slot
  firstBelow (x.saveFrames.toNat + 1 - n) fun f => (List.range n).all fun i => (find x.frames (f + i)).isNone

/-- Whether a strand is stalled in a FENCE, or in a PUB or a GEN.ADV that it has not begun. -/
def State.inFence (s : State) (n : Nat) : Bool :=
  let x := s.strand n
  x.st == .blocked && !x.atSafe && x.stall == 0 && (match s.fetch n with
    | .instr (.fence _) => true
    | .instr (.pub _) => true
    | .instr (.genAdv _) => true
    | _ => false)

/-- R249: save_ok. Log entry 74 (DEDUCED). -/
def State.saveOk (s : State) (g : Group) : Bool :=
  (s.frameRun g.slot g.cores.length).isSome && g.strands.all fun n =>
    let x := s.strand n
    x.task.isNone && x.stall != 2 && x.stall != 3 && !(s.inFence n)

/-- R230: dl. Log entry 12 (DESIGN CHOICE). -/
def State.preemptDl (s : State) (slot : Nat) : Nat := (s.ctxOf slot).preemptDl.toNat * 3000

/-- R249: the choice of core `c`: 0 none, 1 drain, 2 save, 3 discard; none while a strand of the group is stalled in GEN.ADV (R120). -/
def State.choose (s : State) (gid : Nat) (g : Group) (c : Nat) : Nat :=
  let cost := s.discardCost g c
  if g.strands.any fun n => (s.strand n).stall == 3 then 0
  else if (match s.drainIn g c with | some d => decide (d ≤ s.preemptDl g.slot) | none => false) then 1
  else if s.saveOk g && (match cost with | some k => decide (2 * s.saveCost gid g c ≤ k) | none => true) then 2
  else if cost.isSome then 3
  else if s.saveOk g then 2
  else 0

/-- A choice takes effect: a save and a discard stop the core's strands where they are; a discard drops their commands, and
leaves a task that one of them ran RUNNING. Log entry 126 (DESIGN CHOICE). -/
def State.takeChoice (s : State) (gid : Nat) (g : Group) (c k : Nat) : State :=
  let s := s.mapGroup gid fun g => { g with choice := Tbl.put 0 g.choice c k }
  if k < 2 then s
  else
    let mine := g.on c
    let s := mine.foldl (fun s n => s.mapStrand n fun x => match x.st with
      | .running => { x with st := .blocked, atSafe := true, stall := 5, yieldUntil := 0 }
      | .blocked => { x with atSafe := true, stall := 0, yieldUntil := 0 }
      | _ => x) s
    let drop (q : Copy) : Bool := q.gid == gid && !q.accepted && !q.tok
    let s := s.mapCore c fun x => { x with
      waiters := x.waiters.filter fun w => match w.who with
        | some n => !(mine.contains n)
        | none => w.kind == 8 || !(x.cq.any fun q => q.seq == w.d && drop q)
      cq := x.cq.filter fun q => !(drop q) }
    if k = 2 then s
    else
      let s := s.leaveRecs c (·.gid == gid)
      let s := { s with flight := s.flight.filter fun a => !(mine.contains a.strand && (a.isSwait || (match a.why with | .vec _ => true | .flush => true | _ => false))) }
      let s := allDies.foldl (fun s d => s.mapDie d fun x => { x with syncWaits := x.syncWaits.filter fun w => !(mine.contains w.strand) }) s
      let s := mine.foldl (fun s n => s.mapStrand n fun x => { x with swait := false, pend := [] }) s
      s.mapCore c fun x => { x with
        mq := x.mq.filter fun e => e.gid != gid || e.started.isSome
        vq := x.vq.filter fun e => e.gid != gid || e.started.isSome
        waiters := x.waiters.filter fun w => !(w.who.isNone && w.kind == 8 && x.mq[x.mqNext]?.any (·.gid == gid))
        cq := (x.cq.filter fun q => q.gid != gid || q.begun).map fun q =>
          if q.gid = gid then { q with ended := true, quiet := true, open_ := q.open_.filter (!·.held) } else q }

/-- A core chooses now. Log entry 74 (DEDUCED). -/
def State.chooseNow (s : State) (gid c : Nat) : State :=
  match s.group gid with
  | none => s
  | some g => s.takeChoice gid g c (s.choose gid g c)

/-! ### The request (R230) -/

/-- The entries from which core `c` can be given work. Log entry 73 (DEDUCED). -/
def State.within (s : State) (c : Nat) : List QEnt :=
  let d := s.die (dieOfCore c)
  ((s.core c).queue ++ (Tbl.get Bay.init d.bays (bayOfCore c % 6)).queue ++ d.queue ++ (if dieOfCore c = 0 then [] else (s.die 0).queue.filter (·.level == 4))).filter
    fun e => s.unitIn e.slot e.level (c / levelCores e.level) && !(s.spent e)

/-- R230: whether a core asks for the pre-emption of a group. Log entry 69 (DEDUCED). -/
def State.wantsOut (s : State) (g : Group) (c : Nat) : Bool :=
  (s.within c).any fun e => decide (e.prio > g.prio) ||
    (e.prio == g.prio && e.slot != g.slot && decide (Tbl.get 0 (s.core c).deficit (defKey g.slot g.prio) ≤ 0))

/-- PREEMPT_REQUEST (R230, R231, R248, R249): every core of the group chooses; of a group already asked, the cores without a choice
choose again when a save has become possible. While a strand is in DEBUG the request waits (R257). -/
def execPreemptRequest (gid : Nat) (s : State) : Out :=
  .next (match s.group gid with
    | none => s
    | some g =>
      if g.st ≠ .running ∨ g.fail.isSome ∨ pktKind g.pkt = 2 ∨ g.dbgSince.isSome then s
      else
        let s := g.cores.foldl (fun s c => s.charge c) s
        if g.pre.isSome then
          (if s.saveOk g then (g.cores.filter fun c => Tbl.get 0 g.choice c == 0).foldl (fun s c => s.chooseNow gid c) s else s)
        else if g.cores.any (s.wantsOut g) then
          g.cores.foldl (fun s c => s.chooseNow gid c) (s.mapGroup gid fun g => { g with pre := some s.cycle, choice := [] })
        else s)

/-! ### Safe points and the deadline (R212, R249) -/

/-- SAFE_POINT_ARRIVAL (R212, R249): a strand at a safe point is held there in a drain; a core without a choice chooses again. While a
strand of the group is in DEBUG the request waits (R257). -/
def execSafePointArrival (strand : Nat) (s : State) : Out :=
  .next (match (s.strand strand).grp, s.groupOf strand with
    | some gid, some g =>
      let x := s.strand strand
      let c := coreOf strand
      let idle := match x.st with | .halted => true | .taskwait => true | _ => false
      let hold (s : State) : State := s.mapStrand strand fun x => { x with st := .blocked, atSafe := true }
      let free (s : State) : State := s.mapStrand strand fun x => { x with atSafe := false }
      if (x.st ≠ .running ∧ idle = false) ∨ (x.atSafe = false ∧ x.fresh = false) then s
      else if g.pre.isNone ∨ g.dbgSince.isSome then free s
      else if idle then (if Tbl.get 0 g.choice c = 0 then (free s).chooseNow gid c else free s)
      else match Tbl.get 0 g.choice c with
        | 0 =>
          if x.atSafe = false then s
          else match s.choose gid g c with
            | 0 => free s
            | 1 => hold (s.takeChoice gid g c 1)
            | k => s.takeChoice gid g c k
        | 1 => hold s
        | 4 => hold s
        | _ => s
    | _, _ => s)

/-- PREEMPT_DEADLINE_EXPIRY (R249): a drain that is late becomes a save, if one is possible then, and else goes on (choice 4). -/
def execPreemptDeadlineExpiry (gid core : Nat) (s : State) : Out :=
  .next (match s.group gid with
    | none => s
    | some g => match g.pre with
      | none => s
      | some t =>
        if g.st ≠ .running ∨ g.fail.isSome ∨ g.dbgSince.isSome ∨ Tbl.get 0 g.choice core ≠ 1 ∨ s.cycle < t + s.preemptDl g.slot ∨
            (g.on core).all (fun n => (s.strand n).atRest) then s
        else if s.saveOk g then s.takeChoice gid g core 2
        else s.mapGroup gid fun g => { g with choice := Tbl.put 0 g.choice core 4 })

/-! ### The frame (R251) -/

def le8 (v : W64) : List Byte := leBytes 8 v.toNat
def zeros (n : Nat) : List Byte := List.replicate n 0

/-- R251: the STATE byte of a strand record. -/
def saveCode (x : SState) (stall : Nat) : Nat :=
  if stall = 5 then 0 else match x with
  | .running => 0
  | .blocked => 1
  | .parked => 2
  | .halted => 3
  | .taskwait => 4
  | .free => 3

/-- R251: a strand record. Log entry 70 (DEDUCED). -/
def Strand.save (x : Strand) (t : Tag) (kind : Nat) : List Byte :=
  let r (k : Nat) : W64 := x.ctlReg t k
  let st := x.staged.getD ⟨0, 0, 0, 0, 0, 0⟩
  le8 (if kind = 3 then r nRLBL else x.getPc t) ++ le8 (if kind = 3 then x.spIter else r nITER) ++ le8 (r nRLBL) ++ le8 (r nRCOST) ++ le8 (r nFPC) ++
    [BitVec.ofNat 8 (saveCode x.st x.stall), (if kind = 3 then x.spLph else r nLPH).setWidth 8] ++ zeros 6 ++
    (List.range 7).flatMap (fun i => le8 (x.p t (i + 1))) ++ zeros 8 ++
    (List.range 63).flatMap (fun i => if kind = 2 ∨ i < 15 then le8 (x.s t (i + 1)) else zeros 8) ++ le8 (r nLC) ++
    leBytes 8 (st.table % 2 ^ 12 + st.entry % 2 ^ 32 * 2 ^ 16 + st.mask % 8 * 2 ^ 48) ++ le8 st.w0 ++ le8 st.w1 ++ le8 st.w2 ++ zeros 368

def Peg.save (p : Peg) : List Byte := le8 p.posted ++ le8 p.taken ++ [p.latch] ++ zeros 15
/-- R251: the slot size is in bytes. Log entry 70 (DEDUCED). -/
def Bob.save (b : Bob) : List Byte :=
  leBytes 4 b.base.toNat ++ leBytes 4 (64 * b.size.toNat) ++ leBytes 2 b.count.toNat ++ [b.latch] ++ zeros 5 ++ le8 b.claimed ++ le8 b.filled ++ le8 b.freed ++
    zeros 24

/-- R247, R251: a copy record: the specification, the word, BOX_LO, the held boxes with their masks, the completed-box bitmap. Log entry 70 (DEDUCED). -/
def Copy.save (k : Copy) : List Byte :=
  let held := k.open_.take 8
  ((List.range 8).flatMap fun i => le8 (k.cs.getD i 0)) ++ le8 ((encodeWord k.ins).getD 0) ++ le8 (BitVec.ofNat 64 k.boxLo) ++
    (held.flatMap fun b => leBytes 4 b.num ++ [1] ++ zeros 3 ++ le8 b.doneMask) ++ zeros (16 * (8 - held.length)) ++
    leBytes 512 (k.doneBoxes.foldl (fun v e => v + 2 ^ (e.1 - k.boxLo)) 0) ++ zeros 304

/-- R251: the header of the frame of core `c`. Log entry 70 (DEDUCED). -/
def State.frameHead (s : State) (gid : Nat) (g : Group) (kind c : Nat) : List Byte :=
  [1, 0, BitVec.ofNat 8 kind, BitVec.ofNat 8 g.level, BitVec.ofNat 8 g.slot, BitVec.ofNat 8 (g.coreIx c)] ++ leBytes 2 g.gen ++ leBytes 4 g.ref.toNat ++
    leBytes 4 g.idx ++ le8 s.ref ++
    [BitVec.ofNat 8 (if kind = 3 then 0 else (s.copiesOn gid c).length),
      BitVec.ofNat 8 (2 ^ (g.on c).length - 1)] ++ zeros 6 ++ le8 (g.w 2) ++ le8 (g.w 3) ++ zeros 208

/-- The numbers of a range. -/
def numbers (r : Nat × Nat) : List Nat := (List.range r.2).map (r.1 + ·)

/-- R251: the bytes of every part of the frame of core `c`, in the order of `Group.ranges`. Strand k of the frame is the k-th of the group's
strands on the core: the one strand of a level-0 group is strand 0 in its record, its vector registers and byte 25. Log entry 115 (DESIGN CHOICE). -/
def State.frameParts (s : State) (gid : Nat) (g : Group) (kind c : Nat) : List (List Byte) :=
  let t := tagOf g.slot g.gen
  let x := s.core c
  let w := g.w 2
  let spad := spadRange (g.w 3)
  [s.frameHead gid g kind c, (g.on c).flatMap fun n => (s.strand n).save t kind, (numbers (resPeg w)).flatMap fun i => (x.peg t i).save,
    (numbers (resBob w)).flatMap fun i => (x.bob t i).save,
    (numbers (resTpl w)).flatMap fun i => leBytes 32 ((Tbl.get zTpl x.tplA i).read t 0).toNat ++ leBytes 32 ((Tbl.get zTpl x.tplS i).read t 0).toNat] ++
  (if kind = 3 then [] else [(s.copiesOn gid c).flatMap Copy.save]) ++
  (if kind = 2 then
    [(numbers (resAcc w)).flatMap fun b => (List.range 256).flatMap fun n => leBytes 16 (((Tbl.get zBank x.banks b).read t zBank0).el n),
      (numbers (resAcc w)).flatMap fun b => le8 ((Tbl.get zBank x.banks b).read t zBank0).word,
      (g.on c).flatMap fun n => (List.range (8 * resVreg w)).flatMap fun r => leBytes 256 ((Tbl.get zVReg x.vregs (Tbl.get 0 g.vbase n + r)).read t 0).toNat,
      s.ground.read false t (sliceAt c spad.1) spad.2]
  else [])

/-! ### The save (R247, R250, R387) -/

/-- Whether a command stands where a save may take it: every access performed or held on a fault record. Log entry 41 (DEDUCED). -/
def State.copyStill (s : State) (c : Nat) (k : Copy) : Bool :=
  k.accepted && (k.op != 0xB2 || k.bound || k.ended) && (k.op != 0xAD || !k.sent || k.bound) && k.open_.all fun b =>
    (List.range b.pieces.length).all fun i => b.isDone i || s.onRecord (c, k.seq, b.num, i)

/-- Whether core `c` has finished its part of the pre-emption (R249, R387). -/
def State.coreDone (s : State) (gid : Nat) (g : Group) (c : Nat) : Bool :=
  let kind := g.kind c
  let x := s.core c
  kind != 0 &&
  ((g.on c).all fun n =>
    let y := s.strand n
    !y.dbg && y.pend.isEmpty && (y.atSafe || (match y.st with | .halted => true | .parked => true | .taskwait => true | _ => false)) &&
      !(s.flight.any fun a => a.strand == n && !(match a.why with | .piece _ _ _ _ => true | _ => false))) &&
  !((x.mq ++ x.vq).any (·.gid == gid)) &&
  (if kind = 3 then (s.copiesOn gid c).isEmpty else (s.copiesOn gid c).all (s.copyStill c))

def frameBytes : Nat := 0x200000

/-- R250: whether the heap holds `n` frames from `f`. -/
def State.framesIn (s : State) (c slot f n : Nat) : Bool :=
  decide ((s.ctxOf slot).saveBase.toNat + frameBytes * (f + n) ≤ (s.heapTriple c slot).2.1)

/-- R250: the device-physical address of frame `f`. -/
def State.frameAt (s : State) (c slot f : Nat) : Nat := (s.heapTriple c slot).2.2 + (s.ctxOf slot).saveBase.toNat + frameBytes * f

/-- R82: whether a frozen die holds part of frame `f` of core `c`. -/
def State.frameFrozen (s : State) (c slot f : Nat) : Bool :=
  s.placeFrozen (.hbm (s.frameAt c slot f)) || s.placeFrozen (.hbm (s.frameAt c slot f + (frameBytes - 1)))

/-- R250, R254: a save or restore that fails ends the group with containment of its cores; a frame at a frozen die fails it with CONTAINED.
Log entries 27 (DEDUCED), 73 (DEDUCED). -/
def State.frameFail (s : State) (gid : Nat) (g : Group) (code : Code) : State :=
  let s := g.cores.foldl (fun s c => s.sealCore c) s
  g.cores.foldl (fun s c => s.contain c fun k => if k = gid then s.plainRec code 9 (g.cores.headD 0) else s.plainRec cContained 1 c) s

/-- R112, R213: the allotted banks of core `c` take the zero state. -/
def State.zeroBanks (s : State) (g : Group) (c : Nat) : State :=
  s.mapCore c fun x => { x with banks := (numbers (resAcc (g.w 2))).foldl Tbl.del x.banks }

/-- What a save takes out of core `c`, which translates its frame (R18) and writes it as its group's (R122); R46 covers no save frame. Log entry 53 (DEDUCED). -/
def State.saveCore (s : State) (gid : Nat) (g : Group) (f c : Nat) : State :=
  let kind := g.kind c
  let base := s.frameAt c g.slot (f + g.coreIx c)
  let rs := g.ranges kind (g.on c).length (s.copiesOn gid c).length
  let mine := (s.copiesOn gid c).map fun k => { k with strand := g.strands.findIdx (· == k.strand) }
  let s := ((rs.map (·.1)).zip (s.frameParts gid g kind c)).foldl (fun s r => s.coreStore c g.slot g.gen none [] (base + r.1) r.2) s
  let s := (s.leaveRecs c (·.gid == gid)).mapCore c fun x => { x with cq := x.cq.filter (·.gid != gid) }
  let s := s.mapGroup gid fun y => { y with copies := y.copies ++ mine }
  if kind = 3 then s.zeroBanks g c else s

/-- SAVE_COMPLETE (R200, R247, R250, R251, R387): the group takes its frames now. Log entries 74 (DEDUCED), 127 (DESIGN CHOICE). -/
def execSaveComplete (gid : Nat) (s : State) : Out :=
  .next (match s.group gid with
    | none => s
    | some g =>
      let n := g.cores.length
      if g.pre.isNone ∨ g.st ≠ .running ∨ g.fail.isSome ∨ ¬(g.cores.all (s.coreDone gid g)) then s
      else match s.frameRun g.slot n with
        | none => s
        | some f =>
          if g.cores.any fun c => !(s.framesIn c g.slot f n) then s.frameFail gid g cBound
          else if g.cores.any fun c => s.frameFrozen c g.slot (f + g.coreIx c) then s.frameFail gid g cContained
          else
            let q : QEnt :=
              { slot := g.slot, gen := g.gen, prio := g.prio, level := g.level, order := (s.storeEnt g.ref).order, ref := g.ref, resumed := some gid, num := 0 }
            let d := queueDie g.ref g.level
            match s.enqueue d q with
            | none => s
            | some s =>
              let s := g.cores.foldl (fun s c => (s.charge c).settleDie (dieOfCore c)) s
              let s := g.cores.foldl (fun s c => s.saveCore gid g f c) s
              let s := g.strands.foldl (fun s m => s.freeStrand m) s
              let s := s.mapGroup gid fun x => { x with
                st := .saved
                pre := none
                choice := (g.cores.map fun c => (g.coreIx c, g.kind c))
                frame0 := some f }
              s.mapCtx g.slot fun x => { x with frames := (List.range n).foldl (fun t i => Tbl.ins t (f + i) gid) x.frames })

/-! ### The restore (R250, R251) -/

/-- The number in `n` bytes of a record from `a`. -/
def field (r : List Byte) (a n : Nat) : Nat := ofLe (slice r a n)
def word (r : List Byte) (a : Nat) : W64 := BitVec.ofNat 64 (field r a 8)

/-- R5, R135: FPC from a record: its RZ fields read zero; `rm` stands for a rounding mode that R134 does not code. Log entry 72 (DEDUCED). -/
def fpcOf (v : W64) (rm : Nat) : W64 := BitVec.ofNat 64 (bits v.toNat 0 5 + (if fpcRmOk v then fpcRm v else rm) * 256)

/-- R250, R251: a strand takes its record; a waiting one issues its instruction again. Log entry 72 (DEDUCED). -/
def Strand.load (x : Strand) (t : Tag) (kind cycle rm : Nat) (r : List Byte) : Strand :=
  let reg (a : Nat) : Tagged W64 := Tagged.whole t (word r a)
  let code := field r 40 1
  let m := field r 624 8
  let lph := BitVec.ofNat 64 (field r 41 1)
  { x with
    st := if code = 2 then .parked else if code = 3 then .halted else if code = 4 then .taskwait else .running
    pc := reg 0
    sregs := (List.range 63).map fun i => (i + 1, reg (112 + 8 * i))
    pregs := (List.range 7).map fun i => (i + 1, reg (48 + 8 * i))
    ctl := [(nFPC, Tagged.whole t (fpcOf (word r 32) rm)), (nLC, reg 616), (nLPH, Tagged.whole t lph), (nITER, reg 8), (nRLBL, reg 16), (nRCOST, reg 24)]
    staged := if bits m 48 3 = 0 then none else some ⟨bits m 0 12, bits m 16 32, bits m 48 3, word r 632, word r 640, word r 648⟩
    pend := [], yieldUntil := 0, task := none, swait := false, stall := 0, atSafe := false, spLph := lph, spIter := word r 8, spCycle := cycle
    iterLen := none, fresh := kind == 1, peerLost := false }

def Peg.load (r : List Byte) : Peg := ⟨word r 0, word r 8, BitVec.ofNat 8 (field r 16 1)⟩
def Bob.load (r : List Byte) : Bob :=
  { base := BitVec.ofNat 24 (field r 0 4), size := BitVec.ofNat 16 (field r 4 4 / 64), count := BitVec.ofNat 16 (field r 8 2),
    latch := BitVec.ofNat 8 (field r 10 1), claimed := word r 16, filled := word r 24, freed := word r 32 }

/-- R251: the held boxes of a copy record: number and mask of every valid entry, each number once. -/
def heldIn (r : List Byte) : List (Nat × W64) :=
  (List.range 8).foldl (fun l i =>
    let b := field r (80 + 16 * i) 4
    if field r (84 + 16 * i) 1 = 1 ∧ l.all (·.1 != b) then l ++ [(b, word r (88 + 16 * i))] else l) []

/-- R247, R251: a command from its record: opcode and modifiers of the word, class, target and generation of the device's own copy; its
boxes are opened by `State.reopen`. Log entry 70 (DEDUCED). -/
def Copy.load (k : Copy) (seq strand : Nat) (r : List Byte) : Copy :=
  let lo := field r 72 8
  let k := { k with seq := seq, strand := strand, cs := (List.range 8).map fun i => word r (8 * i), boxLo := lo, stamp := 0 }
  let done := field r 208 512
  let top := (heldIn r).foldl (fun m b => max m (b.1 + 1)) (if done = 0 then lo else lo + Nat.log2 done + 1)
  let k := { k with
    next := top
    doneBoxes := (List.range 4096).filterMap fun i => if bit done i then some (lo + i, true) else none }
  match decode (word r 64) 0, k.ins.form with
  | .ok i, .c _ own => match i.form with
    | .c op f => match ofC op { f with cls := own.cls, post := own.post, inc := own.inc, ct := own.ct, pr := own.pr, spec := own.spec, wait := own.wait } with
      | some j => { k with ins := j }
      | none => { k with ended := true, code := cOpcode }
    | _ => { k with ended := true, code := cOpcode }
  | .error e, _ => { k with ended := true, code := e }
  | _, _ => k

/-- R247: the held boxes of a record open again, each with the accesses missing from its mask; a box that the device no longer has is
cut anew. -/
def State.reopen (s : State) (c : Nat) (k : Copy) (r : List Byte) : Copy :=
  let old := k.open_
  let l : List Sys2Proof.Machine.Box := (heldIn r).map fun h => match old.find? (·.num == h.1) with
    | some b => { b with doneMask := h.2, held := true }
    | none => { num := h.1, pieces := (s.boxPieces c k h.1).1, doneMask := h.2, held := true, buf := [], twin := none, bad := false, tagSide := 0 }
  l.foldl (fun k b => if b.allDone then k.close b else k) { k with open_ := l }

/-- The parts of a frame that core `c` reads back. -/
def State.readParts (s : State) (c slot gen base : Nat) (rs : List (Nat × Nat)) : List (List Byte) :=
  rs.map fun r => s.coreBytes c slot gen [] (.hbm (base + r.1)) r.2

/-- Piece `i` of `w` bytes. -/
def nth (l : List Byte) (w i : Nat) : List Byte := slice l (w * i) w

/-- R251: core `c` of a resumed group takes its frame: pegs, bobbins, templates; banks, vector registers and slice from a save, or
the zero state, unless the slice's die has cut for it (R122). Log entries 70 (DEDUCED), 72 (DEDUCED). -/
def State.loadCore (s : State) (g : Group) (c kind : Nat) (p : List (List Byte)) : State :=
  let t := tagOf g.slot g.gen
  let w := g.w 2
  let spad := spadRange (g.w 3)
  let part (i : Nat) : List Byte := p.getD i []
  let put {α : Type} (r : Nat × Nat) (old : Tbl α) (f : Nat → α) : Tbl α := (List.range r.2).foldl (fun o i => Tbl.ins o (r.1 + i) (f i)) old
  let s := s.mapCore c fun x => { x with
    pegs := put (resPeg w) x.pegs fun i => Tagged.whole t (Peg.load (nth (part 2) 32 i))
    bobs := put (resBob w) x.bobs fun i => Tagged.whole t (Bob.load (nth (part 3) 64 i))
    tplA := put (resTpl w) x.tplA fun i => Tagged.whole t (BitVec.ofNat 256 (field (part 4) (64 * i) 32))
    tplS := put (resTpl w) x.tplS fun i => Tagged.whole t (BitVec.ofNat 256 (field (part 4) (64 * i + 32) 32)) }
  let v := 8 * resVreg w
  if kind = 2 then
    let bank (i : Nat) : Bank :=
      Bank.ofWord (field (part 7) (8 * i) 8) ((List.range 256).filterMap fun n =>
        let e := field (part 6) (4096 * i + 16 * n) 16
        if e = 0 then none else some (n, BitVec.ofNat 128 e))
    let s := s.mapCore c fun x => { x with
      banks := put (resAcc w) x.banks fun i => Tagged.whole t (bank i)
      vregs := ((g.on c).zip (List.range 4)).foldl (fun o m =>
        put (Tbl.get 0 g.vbase m.1, v) o fun r => Tagged.whole t (BitVec.ofNat 2048 (field (part 8) (256 * (v * m.2 + r)) 256))) x.vregs }
    s.store g.slot g.gen (.ground (sliceAt c spad.1)) (part 9)
  else
    let s := (s.zeroBanks g c).mapCore c fun x => { x with
      vregs := (g.on c).foldl (fun o m => (numbers (Tbl.get 0 g.vbase m, v)).foldl Tbl.del o) x.vregs }
    if spad.2 = 0 then s
    else if s.cutAt g.slot g.gen (.ground (sliceAt c spad.1)) 0 then s.countDrop g.slot
    else { s with ground := (List.range (spad.2 / 64)).foldl (fun m i => m.zeroGran (sliceAt c spad.1 / 64 + i)) s.ground }

/-- The commands of core `c` go back into its queue; one whose specification fails its check ends with that status (R251). -/
def State.loadCopies (s : State) (g : Group) (c : Nat) (p : List (List Byte)) : State :=
  let mine := g.copies.filter fun k => coreOf (g.strands.getD k.strand 0) == c
  (mine.zip (List.range mine.length)).foldl (fun s k =>
    let q := (s.core c).cmdSeq
    let r := nth (p.getD 5 []) 1024 k.2
    let x := s.reopen c (k.1.load q (g.strands.getD k.1.strand 0) r) r
    let s := s.mapCore c fun y => { y with cq := y.cq ++ [x], cmdSeq := (q + 1) % 2 ^ 32 }
    if x.ended then s
    else match s.copyCheck c x with
      | .error e => s.mapCopy c q fun x => { x with ended := true, code := e.code, open_ := [] }
      | .ok _ => s.mapCopy c q fun x => { x with boxes := x.boxCount }) s

/-- RESTORE (R247, R250, R251, R387). Log entry 73 (DEDUCED). -/
def execRestore (gid : Nat) (s : State) : Out :=
  .next (match s.group gid with
    | none => s
    | some g => match g.frame0 with
      | none => s
      | some f =>
        let n := g.cores.length
        let t := tagOf g.slot g.gen
        let s := g.cores.foldl (fun s c => s.settleDie (dieOfCore c)) s
        let kind (c : Nat) : Nat := Tbl.get 0 g.choice (g.coreIx c)
        let rs (c : Nat) : List (Nat × Nat) :=
          g.ranges (kind c) (g.on c).length (g.copies.filter fun k => coreOf (g.strands.getD k.strand 0) == c).length
        let base (c : Nat) : Nat := s.frameAt c g.slot (f + g.coreIx c)
        if g.st ≠ .restoring ∨ g.fail.isSome then s
        else if g.cores.any fun c => !(s.framesIn c g.slot f n) then s.frameFail gid g cBound
        else if g.cores.any fun c => s.frameFrozen c g.slot (f + g.coreIx c) then s.frameFail gid g cContained
        else if g.cores.any fun c => (rs c).any fun r => s.coreBad c g.slot g.gen [] (.hbm (base c + r.1)) r.2 then s.frameFail gid g cUncorrectable
        else
          let s := g.cores.foldl (fun s c =>
            let p := s.readParts c g.slot g.gen (base c) (rs c)
            let s := (rs c).foldl (fun s r => s.coreRead c g.slot g.gen [] (.hbm (base c + r.1)) r.2) s
            let s := ((g.on c).zip (List.range 4)).foldl (fun s m =>
              s.tick.mapStrand m.1 fun x => x.load t (kind c) s.cycle ((Config.freeValue s.free).toNat % 5) (nth (p.getD 1 []) 1024 m.2)) s
            (s.loadCore g c (kind c) p).loadCopies g c p) s
          (s.dropFrames g.slot gid).mapGroup gid fun x => { x with st := .running, pre := none, choice := [], frame0 := none, copies := [] })

/-! ### The watchdog (R252) -/

/-- PREEMPT_WATCHDOG (R231, R252). Log entry 71 (DEDUCED). -/
def execPreemptWatchdog (gid : Nat) (s : State) : Out :=
  .next (match s.group gid with
    | none => s
    | some g => match g.pre with
      | none => s
      | some t =>
        if g.st ≠ .running ∨ g.dbgSince.isSome ∨ s.cycle < t + 4 * (s.ctxOf g.slot).schedSlice.toNat * 3000 then s
        else s.failGroup gid (s.plainRec cWatchdog 0 (g.cores.headD 0)))

/-- R252: a strand of the group leaves DEBUG; when it was the last, its time in DEBUG counts toward no watchdog. Log entry 71 (DEDUCED). -/
def State.debugOver (s : State) (n : Nat) : State :=
  match (s.strand n).grp, s.groupOf n with
  | some gid, some g =>
    if g.strands.any fun m => (s.strand m).dbg then s
    else s.mapGroup gid fun g => { g with
      pre := g.pre.map fun p => p + (s.cycle - max p (g.dbgSince.getD s.cycle))
      dbgSince := none }
  | _, _ => s

end Sys2Proof.Machine
end

