-- ==== Sys2Proof/Machine/Sequencer.lean ====
section
/-! DEFINITION. The generation sequencer (R18, R39, R45, R47, R51, R52, R72, R83, R90, R93, R120 to R124, R225, R258, R423): changes of
registers and their cuts at each unit, and the two phases of a generation advance. -/
namespace Sys2Proof.Machine

/-! ### Writes by the administrator -/

/-- A write that the sequencer carries: it is accepted when every change before it is done (R121). -/
def State.viaSeq (s : State) (r : Chk State) : Out := .next (if s.seqIdle then r.orKeep s else s)

/-- HEAP_WINDOW_WRITE (R13, R18): HEAP_BASE (0), HEAP_LIMIT (1), HEAP_OFF (2). -/
def execHeapWindowWrite (which slot : Nat) (v : W64) (s : State) : Out :=
  if which > 2 ∨ slot > 63 then .next s else s.viaSeq (s.heapWrite which slot v)

/-- SYNC_WINDOW_WRITE (R72): SYNC_LIMIT (0), SYNC_SRAM_BASE (1), SYNC_SRAM_LEN (2), SYNC_OVF_BASE (3). -/
def execSyncWindowWrite (which slot : Nat) (v : W64) (s : State) : Out :=
  if which > 3 ∨ slot > 63 then .next s else s.viaSeq (s.syncWrite which slot v)

/-- DIRTY_SEL_WRITE (R47). -/
def execDirtySelWrite (v : W64) (s : State) : Out := s.viaSeq (s.dirtySelWrite v)

/-- PERF_SEL_WRITE (R258). -/
def execPerfSelWrite (slot k : Nat) (v : W64) (s : State) : Out :=
  if slot > 63 ∨ k > 7 then .next s else s.viaSeq (s.perfSelWrite slot k v)

/-- TIME_SCALE_WRITE (R51). -/
def execTimeScaleWrite (slot : Nat) (v : W64) (s : State) : Out := .next (if slot > 63 then s else s.setTimeScale slot v)

/-- TIME_OFF_WRITE (R52). -/
def execTimeOffWrite (slot : Nat) (v : W64) (s : State) : Out := .next (if slot > 63 then s else (s.setTimeOff slot v).orKeep (s.spendExempt slot))

/-- ERR_MODE_WRITE (R83). -/
def execErrModeWrite (v : W64) (s : State) : Out := .next ((s.errModeWrite v).orKeep s)

/-! ### Cuts of register changes (R18, R47, R72, R93, R258) -/

/-- CONFIG_CHANGE_CUT: unit `unit` (core, or 192 + die) uses the new values from now on. -/
def execConfigChangeCut (unit : Nat) (s : State) : Out :=
  .next (match s.pkg.seqRun with
    | none => s
    | some r =>
      let core := decide (unit < 192)
      let s' := s.mapPkg fun p => { p with seqRun := some { r with
        cores := if core then r.cores.filter (· != unit) else r.cores
        dies := if core then r.dies else r.dies.filter (· + 192 != unit) } }
      if ¬((core = true ∧ r.cores.contains unit) ∨ (core = false ∧ r.dies.contains (unit - 192))) then s
      else match r.req with
        | .genAdv _ _ _ _ => s
        | .heap k _ _ _ => { s' with oldHeap := Tbl.del s'.oldHeap (unit * 64 + k) }
        | .sync k _ _ _ _ => { s' with oldSync := Tbl.del s'.oldSync (unit * 64 + k) }
        | .dirtySel _ => s'
        | .owner _ _ _ => s'
        | .perfSel k i _ => if core then s'.mapCore unit fun x => { x with perf := Tbl.del x.perf (k * 8 + i) } else s')

/-! ### A generation advance (R120 to R123) -/

/-- R225: the launch queues of a slot are disabled. -/
def LQueue.cut (q : LQueue) : LQueue :=
  { q with en := false, td := false, pi := 0, ci := 0, cpi := 0, cci := 0, waiting := [], full := false, tdUntil := 0, tdCount := none }

/-- The strand that issued an advance has its D. -/
def State.advDone (s : State) (n d len : Nat) (v : W64) : State :=
  if n < Config.strands then s.endWait n d len (s.tagOfStrand n) v else s

/-- GEN_ADV_ACCEPT (R120, R121, R225): the window test, then the generation, the peer windows, the launch queues. -/
def execGenAdvAccept (s : State) : Out :=
  .next (match s.pkg.seqRun, s.pkg.seqQ with
    | none, .genAdv k n d len :: t =>
      let s := s.mapPkg fun p => { p with seqQ := t }
      let x := s.ctxOf k
      if (x.gen - x.genLw).toNat > 511 then s.advDone n d len (BitVec.ofNat 64 (cGenWindow.toNat + x.gen.toNat * 256))
      else
        let s := s.mapCtx k fun x => { x with gen := x.gen + 1, timeExempt := true }
        let s := s.mapFn k fun f => { f with lq := f.lq.filterMap fun q => if q.2.cut = .init then none else some (q.1, q.2.cut) }
        let s := s.mapPkg fun p => { p with
          windows := (p.windows.filter (·.2.owner == k)).foldl (fun t w => Tbl.put Window.init t w.1 { w.2 with v := false }) p.windows }
        s.seqStart (.genAdv k n d len) allDies allCores
    | _, _ => s)

/-- The accesses held on the records of a die for a slot, with their addresses; of each command those of its lowest box. -/
def State.heldAt (s : State) (d k : Nat) : List (Who × Nat) :=
  let l := ((s.die d).frecs.filter (·.slot == k)).flatMap fun r => r.waiters.filterMap fun p =>
    (s.pieceOf p).map fun x => (p, x.1.sideAddr x.2.1 x.2.2 p.2.2.2 (r.wr || x.2.2.op == 2))
  l.filter fun x => l.all fun y => x.1.1 != y.1.1 || x.1.2.1 != y.1.2.1 || decide (x.1.2.2.1 ≤ y.1.2.2.1)

/-- R39, R123, R423: the holders of die `d` cut for slot `k`: fault records, walks, waits for the host's translations, sync waiters,
publishes. Log entry 75 (DEDUCED). -/
def State.cutDie (s : State) (d k : Nat) : State :=
  let x := s.die d
  let mine (w : Walk) : Bool := w.slot == k
  let here (p : Who) : Bool := dieOfCore p.1 == d
  let ats := (s.fn k).atsWait.map fun a => (a.waiters.filter here, a.wr)
  let held := ((x.frecs.filter (·.slot == k)).map fun r => (r.waiters, r.wr)) ++ (((x.walks ++ x.walkQ).filter mine).map fun w => (w.waiters, w.wr)) ++ ats
  let ends := s.heldAt d k
  let waits := x.syncWaits.filter (·.slot == k)
  let s := s.mapDie d fun x =>
    let x := x.dropRecsOf k
    let rest := x.walks.filter (!mine ·)
    let queued := x.walkQ.filter (!mine ·)
    { x with
      walks := rest ++ queued.take (x.walks.length - rest.length)
      walkQ := queued.drop (x.walks.length - rest.length)
      syncWaits := x.syncWaits.filter (·.slot != k)
      holds := x.holds.filter (· / 1024 != k) }
  let s := s.mapFn k fun f => { f with
    atsWait := (f.atsWait.map fun a => { a with waiters := a.waiters.filter fun p => !(here p) }).filter fun a => !(a.waiters.isEmpty && (a.st == 0 || a.st == 3)) }
  let s := held.foldl (fun s h => s.failSide h.1 h.2 cGenRetired) s
  let s := ends.foldl (fun s e => s.endHeld e.1 e.2) s
  let s := waits.foldl (fun s w => s.endSwait w cGenRetired) s
  let late := allDies.flatMap fun h => (s.die h).pubs.filter fun p => p.slot == k && !(p.swapped.contains d)
  late.foldl (fun s p => s.pubFail p cGenRetired) s

/-- DIE_CUT (R39, R45, R103, R121 to R123, R423). -/
def execDieCut (die : Nat) (s : State) : Out :=
  .next (match s.pkg.seqRun with
    | none => s
    | some r => match r.req with
      | .genAdv k _ _ _ =>
        if r.dies.contains die = false then s
        else
          let l := r.dies.filter (· != die)
          let s := (s.mapPkg fun p => { p with seqRun := some { r with dies := l } }).cutDie die k
          (if l = [] then s.releaseBorrows k else s).retryHeld
      | _ => s)

/-- R123: the answers to requests that the engines of core `c` made for slot `k` are discarded. Log entry 75 (DEDUCED). -/
def State.cutPeers (s : State) (c k : Nat) : State :=
  let mine (r : PeerReq) : Bool := r.slot == k && s.asker r == some c
  let gone := s.pkg.peers.filter mine
  let s := s.mapPkg fun p => { p with peers := p.peers.filter fun r => !(mine r) }
  gone.foldl (fun s r => s.discard r) s

/-- R122, R123: group `gid` loses core `c`; with its last core it is ENDED with GEN_RETIRED. What its strands and its executing matrix
entries had sent meets only holders that have cut, and is counted. Log entry 75 (DEDUCED). -/
def State.cutGroup (s : State) (c gid : Nat) : State :=
  match s.group gid with
  | none => s
  | some g =>
    let s := s.charge c
    let mine := g.on c
    let sent := s.flight.filter fun a => mine.contains a.strand && !a.done && (match a.why with
      | .load _ _ => true | .store => true | .sync _ _ => true | .launch _ => true | .vld _ _ _ _ => true | .vst => true | _ => false)
    let lost := ((s.core c).mq.filter (·.gid == gid)).flatMap fun e => (e.started.getD []).filter fun w => match w with | .slice _ => true | _ => false
    let s := lost.foldl (fun s _ => s.countDrop g.slot) (sent.foldl (fun s _ => s.countDrop g.slot) s)
    let s := { s with flight := s.flight.filter fun a => !(mine.contains a.strand) }
    let s := s.mapPkg fun p => { p with peers := p.peers.map fun r => { r with fences := r.fences.filter fun n => !(mine.contains n) } }
    let s := mine.foldl (fun s n => s.freeStrand n) s
    let s := s.mapCore c fun x => { x with
      mq := x.mq.filter (·.gid != gid)
      vq := x.vq.filter (·.gid != gid)
      waiters := x.waiters.filter fun w => match w.who with
        | some n => !(mine.contains n)
        | none => w.tag.toNat / 1024 != g.slot
      cq := (x.cq.filter fun q => q.gid != gid || q.begun).map fun q =>
        if q.gid = gid then { q with ended := true, code := if q.ended ∧ q.code ≠ 0 then q.code else cGenRetired, open_ := q.open_.filter (!·.held) } else q }
    let cores := g.cores.filter (· != c)
    let r := s.plainRec cGenRetired 0 c
    let s := s.mapGroup gid fun g => { g with
      cores := cores, strands := g.strands.filter (coreOf · != c)
      fail := if cores = [] then some (g.fail.getD r) else g.fail }
    if cores = [] then s.endGroup gid else s

/-- R123: the task pool, the commit unit and the launch machinery of die `d` cut for slot `k`. Log entry 75 (DEDUCED). -/
def State.cutLaunch (s : State) (d k : Nat) : State :=
  let s := ((s.die d).tasks.filter (·.slot == k)).foldl (fun s t => s.removeTask d t.seq) s
  let keep (l : List QEnt) : List QEnt := l.filter (·.slot != k)
  let saved := s.groups.filter fun g => g.2.slot == k && g.2.st == GState.saved && queueDie g.2.ref g.2.level == d
  let s := s.mapDie d fun x => { x with
    queue := keep x.queue, spill := keep x.spill
    bays := x.bays.filterMap fun b => let y : Bay := { b.2 with queue := keep b.2.queue }; if y = Bay.init then none else some (b.1, y) }
  let s := (List.range 48).foldl (fun s i => s.mapCore (d * 48 + i) fun x => { x with queue := keep x.queue }) s
  let s := ((s.die d).store.filter fun e => e.2.slot == k && e.2.st != StoreSt.free).foldl (fun s e =>
    let r := refOf e.2.epoch.toNat d e.1
    let s : State := if e.2.st = StoreSt.pending ∨ e.2.next ≤ e.2.ended then s.freeEnt r
      else s.mapEnt r fun e => { e with total := e.next, failed := if e.failed = 0 then cGenRetired else e.failed }
    s.endUnrun e.2 r cGenRetired (if e.2.st = StoreSt.pending then 0 else e.2.next) e.2.total) s
  saved.foldl (fun s g => (s.mapGroup g.1 fun x => { x with fail := some (x.fail.getD (s.plainRec cGenRetired 0 (x.cores.headD 0))) }).endGroup g.1) s

/-- CORE_CUT (R121 to R123, R234): only after the last die cut. -/
def execCoreCut (core : Nat) (s : State) : Out :=
  .next (match s.pkg.seqRun with
    | none => s
    | some r => match r.req with
      | .genAdv k _ _ _ =>
        if r.dies ≠ [] ∨ r.cores.contains core = false then s
        else
          let s := s.mapPkg fun p => { p with seqRun := some { r with cores := r.cores.filter (· != core) } }
          let gs := (s.groupsOn core).filter (·.2.slot == k)
          let s := gs.foldl (fun s g => s.cutGroup core g.1) (s.cutPeers core k)
          if core % 48 = 0 then s.cutLaunch (core / 48) k else s
      | _ => s)

/-- SEQUENCER_CHANGE_DONE (R18, R47, R120, R121): every unit has cut; an advance writes its D. -/
def execSequencerChangeDone (s : State) : Out :=
  .next (match s.pkg.seqRun with
    | none => s
    | some r =>
      if r.dies ≠ [] ∨ r.cores ≠ [] then s
      else
        let s := s.mapPkg fun p => { p with seqRun := none }
        match r.req with
        | .genAdv k n d len => s.advDone n d len (BitVec.ofNat 64 ((s.ctxOf k).gen.toNat * 256))
        | .dirtySel v => s.mapPkg fun p => { p with dirtyShown := v }
        | _ => s)

end Sys2Proof.Machine
end

