-- ==== Sys2Proof/Machine/Errors.lean ====
section
/-! DEFINITION. Physical errors (R78 to R82, R85, R90): what one does to the granule, sector, variable, entry or element that it meets, and what
is told of it, whether an access or a scrubber meets it; and the elements that the tag sweepers visit (R111, R112, R125). -/
namespace Sys2Proof.Machine

/-! ### The age of an element (R125) -/

/-- The age of a tag: generations since it was the slot's. -/
def State.age (s : State) (t : Tag) : Nat := ((s.ctxOf (t.toNat / 1024)).gen.toNat + 1024 - t.toNat % 1024) % 1024
/-- An element that a visit writes to the zero state. -/
def State.stale (s : State) (t : Tag) : Bool := decide (511 < s.age t)
/-- R79: a poisoned granule that is not current for its stored slot. -/
def State.lapsed (s : State) (t : Tag) (poison : Bool) : Bool := poison && s.age t != 0
/-- Whether a visit writes an element of this tag and poison to the zero state. -/
def State.swept (s : State) (t : Tag) (poison : Bool) : Bool := s.stale t || s.lapsed t poison

/-! ### What is told (R78, R80 to R82) -/

def satInc (x : BitVec 32) : BitVec 32 := if x = BitVec.allOnes 32 then x else x + 1

/-- R82, R450: an uncorrectable error of an array of die `d`: the black box, and the freeze in fixed-freeze mode. -/
def State.arrayError (s : State) (d arr addr slot : Nat) : State :=
  let s := s.logDie d 0x04 slot [arr, addr]
  if s.pkg.errMode then s.freeze d false else s

/-- R80: the event of an uncorrectable tag, which names the array and the address; in fixed-freeze mode the die freezes instead (R82). -/
def State.tagError (s : State) (d arr addr : Nat) (owner : Option Nat) : State :=
  (if s.pkg.errMode then s else s.event d 0x60 (owner.getD 0) [arr, addr]).arrayError d arr addr (owner.getD 0)

/-- R78: a corrected error is counted, and the first at its place in a pass is posted. Log entry 77 (DESIGN CHOICE). -/
def State.corrected (s : State) (d arr addr slot : Nat) : State :=
  let seen := (s.die d).ceSeen.contains (arr, addr)
  let s' := s.mapDie d fun x =>
    let x := { x with ceSeen := if seen then x.ceSeen else (arr, addr) :: x.ceSeen }
    match arr with
    | 0 => { x with ceSlice := satInc x.ceSlice }
    | 2 => { x with ceBayc := satInc x.ceBayc }
    | _ => { x with ceSync := satInc x.ceSync }
  if seen then s' else s'.logDie d 0x03 slot [arr, addr]

/-- What is told of error `err` in an array: 1 correctable, 2 of data, 3 of the tag. -/
def State.reportError (s : State) (d arr addr err slot : Nat) (owner : Option Nat) : State :=
  match err with
  | 1 => s.corrected d arr addr slot
  | 2 => s.arrayError d arr addr slot
  | 3 => s.tagError d arr addr owner
  | _ => s

/-- R82: the part of an error that changes the word: none in fixed-freeze mode. -/
def State.harm (s : State) (err : Nat) : Nat := if s.pkg.errMode then 0 else err

/-! ### Owners (R80) -/

/-- The slot whose core mask holds a core, the lowest where several do. Log entry 101 (DESIGN CHOICE). -/
def State.coreOwner (s : State) (c : Nat) : Option Nat := firstBelow 64 fun k => s.maskBit k c
/-- The slot whose sync window holds an offset of the SRAM. -/
def State.syncOwner (s : State) (o : Nat) : Option Nat :=
  firstBelow 64 fun k => let x := s.ctxOf k; decide (x.sramBase.toNat ≤ o) && decide (o < x.sramBase.toNat + min x.sramLen.toNat x.syncLimit.toNat)
/-- The slot that the block owner table gives for an address. -/
def State.blockOwner (s : State) (a : Nat) : Option Nat := let b := s.owner (a / 0x80000000); if b < 64 then some b else none

/-! ### What an error and a visit do to tag and poison (R79, R80, R125); `none` is the zero state -/

def State.struckGran (s : State) (e : Gran) (err : Nat) (owner : Option Nat) : Option Gran :=
  match err with
  | 2 => some { e with poison := true }
  | 3 => owner.map fun k => ⟨s.slotTag k, e.lease, true⟩
  | _ => some e
/-- R97: lent granules are swept by their lease. -/
def State.sweptGran (s : State) (e : Gran) : Option Gran := if e.lease then some e else if s.swept e.tag e.poison then none else some e

def State.struck {α : Type} (s : State) (x : Tagged α) (err : Nat) (owner : Option Nat) : Option (Tagged α) :=
  match err with
  | 2 => some { x with poison := true }
  | 3 => owner.map fun k => ⟨x.val, s.slotTag k, true⟩
  | _ => some x
def State.sweptTagged {α : Type} (s : State) (x : Tagged α) : Option (Tagged α) := if s.swept x.tag x.poison then none else some x

def State.struckSector (s : State) (x : Sector) (err : Nat) (owner : Option Nat) : Option Sector :=
  match err with
  | 2 => some { x with poison := true }
  | 3 => owner.map fun k => { x with tag := s.slotTag k, poison := true }
  | _ => some x

/-- Side bits of a granule, or its zero state. -/
def TMem.setGran (m : TMem) (g : Nat) (e : Option Gran) : TMem :=
  match e with
  | some e => { m with side := Tbl.put Gran.zero m.side g e }
  | none => m.zeroGran g

/-! ### The four arrays: 0 slices (32-byte word of the ground, R53), 1 sync SRAM (die × 2^20 + variable), 2 bay caches (bay × 2^18 + line × 4 +
half × 2 + 32-byte word), 3 twin tables (die × 2^16 + entry) -/

/-- Change a granule of the ground. -/
def State.mapSlice (s : State) (g : Nat) (f : Gran → Option Gran) : State := { s with ground := s.ground.setGran g (f (s.ground.gran (g * 64))) }

/-- The entry of a table after a change; `none` removes it. -/
def putElem {α : Type} (t : Tbl α) (k : Nat) (v : Option α) : Tbl α := match v with | some v => Tbl.ins t k v | none => Tbl.del t k

def State.mapSync (s : State) (d k : Nat) (f : Tagged SyncVar → Option (Tagged SyncVar)) : State :=
  match find (s.die d).sync k with
  | none => match f zSync with
    | some v => s.mapDie d fun y => { y with sync := Tbl.put zSync y.sync k v }
    | none => s
  | some x => s.mapDie d fun y => { y with sync := putElem y.sync k (f x) }

def State.mapTwin (s : State) (d k : Nat) (f : Tagged Twin → Option (Tagged Twin)) : State :=
  match find (s.die d).twins k with
  | none => match f zTwin with
    | some v => s.mapDie d fun y => { y with twins := Tbl.put zTwin y.twins k v }
    | none => s
  | some x => s.mapDie d fun y => { y with twins := putElem y.twins k (f x) }

/-- Sector `k` % 2 of line `k` / 2 of a bay, with its line and address. -/
def State.sectorAt (s : State) (b k : Nat) : Option (Line × Nat × Sector) :=
  match find (s.bay b).lines (k / 2) with
  | none => none
  | some l => let a := l.addr (k / 2) (k % 2); (l.sector a).map fun x => (l, a, x)

/-- A sector changes, and with a dirty one what the bay holds for HBM; the zero state of one that is not dirty, or a peer's, is an
empty sector. Log entry 77 (DESIGN CHOICE). -/
def State.setSectorAt (s : State) (b : Nat) (peer : Option Nat) (a : Nat) (x : Sector) (y : Option Sector) : State :=
  let put (s : State) (v : Option Sector) : State := s.mapBay b fun z => z.setSector peer a v
  match y with
  | some y =>
    if y = x then s
    else if peer.isNone && x.dirty then
      let s := put s (some y)
      { s with hbm := { s.hbm with side := Tbl.upd Gran.zero s.hbm.side (a / 64) fun e => { e with tag := y.tag, poison := y.poison } } }
    else put s (some y)
  | none =>
    if peer.isNone && x.dirty then
      let s := put s (some { x with tag := 0, poison := false })
      { s with hbm := s.hbm.zeroGran (a / 64) }
    else put s none

/-- An error in array `arr`. -/
def State.strikeArray (s : State) (arr addr err : Nat) : State :=
  let h := s.harm err
  match arr with
  | 0 =>
    let g := addr / 2
    let c := g * 64 / Config.sliceBytes
    if c ≥ 192 ∨ err = 0 then s
    else
      (if h < 2 then s else s.mapSlice g fun e => s.struckGran e h (s.coreOwner c)).reportError (dieOfCore c) 0 addr err
        ((s.ground.gran (g * 64)).tag.toNat / 1024) (s.coreOwner c)
  | 1 =>
    let d := addr / 2 ^ 20
    let k := addr % 2 ^ 20
    if d ≥ 4 ∨ k ≥ 0x600000 / 8 ∨ err = 0 then s
    else
      (if h < 2 then s else s.mapSync d k fun x => s.struck x h (s.syncOwner (8 * k))).reportError d 1 addr err
        ((Tbl.get zSync (s.die d).sync k).tag.toNat / 1024) (s.syncOwner (8 * k))
  | 2 =>
    let b := addr / 2 ^ 18
    match s.sectorAt b (addr % 2 ^ 18 / 2) with
    | none => s
    | some (l, a, x) =>
      let o := if l.peer.isSome then none else s.blockOwner a
      if b ≥ 24 ∨ err = 0 then s
      else (if h < 2 then s else s.setSectorAt b l.peer a x (s.struckSector x h o)).reportError (b / 6) 2 addr err (x.tag.toNat / 1024) o
  | 3 =>
    let d := addr / 2 ^ 16
    let k := addr % 2 ^ 16
    if d ≥ 4 ∨ err = 0 then s
    else
      (if h < 2 then s else s.mapTwin d k fun x => s.struck x h (some (k / 1024))).reportError d 3 addr err
        ((Tbl.get zTwin (s.die d).twins k).tag.toNat / 1024) (some (k / 1024))
  | _ => s

/-- What a visit of the scrubber to a word of an array does besides (R79, R125). -/
def State.sweepArray (s : State) (arr addr : Nat) : State :=
  match arr with
  | 0 => s.mapSlice (addr / 2) s.sweptGran
  | 1 => s.mapSync (addr / 2 ^ 20) (addr % 2 ^ 20) s.sweptTagged
  | 2 => match s.sectorAt (addr / 2 ^ 18) (addr % 2 ^ 18 / 2) with
    | none => s
    | some (l, a, x) =>
      let lent := l.peer.isNone && (s.hbm.gran a).lease
      if !lent && s.swept x.tag x.poison then s.setSectorAt (addr / 2 ^ 18) l.peer a x none else s
  | 3 => s.mapTwin (addr / 2 ^ 16) (addr % 2 ^ 16) s.sweptTagged
  | _ => s

/-! ### Device memory (R84, R85, R90) -/

/-- R84: stack, stripe, channel before retirement, and the parity channel of the stripe. -/
def hbmLocate (pa : Nat) : Nat × Nat × Nat × Nat :=
  let d := pa / 0x1F00000000
  let n := (pa - d * 0x1F00000000) / 256
  let st := 2 * d + (n ^^^ (n / 2 ^ 9) ^^^ (n / 2 ^ 17)) % 2
  let m := n / 2
  let k := m / 31
  (st, k, (k % 32 + 1 + m % 31) % 32, k % 32)

/-- R84: the stack, the channel that holds an address now, and the offset within that channel. -/
def State.placeOf (s : State) (pa : Nat) : Nat × Nat × Nat :=
  let l := hbmLocate pa
  let x := s.stackOf l.1
  (l.1, if x.st ≠ 0 ∧ x.retCh = l.2.2.1 ∧ l.2.1 < x.rbPtr then l.2.2.2 else l.2.2.1,
    l.2.1 * 256 + (pa - pa / 0x1F00000000 * 0x1F00000000) % 256)
def State.channelOf (s : State) (pa : Nat) : Nat × Nat := ((s.placeOf pa).1, (s.placeOf pa).2.1)

/-- R90: whether granule `g` of a stack is lost when channel `ch` fails beside the retired one. -/
def State.granLost (s : State) (st ch g : Nat) : Bool :=
  let l := hbmLocate (g * 64)
  let x := s.stackOf st
  l.1 == st && ((s.channelOf (g * 64)).2 == ch || (decide (x.rbPtr ≤ l.2.1) && l.2.2.1 == x.retCh))

/-- R66: change what HBM itself holds of granule `g`: beneath a dirty sector, what will be there if the sector is lost; the granule
as it stands otherwise. -/
def State.mapHbm (s : State) (g : Nat) (f : Gran → Option Gran) : State :=
  match s.dirtyBay none (g * 64) with
  | some (b, x) => match x.under with
    | some u => s.mapBay b fun y => y.setSector none (g * 64) (some { x with under := some (match f u.1 with
        | some e => (e, u.2)
        | none => (Gran.zero, List.replicate 64 0)) })
    | none => s
  | none => { s with hbm := s.hbm.setGran g (f (s.hbm.gran (g * 64))) }
/-- The side bits that HBM itself holds of granule `g`. -/
def State.hbmSide (s : State) (g : Nat) : Gran :=
  match s.dirtyBay none (g * 64) with
  | some (_, x) => match x.under with | some u => u.1 | none => s.hbm.gran (g * 64)
  | none => s.hbm.gran (g * 64)

/-- A second failure in a stack: what has no surviving copy is poisoned. Log entry 79 (DEDUCED). -/
def State.secondFail (s : State) (st ch : Nat) : State :=
  let s := (List.range (Config.hbmBytes / 64)).foldl (fun s g =>
    if s.granLost st ch g then s.mapHbm g fun e => some { e with poison := true } else s) s
  (s.mapPkg fun p => { p with stk := Tbl.upd Stack.init p.stk st fun x => { x with st := 3 } }).event (st / 2) 0x53 0 [st, ch]

/-- A channel fails: it is retired (cause 1 training, 2 error count), or it is the stack's second. Log entry 79 (DEDUCED). -/
def State.channelFails (s : State) (st ch cause : Nat) : State :=
  let x := s.stackOf st
  if st ≥ 8 ∨ ch ≥ 32 ∨ x.st = 3 then s
  else if x.st = 0 then s.retireChannel st ch cause
  else if x.retCh = ch then s
  else s.secondFail st ch

/-- R85, R90: an error in a granule of device memory: corrected and counted by its channel, or it poisons the granule; 64 that are not
corrected within a pass retire the channel. -/
def State.strikeHbm (s : State) (g err : Nat) : State :=
  if g * 64 ≥ Config.hbmBytes ∨ err = 0 then s
  else
    let c := s.channelOf (g * 64)
    let key := c.1 * 32 + c.2
    if err = 1 then s.mapPkg fun p => { p with chanCorr := Tbl.upd 0 p.chanCorr key satInc }
    else
      let s := s.mapHbm g fun e => some { e with poison := true }
      let n := Tbl.get 0 s.pkg.chanUnc key + 1
      let s := (s.mapPkg fun p => { p with chanUnc := Tbl.put 0 p.chanUnc key n }).logDie (c.1 / 2) 0x04 ((s.hbmSide g).tag.toNat / 1024) [c.1, c.2, g]
      if n = 64 then s.channelFails c.1 c.2 2 else s

/-! ### Elements of cores and dies (R81, R111) -/

/-- The tag of an entry of a queue. -/
def Ent.tag (e : Ent) : Tag := tagOf e.slot e.gen
def Copy.tag (k : Copy) : Tag := tagOf k.slot k.gen
def QEnt.tag (e : QEnt) : Tag := tagOf e.slot e.gen

/-- Element `e` of the state with its tag and poison, if it is listed. -/
def State.elemTag (s : State) (e : Elem) : Option (Tag × Bool) :=
  let at' {α : Type} (t : Tbl (Tagged α)) (n : Nat) : Option (Tag × Bool) := (find t n).map fun x => (x.tag, x.poison)
  let q (l : List QEnt) (i : Nat) : Option (Tag × Bool) := (l[i]?).map fun x => (x.tag, false)
  match e with
  | .scalar k n => at' (s.strand k).sregs n
  | .pred k n => at' (s.strand k).pregs n
  | .ctl k n => at' (s.strand k).ctl n
  | .pc k => if (s.strand k).pc = zReg then none else some ((s.strand k).pc.tag, (s.strand k).pc.poison)
  | .vreg c n => at' (s.core c).vregs n
  | .bank c n => at' (s.core c).banks n
  | .peg c n => at' (s.core c).pegs n
  | .bob c n => at' (s.core c).bobs n
  | .tplActive c n => at' (s.core c).tplA n
  | .tplStandby c n => at' (s.core c).tplS n
  | .pillow c i => ((s.core c).pillow[i]?).map fun x => (tagOf x.slot x.gen, false)
  | .mq c i => ((s.core c).mq[i]?).map fun x => (x.tag, x.poison)
  | .vq c i => ((s.core c).vq[i]?).map fun x => (x.tag, x.poison)
  | .cq c i => ((s.core c).cq[i]?).map fun x => (x.tag, x.poison)
  | .l1 c i => ((s.core c).l1[i]?).map fun x => (tagOf x.slot x.gen, false)
  | .perf c k => at' (s.core c).perf k
  | .coreQ c i => q (s.core c).queue i
  | .bayQ b i => q (s.bay b).queue i
  | .dieQ d i => q (s.die d).queue i
  | .spill d i => q (s.die d).spill i
  | .store d i => (find (s.die d).store i).bind fun x => if x.st = .free then none else some (tagOf x.slot x.gen, false)
  | .l2 d i => ((s.die d).l2[i]?).map fun x => (tagOf x.slot x.gen, false)
  | .walkCache d i => ((s.die d).walkCache[i]?).map fun x => (tagOf x.slot x.gen, false)
  | .twin d k => at' (s.die d).twins k
  | .mcast d k => at' (s.die d).mcast k
  | .frec d i => ((s.die d).frecs[i]?).map fun x => (tagOf x.slot x.gen, false)

/-- R112: element `e` takes the zero state. -/
def State.elemZero (s : State) (e : Elem) : State :=
  match e with
  | .scalar k n => s.mapStrand k fun x => { x with sregs := Tbl.del x.sregs n }
  | .pred k n => s.mapStrand k fun x => { x with pregs := Tbl.del x.pregs n }
  | .ctl k n => s.mapStrand k fun x => { x with ctl := Tbl.del x.ctl n }
  | .pc k => s.mapStrand k fun x => { x with pc := zReg }
  | .vreg c n => s.mapCore c fun x => { x with vregs := Tbl.del x.vregs n }
  | .bank c n => s.mapCore c fun x => { x with banks := Tbl.del x.banks n }
  | .peg c n => s.mapCore c fun x => { x with pegs := Tbl.del x.pegs n }
  | .bob c n => s.mapCore c fun x => { x with bobs := Tbl.del x.bobs n }
  | .tplActive c n => s.mapCore c fun x => { x with tplA := Tbl.del x.tplA n }
  | .tplStandby c n => s.mapCore c fun x => { x with tplS := Tbl.del x.tplS n }
  | .pillow c i => s.mapCore c fun x => { x with pillow := removeAt x.pillow i }
  | .mq c i => s.mapCore c fun x => { x with mq := removeAt x.mq i }
  | .vq c i => s.mapCore c fun x => { x with vq := removeAt x.vq i }
  | .cq c i => s.mapCore c fun x => { x with cq := removeAt x.cq i }
  | .l1 c i => s.mapCore c fun x => { x with l1 := removeAt x.l1 i }
  | .perf c k => s.mapCore c fun x => { x with perf := Tbl.del x.perf k }
  | .coreQ c i => s.mapCore c fun x => { x with queue := removeAt x.queue i }
  | .bayQ b i => s.mapBay b fun x => { x with queue := removeAt x.queue i }
  | .dieQ d i => s.mapDie d fun x => { x with queue := removeAt x.queue i }
  | .spill d i => s.mapDie d fun x => { x with spill := removeAt x.spill i }
  | .store d i => s.mapDie d fun x => { x with store := Tbl.upd StoreEnt.init x.store i fun e => { StoreEnt.init with epoch := e.epoch } }
  | .l2 d i => s.mapDie d fun x => { x with l2 := removeAt x.l2 i }
  | .walkCache d i => s.mapDie d fun x => { x with walkCache := removeAt x.walkCache i }
  | .twin d k => s.mapDie d fun x => { x with twins := Tbl.del x.twins k }
  | .mcast d k => s.mapDie d fun x => { x with mcast := Tbl.del x.mcast k }
  | .frec d i => match (s.die d).frecs[i]? with
    | some r => s.mapDie d fun x => x.dropRec r
    | none => s

/-- R81: the elements that an uncorrectable error poisons, with the core that holds them. -/
def errCore : Elem → Option Nat
  | .scalar k _ => some (coreOf k)
  | .pred k _ => some (coreOf k)
  | .ctl k _ => some (coreOf k)
  | .pc k => some (coreOf k)
  | .vreg c _ => some c
  | .bank c _ => some c
  | .peg c _ => some c
  | .bob c _ => some c
  | .tplActive c _ => some c
  | .tplStandby c _ => some c
  | .mq c _ => some c
  | .vq c _ => some c
  | .cq c _ => some c
  | _ => none

/-- Element `e` is marked poisoned, and takes the current tag of slot `o` if one is given. -/
def State.elemSpoil (s : State) (e : Elem) (o : Option Nat) : State :=
  let bad {α : Type} (x : Tagged α) : Tagged α := ⟨x.val, match o with | some k => s.slotTag k | none => x.tag, true⟩
  let slot (k : Nat) : Nat := o.getD k
  let gen (g : Nat) : Nat := match o with | some k => (s.ctxOf k).gen.toNat | none => g
  let ent (x : Ent) : Ent := { x with slot := slot x.slot, gen := gen x.gen, poison := true }
  match e with
  | .scalar k n => s.mapStrand k fun x => { x with sregs := Tbl.upd zReg x.sregs n bad }
  | .pred k n => s.mapStrand k fun x => { x with pregs := Tbl.upd zReg x.pregs n bad }
  | .ctl k n => s.mapStrand k fun x => { x with ctl := Tbl.upd zReg x.ctl n bad }
  | .pc k => s.mapStrand k fun x => { x with pc := bad x.pc }
  | .vreg c n => s.mapCore c fun x => { x with vregs := Tbl.upd zVReg x.vregs n bad }
  | .bank c n => s.mapCore c fun x => { x with banks := Tbl.upd zBank x.banks n bad }
  | .peg c n => s.mapCore c fun x => { x with pegs := Tbl.upd zPeg x.pegs n bad }
  | .bob c n => s.mapCore c fun x => { x with bobs := Tbl.upd zBob x.bobs n bad }
  | .tplActive c n => s.mapCore c fun x => { x with tplA := Tbl.upd zTpl x.tplA n bad }
  | .tplStandby c n => s.mapCore c fun x => { x with tplS := Tbl.upd zTpl x.tplS n bad }
  | .mq c i => s.mapCore c fun x => { x with mq := updAt x.mq i ent }
  | .vq c i => s.mapCore c fun x => { x with vq := updAt x.vq i ent }
  | .cq c i => s.mapCore c fun x => { x with cq := updAt x.cq i fun k => { k with slot := slot k.slot, gen := gen k.gen, poison := true } }
  | _ => s

/-- R81: the slot of the group that holds element `e`. -/
def State.elemOwner (s : State) (e : Elem) : Option Nat :=
  let ofStrand (k : Nat) : Option Nat := (s.groupOf k).map (·.slot)
  let ofGid (g : Nat) : Option Nat := (s.group g).map (·.slot)
  let holds (c : Nat) (f : Group → Bool) : Option Nat :=
    (s.groups.find? fun g => g.2.cores.contains c && g.2.st != .saved && f g.2).map (·.2.slot)
  match e with
  | .scalar k _ => ofStrand k
  | .pred k _ => ofStrand k
  | .ctl k _ => ofStrand k
  | .pc k => ofStrand k
  | .vreg c n => holds c fun g => g.strands.any fun k => coreOf k == c && inRange (Tbl.get 0 g.vbase k, resVreg (g.w 2) * 8) n
  | .bank c n => holds c fun g => inRange (resAcc (g.w 2)) n
  | .peg c n => holds c fun g => inRange (resPeg (g.w 2)) n
  | .bob c n => holds c fun g => inRange (resBob (g.w 2)) n
  | .tplActive c n => holds c fun g => inRange (resTpl (g.w 2)) n
  | .tplStandby c n => holds c fun g => inRange (resTpl (g.w 2)) n
  | .mq c i => ((s.core c).mq[i]?).bind fun x => ofGid x.gid
  | .vq c i => ((s.core c).vq[i]?).bind fun x => ofGid x.gid
  | .cq c i => ((s.core c).cq[i]?).bind fun x => ofGid x.gid
  | _ => none

/-- R81: an uncorrectable error of an element: 2 of data, 3 of its tag. Log entry 32 (DESIGN CHOICE). -/
def State.strikeElem (s : State) (e : Elem) (err : Nat) : State :=
  match errCore e with
  | none => s
  | some c =>
    let d := dieOfCore c
    match err with
    | 2 => (s.elemSpoil e none).logBox d 0x04 (match s.elemTag e with | some x => x.1.toNat / 1024 | none => 0) c [c]
    | 3 =>
      let o := s.elemOwner e
      let s : State := match o with | some k => s.elemSpoil e (some k) | none => s.elemZero e
      (s.event d 0x60 (o.getD 0) [4, c]).logBox d 0x04 (o.getD 0) c [c]
    | _ => s

/-! ### Errors that accesses meet -/

/-- R78 to R81, R85: an access meets an error at the place that it reads; what the access then does, it does with the place as the
error has left it. -/
def State.meet (s : State) (u : Upset) : State :=
  match u.site with
  | .array arr addr => s.strikeArray arr addr u.err
  | .hbm g => s.strikeHbm g u.err
  | .elem e => s.strikeElem e u.err

/-- The errors that the accesses of this step meet. -/
def State.meetAll (s : State) : State := if s.upsets.isEmpty then s else s.upsets.foldl State.meet { s with upsets := [] }

end Sys2Proof.Machine
end

