-- ==== Sys2Proof/Machine/Upkeep.lean ====
section
/-! DEFINITION. What the device does to its storage on its own (R55, R77 to R82, R84, R85, R87, R89 to R91, R97, R125 to R127): scrubbing and
sweeping, refresh, disturbance trackers, the retirement and rebuild of memory channels. -/
namespace Sys2Proof.Machine

/-! ### Visits of the scrubbers (R77 to R80, R82, R97, R125, R126) -/

/-- R126: a sweeper has been at a place in this pass. -/
def State.seenAt (s : State) (x : Site) : State := s.mapPkg fun p => { p with visited := if p.visited.contains x then p.visited else x :: p.visited }

/-- SLICE_SCRUB_VISIT (R77 to R80, R82, R125): `err` 0 none, 1 correctable, 2 of data, 3 of the tag. Log entries 32 (DESIGN CHOICE), 77 (DESIGN CHOICE). -/
def execSliceScrubVisit (arr addr err : Nat) (s : State) : Out :=
  .next (if arr > 3 ∨ (arr = 0 ∧ addr / 2 * 64 / Config.sliceBytes ≥ 192) then s
    else ((s.strikeArray arr addr err).sweepArray arr addr).seenAt (.array arr addr))

/-- BANK_STARVATION (R55): who is served first at a bank changes no state that the model holds: an access performs in one step. Log entry 78 (DESIGN CHOICE). -/
def execBankStarvation (_core _bank _who : Nat) (s : State) : Out := .next s

/-! ### Channels (R90) -/

/-- CHAN_RETIRE_WRITE (R90, R91). -/
def execChanRetireWrite (v : W64) (s : State) : Out := .next ((s.chanRetireWrite v).orKeep s)
/-- CHANNEL_TRAINING_FAIL (R90). -/
def execChannelTrainingFail (stack ch : Nat) (s : State) : Out := .next (s.channelFails stack ch 1)
/-- CHAN_SECOND_FAIL (R90): a second failure; a stack with no retired channel has none. -/
def execChanSecondFail (stack ch : Nat) (s : State) : Out :=
  .next (if (s.stackOf stack).st = 0 then s else s.channelFails stack ch 2)

/-- STRIPE_REBUILD (R90): the next stripe has its copy; bytes and tags read as before. -/
def execStripeRebuild (stack : Nat) (s : State) : Out :=
  .next (if stack ≥ 8 ∨ (s.stackOf stack).st ≠ 1 then s
    else s.mapPkg fun p => { p with stk := Tbl.upd Stack.init p.stk stack fun x =>
      { x with rbPtr := x.rbPtr + 1, st := if x.rbPtr + 1 = 0x800000 then 2 else 1 } })

/-- R97: whether a lent granule stays: the lease of its own block is ACTIVE or RECLAIMING and carries its tag. -/
def State.leaseHolds (s : State) (g : Nat) (t : Tag) : Bool :=
  s.pkg.leases.any fun l => l.2.block == g * 64 / 0x80000000 && (l.2.st == 2 || l.2.st == 3) && l.2.ltag == t

/-- HBM_SCRUB_VISIT (R79, R85, R90, R97, R125): `err` 0 none, 1 correctable, else uncorrectable. Log entry 32 (DESIGN CHOICE). -/
def execHbmScrubVisit (gran err : Nat) (s : State) : Out :=
  .next (
    if gran * 64 ≥ Config.hbmBytes then s
    else
      let s := s.strikeHbm gran (min err 2)
      (s.mapHbm gran fun e =>
        if e.lease then (if s.leaseHolds gran e.tag then some e else none) else s.sweptGran e).seenAt (.hbm gran))

/-! ### Refresh (R87): bank ((stack × 32 + channel) × 4 + pseudo-channel) × 256 + number -/

/-- Log entry 77 (DESIGN CHOICE). -/
def pcBanks (pc : Nat) : List Nat := (List.range (min Config.memBanks 256)).map (pc * 256 + ·)
def State.mbank (s : State) (b : Nat) : MBank := Tbl.get MBank.init s.pkg.mbanks b
def State.mapBank (s : State) (b : Nat) (f : MBank → MBank) : State := s.mapPkg fun p => { p with mbanks := Tbl.upd MBank.init p.mbanks b f }

/-- REFRESH_WINDOW_BOUNDARY (R87): every bank's debt rises; a pseudo-channel with a bank at 9 begins its burst, which its channel counts. -/
def execRefreshWindowBoundary (stack : Nat) (s : State) : Out :=
  .next (
    let pcs := (List.range 32).flatMap fun ch => (List.range (min Config.pseudoChannels 4)).map fun p => (stack * 32 + ch) * 4 + p
    if stack ≥ 8 then s
    else pcs.foldl (fun s pc =>
      let s := (pcBanks pc).foldl (fun s b => s.mapBank b fun x => { x with debt := min 9 (x.debt + 1) }) s
      if (pcBanks pc).any (fun b => (s.mbank b).debt == 9 && !(s.mbank b).burst) then
        ((pcBanks pc).foldl (fun s b => s.mapBank b fun x => { x with burst := true, busy := true }) s).mapPkg fun p =>
          { p with chanBurst := Tbl.upd 0 p.chanBurst (pc / 4) satInc }
      else s) s)

/-- PER_BANK_REFRESH (R87). Log entry 78 (DESIGN CHOICE). -/
def execPerBankRefresh (bank : Nat) (s : State) : Out :=
  let x := s.mbank bank
  .next (if x.debt = 0 ∨ x.busy then s else s.mapBank bank fun x => { x with busy := true })

/-- REFRESH_END (R87): a per-bank refresh, or an all-bank refresh of a burst, which goes on until every debt is 0. -/
def execRefreshEnd (bank : Nat) (s : State) : Out :=
  let x := s.mbank bank
  .next (
    if x.busy = false then s
    else if x.burst then
      let l := pcBanks (bank / 256)
      let s := l.foldl (fun s b => s.mapBank b fun x => { x with debt := x.debt - 1 }) s
      if l.all fun b => (s.mbank b).debt == 0 then l.foldl (fun s b => s.mapBank b fun x => { x with burst := false, busy := false }) s else s
    else s.mapBank bank fun x => { x with debt := x.debt - 1, busy := false })

/-! ### Disturbance trackers (R89) -/

/-- The trackers after an activation of a row by a slot. -/
def trackRow (l : List Track) (row slot : Nat) : List Track :=
  let i := l.findIdx (·.row == row)
  if i < l.length then
    updAt l i fun t =>
      if t.slot = slot then { t with count := t.count + 1, conf := min 15 (t.conf + 1) }
      else if t.conf ≤ 1 then { t with count := t.count + 1, slot := slot, conf := 1 }
      else { t with count := t.count + 1, conf := t.conf - 1 }
  else if l.length < 16 then l ++ [⟨row, 1, slot, 1⟩]
  else
    let least := l.foldl (fun m t => min m t.count) (l.headD ⟨0, 0, 0, 0⟩).count
    updAt l (l.findIdx (·.count == least)) fun t => ⟨row, t.count + 1, slot, 1⟩

/-- ROW_ACTIVATION (R89): the tracker; at DIST_LIMIT the mitigation, charged to the attributed slot; at DIST_THROTTLE its throttling. -/
def execRowActivation (bank row slot : Nat) (s : State) : Out :=
  .next (
    let l := trackRow (s.mbank bank).track row slot
    match l.find? (·.row == row) with
    | none => s
    | some t =>
      if t.count < s.pkg.distLimit.toNat then s.mapBank bank fun x => { x with track := l }
      else
        let n := Tbl.get 0 (s.mbank bank).mitig t.slot + 1
        let limit := s.pkg.distThrottle.toNat
        let s := (s.mapCtx t.slot fun x => { x with bwCharge := x.bwCharge + 32768 }).mapBank bank fun x => { x with
          track := l.map fun y => if y.row = row then { y with count := 0 } else y
          mitig := Tbl.put 0 x.mitig t.slot n
          throttled := if n = limit then addOnce t.slot x.throttled else x.throttled }
        if n = limit then s.event (bank / 2 ^ 16) 0x51 t.slot [t.slot, bank / 2 ^ 15, bank / 2 ^ 10 % 32, bank % 256, row] else s)

/-- DISTURB_INTERVAL_RESET (R89). -/
def execDisturbIntervalReset (bank : Nat) (s : State) : Out :=
  .next (s.mapBank bank fun x => { x with track := [], mitig := [], throttled := [] })

/-! ### Tag sweepers and passes (R125 to R127) -/

/-- A number for an entry of a list, from what tells it from the others; it stays the entry's when an earlier one leaves the list. -/
def entryNum (l : List Nat) : Nat := l.foldl (fun a x => a * 2 ^ 64 + x) 1
def Tlb.num (t : Tlb) : Nat := entryNum [t.slot, t.gen, t.va, t.size]
def WalkEnt.num (e : WalkEnt) : Nat := entryNum [e.slot, e.gen, e.addr]
def FRec.num (r : FRec) : Nat := entryNum [r.slot, r.gen, (if r.stage2 then 1 else 0), r.addr / 65536, if r.wr then 1 else 0]
def Pillow.num (e : Pillow) : Nat := entryNum [e.task, (if e.ground then 1 else 0), e.gran, if e.isArgs then 1 else 0]
def QEnt.id (e : QEnt) : Nat := entryNum [e.ref.toNat, e.num, match e.resumed with | some g => g + 1 | none => 0]

/-- R126: the name of an element among those visited: an entry of a list goes by its number. -/
def State.nameOf (s : State) (e : Elem) : Elem :=
  let at' {α : Type} (l : List α) (f : α → Nat) (i : Nat) : Nat := match l[i]? with | some x => f x | none => 0
  match e with
  | .pillow c i => .pillow c (at' (s.core c).pillow Pillow.num i)
  | .mq c i => .mq c (at' (s.core c).mq Ent.num i)
  | .vq c i => .vq c (at' (s.core c).vq Ent.num i)
  | .cq c i => .cq c (at' (s.core c).cq Copy.seq i)
  | .l1 c i => .l1 c (at' (s.core c).l1 Tlb.num i)
  | .coreQ c i => .coreQ c (at' (s.core c).queue QEnt.id i)
  | .bayQ b i => .bayQ b (at' (s.bay b).queue QEnt.id i)
  | .dieQ d i => .dieQ d (at' (s.die d).queue QEnt.id i)
  | .spill d i => .spill d (at' (s.die d).spill QEnt.id i)
  | .l2 d i => .l2 d (at' (s.die d).l2 Tlb.num i)
  | .walkCache d i => .walkCache d (at' (s.die d).walkCache WalkEnt.num i)
  | .frec d i => .frec d (at' (s.die d).frecs FRec.num i)
  | e => e

/-- TAG_SWEEP_VISIT (R81, R125, R126): an element more than 511 generations old takes the zero state, and its poison goes with it. -/
def execTagSweepVisit (e : Elem) (s : State) : Out :=
  .next ((match s.elemTag e with
    | none => s
    | some x => if s.stale x.1 then s.elemZero e else s).seenAt (.elem (s.nameOf e)))

/-- The elements of a table, of a list. -/
def elemsOf {α : Type} (t : Tbl α) (f : Nat → Elem) : List Site := t.map fun x => .elem (f x.1)
def placesOf {α : Type} (l : List α) (num : α → Nat) (f : Nat → Elem) : List Site := l.map fun x => .elem (f (num x))

def Strand.sites (n : Nat) (x : Strand) : List Site :=
  elemsOf x.sregs (.scalar n) ++ elemsOf x.pregs (.pred n) ++ elemsOf x.ctl (.ctl n) ++ (if x.pc = zReg then [] else [.elem (.pc n)])
def Core.sites (c : Nat) (x : Core) : List Site :=
  elemsOf x.vregs (.vreg c) ++ elemsOf x.banks (.bank c) ++ elemsOf x.pegs (.peg c) ++ elemsOf x.bobs (.bob c) ++ elemsOf x.tplA (.tplActive c) ++
    elemsOf x.tplS (.tplStandby c) ++ elemsOf x.perf (.perf c) ++ placesOf x.pillow Pillow.num (.pillow c) ++ placesOf x.mq Ent.num (.mq c) ++ placesOf x.vq Ent.num (.vq c) ++
    placesOf x.cq Copy.seq (.cq c) ++ placesOf x.l1 Tlb.num (.l1 c) ++ placesOf x.queue QEnt.id (.coreQ c)
def Bay.sites (b : Nat) (x : Bay) : List Site :=
  placesOf x.queue QEnt.id (.bayQ b) ++ x.lines.flatMap fun l =>
    let half (i : Nat) : List Site := [.array 2 (b * 2 ^ 18 + 4 * l.1 + 2 * i), .array 2 (b * 2 ^ 18 + 4 * l.1 + 2 * i + 1)]
    (if l.2.s0.isSome then half 0 else []) ++ (if l.2.s1.isSome then half 1 else [])
def Die.sites (d : Nat) (x : Die) : List Site :=
  x.sync.map (fun v => .array 1 (d * 2 ^ 20 + v.1)) ++ elemsOf x.twins (.twin d) ++ elemsOf x.mcast (.mcast d) ++ placesOf x.l2 Tlb.num (.l2 d) ++
    placesOf x.walkCache WalkEnt.num (.walkCache d) ++ placesOf x.frecs FRec.num (.frec d) ++ placesOf x.queue QEnt.id (.dieQ d) ++ placesOf x.spill QEnt.id (.spill d) ++
    elemsOf (x.store.filter fun e => e.2.st != .free) (.store d) ++ x.bays.flatMap fun b => b.2.sites (6 * d + b.1)

/-- R111, R125: every element that holds anything but the zero state; a visit to any other does nothing. Log entry 76 (DEDUCED). -/
def State.sites (s : State) : List Site :=
  s.hbm.side.map (fun g => .hbm g.1) ++ s.ground.side.flatMap (fun g => [.array 0 (2 * g.1), .array 0 (2 * g.1 + 1)]) ++ s.strands.flatMap (fun x => x.2.sites x.1) ++
    s.cores.flatMap (fun x => x.2.sites x.1) ++ s.dies.flatMap fun x => x.2.sites x.1

/-- SWEEP_PASS_END (R78, R90, R97, R126, R127): once every element has been visited. Log entry 76 (DEDUCED). -/
def execSweepPassEnd (s : State) : Out :=
  .next (
    if s.sites.all s.pkg.visited.contains then
      let slots := List.range 64
      let s' := slots.foldl (fun s k => s.mapCtx k fun x => { x with genLw := Tbl.get 0 s.pkg.passGen k }) s
      let s' := allDies.foldl (fun s d => s.mapDie d fun x => { x with ceSeen := [] }) s'
      s'.mapPkg fun p => { p with
        passGen := slots.foldl (fun t k => Tbl.put 0 t k (s.ctxOf k).gen) []
        low := p.lgen
        chanUnc := []
        visited := [] }
    else s)

end Sys2Proof.Machine
end

