-- ==== Sys2Proof/Machine/HostQueue.lean ====
section
/-! DEFINITION. Host launch queues (R221 to R226, R232): their control register, doorbells, fetching of packets, completion records, and
teardown. -/
namespace Sys2Proof.Machine

/-! ### Teardown (R232) -/

/-- R232 steps 2 and 4: what a launch has not dispatched is ended with TEARDOWN: its targets latch it and its pending successors fail. Log entry 19 (DEDUCED). -/
def State.endLaunch (s : State) (r : BitVec 32) (q : Nat) : State :=
  let e := s.storeEnt r
  if e.st = .free ∨ (e.st = .live ∧ e.total ≤ e.next) then s
  else
    let s : State := if e.st = .pending ∨ e.next ≤ e.ended then s.freeEnt r
      else s.mapEnt r fun e => { e with total := e.next, failed := if e.failed = 0 then cTeardown else e.failed }
    let s := (pktTargets e.pkt).foldl (fun s w => s.targetDo e.slot e.gen w cTeardown) s
    let s := s.endUnrun e r cTeardown (if e.st = .pending then 0 else e.next) e.total
    if e.failed = 0 then failSuccs 4097 (pktSucc e.pkt) e.slot e.gen cTeardown (some q) s else s

/-- The launches that belong to a queue, in the order of their acceptance (R222). -/
def State.launchesOf (s : State) (slot q : Nat) : List (BitVec 32) :=
  let l := allDies.flatMap fun d => ((s.die d).store.filter fun e => e.2.slot == slot && e.2.q == some q && e.2.st != StoreSt.free).map fun e =>
    (e.2.order, refOf e.2.epoch.toNat d e.1)
  (l.insertionSort fun a b => a.1 ≤ b.1).map (·.2)

/-- R232 steps 2, 4 and 5: launches end, each after those of them that name it as a successor, so that it gets the record of a dependant
that has failed. Log entry 81 (DEDUCED). -/
def endInOrder (q : Nat) : Nat → List (BitVec 32) → State → State
  | 0, _, s => s
  | fuel + 1, l, s =>
    let after (a r : BitVec 32) : Bool := a != r && (s.storeEnt a).st != .free && (pktSucc (s.storeEnt a).pkt).contains r
    match (l.find? fun r => !(l.any fun a => after a r)).or l.head? with
    | none => s
    | some r => endInOrder q fuel (l.erase r) (s.endLaunch r q)
def State.endLaunches (s : State) (slot q : Nat) : State := let l := s.launchesOf slot q; endInOrder q l.length l s

/-- TD written 1 to an enabled queue. Log entry 81 (DEDUCED). -/
def State.startTeardown (s : State) (slot q : Nat) : State :=
  (s.mapLq slot q fun x => { x with td := true, full := false, tdUntil := s.ref.toNat + (s.ctxOf slot).tdWindow.toNat * 1000, tdCount := none }).endLaunches slot q

/-! ### LQ_CTL (R221, R232) -/

/-- R221, R232, R438: a write of LQ_CTL; records that wait stay. Log entries 81 (DEDUCED), 125 (DESIGN CHOICE). -/
def State.ctlWrite (s : State) (slot q : Nat) (v : W64) : Chk State :=
  let w := v.toNat
  let x := s.lqOf slot q
  let size := bits w 4 4
  if w / 2 ^ 16 ≠ 0 ∨ bits w 8 4 ≠ 0 ∨ bits w 1 3 ≠ 0 then trapOf cEncoding
  else if x.td ∨ (bit w 0 ∧ (size < 4 ∨ 12 < size)) then trapOf cOperand
  else if bit w 15 then .ok (if x.en then s.startTeardown slot q else s)
  else .ok (s.mapLq slot q fun x => { x with en := bit w 0, size := size, loc := bit w 12, die := bits w 13 2, full := false })

/-- The offset of a register of queue `q`. -/
def lqOff (q r : Nat) : Nat := 0x40 * q + r

/-- LAUNCH_QUEUE_ENABLE (R221). -/
def execLaunchQueueEnable (slot q : Nat) (v : W64) (s : State) : Out :=
  .next (if slot > 63 ∨ q > 3 ∨ s.shut slot then s else s.hostTry slot (lqOff q 0x10) false (s.ctlWrite slot q v))

/-- TEARDOWN_START (R232): a write of TD = 1 that keeps the other fields. -/
def execTeardownStart (slot q : Nat) (s : State) : Out :=
  let x := s.lqOf slot q
  let v := 0x8000 + (if x.en then 1 else 0) + x.size * 16 + (if x.loc then 2 ^ 12 else 0) + x.die * 2 ^ 13
  .next (if slot > 63 ∨ q > 3 ∨ s.shut slot then s else s.hostTry slot (lqOff q 0x10) false (s.ctlWrite slot q (BitVec.ofNat 64 v)))

/-- LAUNCH_QUEUE_DOORBELL (R221, R222): the producer index. -/
def execLaunchQueueDoorbell (slot q : Nat) (pi : BitVec 32) (s : State) : Out :=
  .next (if slot > 63 ∨ q > 3 ∨ s.shut slot then s else s.mapLq slot q fun x => { x with pi := pi })

/-! ### Rings in memory -/

/-- Bytes of a ring of a slot, in host memory or at a device-physical address. -/
def State.ringBytes (s : State) (slot : Nat) (loc : Bool) (a n : Nat) : List Byte :=
  if loc then s.hostRead a n else s.bytesOf slot (s.ctxOf slot).gen.toNat (.hbm a) n
/-- A write to a ring; it sets no dirty bit (R46). Log entry 80 (DESIGN CHOICE). -/
def State.ringPut (s : State) (slot : Nat) (loc : Bool) (a : Nat) (d : List Byte) : State :=
  let gen := (s.ctxOf slot).gen.toNat
  if loc then s.hostWrite a d
  else if a + d.length > Config.hbmBytes then s
  else s.memWrite false (tagOf slot gen) (s.allowedCells slot gen (.hbm a) a d)
/-- R82: whether a ring lies on a frozen die. Log entry 80 (DESIGN CHOICE). -/
def State.ringFrozen (s : State) (loc : Bool) (a : Nat) : Bool := !loc && s.frozen (dieOfPa a)

/-- R121, R124: whether a ring's accesses on die `d` have to wait, as operations of a new generation, until every die and that launch machinery
have cut. -/
def State.ringEarly (s : State) (slot d : Nat) : Bool := s.tooNew (48 * d) slot (s.ctxOf slot).gen.toNat

/-! ### Packets (R222, R223) -/

/-- R223: room for another record, those that wait counted. -/
def LQueue.room (x : LQueue) : Bool := decide ((x.cpi - x.cci).toNat + x.waiting.length < 2 ^ x.size)

/-- The packet at LQ_CI is checked; FULL leaves it, any other answer consumes it with one record. Log entry 80 (DESIGN CHOICE). -/
def State.fetchPacket (s : State) (slot q : Nat) : State :=
  let x := s.lqOf slot q
  let gen := (s.ctxOf slot).gen.toNat
  let a := x.base.toNat + 256 * (x.ci.toNat % 2 ^ x.size)
  if x.en = false ∨ x.td ∨ x.ci = x.pi ∨ x.room = false ∨ s.frozen x.die ∨ s.ringFrozen x.loc a ∨ s.noImage ∨ s.ringEarly slot x.die then s
  else
    let p := BitVec.ofNat 2048 (ofLe (s.ringBytes slot x.loc a 256))
    let code := if !x.loc && s.poisonAt slot gen (.hbm a) 256 then cUncorrectable else s.pktCheck slot x.die p
    if code = cFull then s.mapLq slot q fun x => { x with full := true }
    else
      let s := s.mapLq slot q fun x => { x with ci := x.ci + 1, full := false }
      if code = 0 then
        let r := s.acceptPacket slot gen x.die p (some q)
        r.1.queueRecord slot q 1 0 r.2.toNat x.ci.toNat
      else s.queueRecord slot q 2 code 0 x.ci.toNat

/-- PACKET_FETCH (R187 to R196, R219, R220, R222 to R224). -/
def execPacketFetch (slot q : Nat) (s : State) : Out :=
  .next (if slot > 63 ∨ q > 3 ∨ (s.lqOf slot q).full then s else s.fetchPacket slot q)
/-- LAUNCH_RETRY (R223). -/
def execLaunchRetry (slot q : Nat) (s : State) : Out :=
  .next (if slot > 63 ∨ q > 3 ∨ (s.lqOf slot q).full = false then s else s.fetchPacket slot q)

/-! ### Completion records (R34, R223, R224, R440) -/

/-- COMPLETION_RECORD_WRITE: the first record that waits, with its PHASE; TYPE 4 ends the teardown. -/
def execCompletionRecordWrite (slot q : Nat) (s : State) : Out :=
  .next (
    let x := s.lqOf slot q
    let a := x.cbase.toNat + 16 * (x.cpi.toNat % 2 ^ x.size)
    match x.waiting with
    | [] => s
    | r :: t =>
      if (x.cpi - x.cci).toNat ≥ 2 ^ x.size ∨ s.ringFrozen x.loc a ∨ s.ringEarly slot x.die then s
      else
        let phase := if bit x.cpi.toNat x.size then 0 else 2 ^ 120
        let last := decide (r.toNat % 256 = 4)
        let s := s.ringPut slot x.loc a (leBytes 16 (r.toNat + phase))
        (s.mapLq slot q fun x => { x with
          waiting := t, cpi := x.cpi + 1, td := if last then false else x.td, en := if last then false else x.en
          tdCount := if last then none else x.tdCount }).signal slot (1 + q))

/-- R232 step 3, R254: the groups that remain are ended as contained groups. Log entry 81 (DEDUCED). -/
def State.expireGroups (s : State) (slot q : Nat) : State :=
  let mine := s.groups.filter fun g => g.2.slot == slot && g.2.q == some q && g.2.fail.isNone
  let s := ((mine.filter fun g => g.2.st != GState.saved).flatMap (·.2.cores)).foldl (fun s c => s.sealCore c) s
  mine.foldl (fun s g =>
    let why (s : State) (c : Nat) : Nat → TrapRec := fun k =>
      if mine.any (fun m => m.1 == k) then s.plainRec cTeardown 1 c else s.plainRec cContained 1 c
    if g.2.st = .saved then s.failGroup g.1 (s.plainRec cTeardown 1 (g.2.cores.headD 0))
    else g.2.cores.foldl (fun s c => s.contain c (why s c)) s) s

/-- TEARDOWN_WINDOW_EXPIRY (R224, R232, R254): the groups that remain are ended; the TYPE 4 record follows once they are gone. Log entries 12 (DESIGN CHOICE), 19 (DEDUCED), 81 (DEDUCED). -/
def execTeardownWindowExpiry (slot q : Nat) (s : State) : Out :=
  .next (
    let x := s.lqOf slot q
    if x.td = false ∨ s.ref.toNat < x.tdUntil then s
    else match x.tdCount with
      | none =>
        let n := (s.groups.filter fun g => g.2.slot == slot && g.2.q == some q && g.2.fail.isNone).length
        let s := ((s.endLaunches slot q).expireGroups slot q)
        s.mapLq slot q fun x => { x with tdCount := some n }
      | some n =>
        if (s.groups.any fun g => g.2.slot == slot && g.2.q == some q) ∨ s.launchesOf slot q ≠ [] ∨ x.waiting.any (fun r => r.toNat % 256 == 4) then s
        else s.queueRecord slot q 4 cTeardown 0 n)

end Sys2Proof.Machine
end

