-- ==== Sys2Proof/Machine/HostReg.lean ====
section
/-! DEFINITION. What the host writes (R33, R98, R257, R424, R432, R435 to R442, R444, R445, R447, R449 to R451): the blocks of registers behind the
BARs, event rings, MSI-X, mailboxes, the debug window, heap windows, resets, firmware and attestation, clock and power. -/
namespace Sys2Proof.Machine

/-- A refused write. -/
def encBad : Chk State := trapOf cEncoding
def opdBad : Chk State := trapOf cOperand
def privBad : Chk State := trapOf cPrivilege

/-! ### MSI-X (R440) -/

/-- R442: an entry of the table after reset: its vector is masked. -/
def msixInit : BitVec 128 := BitVec.ofNat 128 (2 ^ 96)
/-- A vector is unmasked: one message, if any is pending. -/
def State.unmask (s : State) (k vec : Nat) : State :=
  let p := Tbl.get false (s.fn k).msixPend vec
  let s := s.mapFn k fun f => { f with msixMask := Tbl.put true f.msixMask vec false, msixPend := Tbl.put false f.msixPend vec false }
  if p then s.send (.msix k vec) else s

/-- MSIX_UNMASK (R440). -/
def execMsixUnmask (fn vec : Nat) (s : State) : Out :=
  .next (if fn > 63 ∨ vec > 7 ∨ s.shut fn ∨ Tbl.get true (s.fn fn).msixMask vec = false then s
    else (s.unmask fn vec).mapFn fn fun f => { f with msixTbl := Tbl.upd msixInit f.msixTbl vec fun v => v &&& ~~~(BitVec.ofNat 128 (2 ^ 96)) })

/-- Words of the table: `o` the byte offset in entry `vec`; bit 0 of its last word is the mask. -/
def State.msixWrite (s : State) (k vec o size : Nat) (v : W64) : State :=
  let lo := 8 * o
  let keep (x : BitVec 128) : BitVec 128 := x &&& ~~~(BitVec.ofNat 128 ((2 ^ (8 * size) - 1) * 2 ^ lo))
  let s := s.mapFn k fun f => { f with msixTbl := Tbl.upd msixInit f.msixTbl vec fun x => keep x ||| BitVec.ofNat 128 (v.toNat * 2 ^ lo) }
  if o + size ≤ 12 then s
  else if bit (Tbl.get msixInit (s.fn k).msixTbl vec).toNat 96 then s.mapFn k fun f => { f with msixMask := Tbl.put true f.msixMask vec true }
  else s.unmask k vec

/-! ### Event rings (R439) -/

/-- EVENT_RECORD_WRITE (R176, R439, R440). -/
def execEventRecordWrite (fn : Nat) (s : State) : Out :=
  .next (match (s.fn fn).evBuf with
    | [] => s
    | r :: t => if fn > 63 ∨ (s.fn fn).evRoom = false then s else (s.mapFn fn fun f => { f with evBuf := t }).ringWrite fn r)

/-! ### The mailbox (R441) -/

/-- A word of a message at byte offset `o`. -/
def putWord (m : BitVec 512) (o size : Nat) (v : W64) : BitVec 512 :=
  (m &&& ~~~(BitVec.ofNat 512 ((2 ^ (8 * size) - 1) * 2 ^ (8 * o)))) ||| BitVec.ofNat 512 (v.toNat * 2 ^ (8 * o))

/-- A write to the message that goes to the VF (`dirIn`) or from it; byte 56 sends it, or is dropped while it is BUSY. -/
def State.mailWrite (s : State) (k : Nat) (dirIn : Bool) (o size : Nat) (v : W64) : State :=
  let f := s.fn k
  let busy := if dirIn then f.mbInBusy else f.mbOutBusy
  let send := o == 56
  if send ∧ busy then s.mapFn k fun f => { f with mbDrop := true }
  else
    let s := s.mapFn k fun f => if dirIn then { f with mbIn := putWord f.mbIn o size v, mbInBusy := f.mbInBusy || send }
      else { f with mbOut := putWord f.mbOut o size v, mbOutBusy := f.mbOutBusy || send }
    if send then (if dirIn then s.signal k 6 else s.signal 0 6) else s

/-- MAILBOX_SEND (R440 to R442); the PF writes IN through BAR 4. -/
def execMailboxSend (fn : Nat) (dirIn : Bool) (v : W64) (s : State) : Out :=
  .next (if fn = 0 ∨ fn > 63 ∨ s.shut fn ∨ (dirIn ∧ s.shut 0) then s else s.mailWrite fn dirIn 56 8 v)

/-- MAILBOX_BUSY_CLEAR (R441, R442): by the receiver, of OUT the PF. -/
def execMailboxBusyClear (fn : Nat) (dirIn : Bool) (s : State) : Out :=
  .next (if fn = 0 ∨ fn > 63 ∨ s.shut fn ∨ (dirIn = false ∧ s.shut 0) then s
    else s.mapFn fn fun f => if dirIn then { f with mbInBusy := false } else { f with mbOutBusy := false })

/-! ### Debug (R257, R320, R448, R449) -/

/-- Who may reach the port of a core: slot 0, JTAG (64) while its strap is high, a slot's own function. Log entry 43 (DESIGN CHOICE). -/
def State.mayDebug (s : State) (k c : Nat) : Bool :=
  decide (c < 192) && (k == 0 || (k == 64 && s.pkg.debugStrap) || (decide (k < 64) && (s.ctxOf k).dbgEn && s.maskBit k c))

/-- The strands of a core in a mask that a requester may act on. Log entry 82 (DESIGN CHOICE). -/
def State.dbgStrands (s : State) (k c mask : Nat) : List Nat :=
  (((List.range 4).filter (bit mask)).map (4 * c + ·)).filter fun n => (s.strand n).grp.isSome && (k == 0 || k == 64 || s.slotOf n == k)

def State.attach (s : State) (k c : Nat) : State :=
  s.mapCore c fun x => { x with port := some (x.port.getD k) }

/-- A halt request. -/
def State.haltStrands (s : State) (l : List Nat) : State :=
  (l.filter fun n => !(s.strand n).dbg).foldl (fun s n => (s.debugFrom n).mapStrand n fun x => { x with dbg := true, oneStep := false }) s

/-- A strand leaves DEBUG, past the BRK that it stands at; for one instruction if `step`. -/
def State.leaveDebug (s : State) (step : Bool) (l : List Nat) : State :=
  (l.filter fun n => (s.strand n).dbg).foldl (fun s n =>
    let t := s.tagOfStrand n
    (s.mapStrand n fun x =>
      { (if x.brkLen = 0 then x else x.setPc t (x.getPc t + BitVec.ofNat 64 x.brkLen)) with dbg := false, brkLen := 0, oneStep := step }).debugOver n) s

/-- DEBUG_ATTACH (R442, R449): the first requester has the port. Log entry 43 (DESIGN CHOICE). -/
def execDebugAttach (fn core : Nat) (s : State) : Out := .next (if s.shut fn = false ∧ s.mayDebug fn core then s.attach fn core else s)

/-- A request through the port of a core by the requester that holds it, whose function is in no reset (R442). -/
def State.viaPort (s : State) (core : Nat) (mask : Nat) (f : State → List Nat → State) : State :=
  match (s.core core).port with
  | none => s
  | some k => if s.shut k = false ∧ s.mayDebug k core then f s (s.dbgStrands k core mask) else s

/-- DEBUG_HALT (R257, R449). -/
def execDebugHalt (core : Nat) (mask : BitVec 4) (s : State) : Out := .next (s.viaPort core mask.toNat State.haltStrands)
/-- DEBUG_RESUME (R257, R320). -/
def execDebugResume (core : Nat) (mask : BitVec 4) (s : State) : Out := .next (s.viaPort core mask.toNat fun s => s.leaveDebug false)
/-- DEBUG_STEP (R257). -/
def execDebugStep (core : Nat) (mask : BitVec 4) (s : State) : Out := .next (s.viaPort core mask.toNat fun s => s.leaveDebug true)

/-- R449: a write of DBG_CTL by requester `k`. Log entry 82 (DESIGN CHOICE). -/
def State.dbgCtl (s : State) (k : Nat) (v : Nat) : Chk State :=
  let c := (s.fn k).dbgCore
  if bits v 1 3 ≠ 0 ∨ v / 2 ^ 16 ≠ 0 then encBad
  else
    let s := if bit v 0 then s.attach k c else s.mapCore c fun x => { x with port := if x.port = some k then none else x.port }
    if (s.core c).port ≠ some k then .ok s
    else
      let l (i : Nat) : List Nat := s.dbgStrands k c (bits v i 4)
      .ok ((((s.haltStrands (l 4)).leaveDebug false (l 8)).leaveDebug true (l 12)))

/-- R257, R449: the register that DBG_SEL names takes a value, as an access of the strand's slot and generation. Log entry 82 (DESIGN CHOICE). -/
def State.dbgSet (s : State) (n : Nat) (sel v : W64) : Chk State :=
  let t := s.tagOfStrand n
  let i := bits sel.toNat 16 12
  match bits sel.toNat 12 4 with
  | 0 => if i < 64 then .ok (s.setS n i v) else opdBad
  | 1 => if i < 8 then .ok (s.setP n i v) else opdBad
  | 2 => .ok (s.setPc n v)
  | 3 =>
    if i > 5 then opdBad
    else if i = nFPC ∧ fpcRzOk v = false then encBad
    else if i = nFPC ∧ fpcRmOk v = false then opdBad
    else .ok (s.setCtl n i v)
  | _ =>
    if s.vregOk n (i / 32) = false then opdBad
    else
      let put : BitVec 2048 → BitVec 2048 := fun r =>
        (r &&& ~~~(BitVec.ofNat 2048 ((2 ^ 64 - 1) * 2 ^ (64 * (i % 32))))) ||| BitVec.ofNat 2048 (v.toNat * 2 ^ (64 * (i % 32)))
      .ok (s.mapCore (coreOf n) fun x => { x with vregs := Tbl.upd zVReg x.vregs (s.vregIx n (i / 32)) fun y => y.part t 0 put })

/-- A write of DBG_DATA; one to a strand not in DEBUG is dropped. -/
def State.dbgData (s : State) (k : Nat) (v : W64) : Chk State :=
  let f := s.fn k
  let n := 4 * f.dbgCore + bits f.dbgSel.toNat 0 2
  if (s.core f.dbgCore).port ≠ some k ∨ (s.strand n).dbg = false ∨ (s.dbgStrands k f.dbgCore (2 ^ (n % 4))) = [] then .ok s
  else s.dbgSet n f.dbgSel v

/-- R257, R449: what a read of the register that DBG_SEL names gives, as an access of the strand's slot and generation; zero for a number
that names none. Log entry 82 (DESIGN CHOICE). -/
def State.dbgGet (s : State) (n : Nat) (sel : W64) : W64 :=
  let i := bits sel.toNat 16 12
  match bits sel.toNat 12 4 with
  | 0 => (s.strand n).s (s.tagOfStrand n) i
  | 1 => (s.strand n).p (s.tagOfStrand n) i
  | 2 => s.getPc n
  | 3 => s.getCtl n i
  | _ => if s.vregOk n (i / 32) = false then 0
    else BitVec.ofNat 64 (bits ((Tbl.get zVReg (s.core (coreOf n)).vregs (s.vregIx n (i / 32))).read (s.tagOfStrand n) 0).toNat (i % 32 * 64) 64)

/-- R257, R320, R449: what a read of the debug window at `o` gives function `k`: DBG_CORE, DBG_CTL, DBG_STAT, DBG_SEL, DBG_DATA; and, at the
place after them, A of the BRK that the selected strand stands at, for which R449 names no place. Log entry 82 (DESIGN CHOICE). -/
def State.dbgRead (s : State) (k o : Nat) : W64 :=
  let f := s.fn k
  let c := f.dbgCore
  let n := 4 * c + bits f.dbgSel.toNat 0 2
  let seen := (s.core c).port == some k && !(s.dbgStrands k c (2 ^ (n % 4))).isEmpty && (s.strand n).dbg
  if s.mayDebug k c = false then 0
  else match o with
    | 0x00 => BitVec.ofNat 64 c
    | 0x08 => if (s.core c).port = some k then 1 else 0
    | 0x10 => BitVec.ofNat 64 ((if (s.core c).port = some k then 1 else 0) + (if (s.core c).port.any (· != k) then 2 else 0) +
        (List.range 4).foldl (fun r i => r + if (s.strand (4 * c + i)).dbg then 2 ^ (4 + i) else 0) 0)
    | 0x18 => f.dbgSel
    | 0x20 => if seen then s.dbgGet n f.dbgSel else 0
    | 0x28 => if seen then (s.strand n).brkVal else 0
    | _ => 0

/-- R448: a write to the debug window by requester `k`; one by JTAG that is refused changes nothing. Log entry 43 (DESIGN CHOICE). -/
def State.portTry (s : State) (k off : Nat) (host : Bool) (x : Chk State) : State := if k = 64 then x.orKeep s else s.hostTry k off host x

/-- DEBUG_DATA_WRITE (R257, R448, R449). -/
def execDebugDataWrite (fn : Nat) (v : W64) (s : State) : Out :=
  .next (if s.shut fn ∨ s.mayDebug fn (s.fn fn).dbgCore = false then s else s.portTry fn 0x420 false (s.dbgData fn v))

/-- R449: the debug window. Log entry 82 (DESIGN CHOICE). -/
def State.dbgWrite (s : State) (k o : Nat) (v : W64) : Option (Chk State) :=
  let w := v.toNat
  let ans := s.mayDebug k (s.fn k).dbgCore
  let ask (x : Chk State) : Option (Chk State) := some (if ans then x else .ok s)
  match o with
  | 0x00 => some (
    if ¬(k = 0 ∨ (k = 64 ∧ s.pkg.debugStrap) ∨ (k < 64 ∧ (s.ctxOf k).dbgEn)) then .ok s
    else if w ≥ 256 then encBad else if w ≥ 192 then opdBad else .ok (s.mapFn k fun f => { f with dbgCore := w }))
  | 0x08 => ask (s.dbgCtl k w)
  | 0x10 => ask privBad
  | 0x18 => ask (
    if bits w 2 10 ≠ 0 ∨ w / 2 ^ 28 ≠ 0 then encBad else if bits w 12 4 > 4 then opdBad else .ok (s.mapFn k fun f => { f with dbgSel := v }))
  | 0x20 => ask (s.dbgData k v)
  | _ => none

/-! ### Firmware (R443, R444) -/

/-- The image of a bank: 0 as manufactured, else one more than its bytes as a number. Log entry 85 (DESIGN CHOICE). -/
def Package.flash (p : Package) (bank : Bool) : Nat := if bank then p.flash1 else p.flash0

/-- Bytes of an image. Log entry 11 (DESIGN CHOICE). -/
def imgField (img a n : Nat) : Nat := if img = 0 then Config.factory / 256 ^ a % 256 ^ n else (img - 1) / 256 ^ a % 256 ^ n

/-- R443: the sections of an image, in section order. -/
def imgSections (img : Nat) : List Nat := List.range (imgField img 6 2)
/-- R443: the digest an image gives for section `n`. -/
def imgDigest (img n : Nat) : BitVec 512 := BitVec.ofNat 512 (imgField img (0x300 + 64 * n) 64)
/-- R443: where the signature block stands. -/
def imgSig (img : Nat) : Nat := imgField img 16 8 - 256
/-- R444: the digest of the signer's key. Log entry 119 (PRESUMED). -/
def imgKey (img : Nat) : BitVec 512 := shake256 57 (imgField img (imgSig img) 57)

/-- R444: the step of verification that fails first, 0 for none; the fuses are constants. Log entries
11 (DESIGN CHOICE), 119 (PRESUMED). -/
def verifyStep (img : Nat) : Nat :=
  if imgField img 0 4 ≠ 0x4D534C4E ∨ imgField img 4 2 ≠ 1 then 1
  else if (List.range 4).all (fun n => Config.keyFuse n != some (imgKey img)) then 2
  else if ed448 (imgField img (imgSig img) 57) (imgField img (imgSig img + 64) 114) (imgSig img) (imgField img 0 (imgSig img)) = false then 3
  else if imgField img 8 4 < Config.minSvn then 4
  else if (imgSections img).any (fun n =>
    let len := imgField img (0x100 + 32 * n + 16) 8
    shake256 len (imgField img (imgField img (0x100 + 32 * n + 8) 8) len) != imgDigest img n) then 5
  else 0

/-- R444: the bank that runs after verification, and the step that failed when neither passes: an image that FW_CMD has written since the
last reset is tried first, then the other bank. Log entries 85 (DESIGN CHOICE), 117 (DEDUCED). -/
def Package.boot (p : Package) : Bool × Nat :=
  let b := p.fwBank != p.fwNew
  let first := verifyStep (p.flash b)
  if first = 0 then (b, 0)
  else if verifyStep (p.flash (!b)) = 0 then (!b, 0)
  else (b, first)

/-- R445: a measurement register takes so many bytes more, by SHAKE256. -/
def extend (m : BitVec 512) (n v : Nat) : BitVec 512 := shake256 (64 + n) (m.toNat + v * 2 ^ 512)
/-- R445: a measurement register takes the digests of the sections of some types. -/
def measTypes (img : Nat) (types : List Nat) (m : BitVec 512) : BitVec 512 :=
  ((imgSections img).filter fun n => types.contains (imgField img (0x100 + 32 * n) 4)).foldl (fun m n => extend m 64 (imgDigest img n).toNat) m
/-- R445: the measurements of an image. -/
def Package.measure (p : Package) : Package :=
  let img := p.flash p.fwBank
  { p with meas0 := extend p.meas0 68 ((imgKey img).toNat + imgField img 8 4 * 2 ^ 512), meas1 := measTypes img [1] p.meas1,
           meas2 := measTypes img [2, 3] p.meas2, meas3 := measTypes img [4, 5] p.meas3 }

/-- A write of FW_CMD: the staged image goes to the bank that does not run. -/
def State.fwWrite (s : State) (v : Nat) : Chk State :=
  let a := s.pkg.fwStage.toNat
  let img := 1 + ofLe (s.hbm.read false (s.slotTag 0) a (ofLe (s.hbm.read false (s.slotTag 0) (a + 16) 8)))
  if v > 1 then encBad
  else if v = 0 then .ok s
  else .ok (s.mapPkg fun p => if p.fwBank then { p with flash0 := img, fwNew := true } else { p with flash1 := img, fwNew := true })

/-- FW_CMD (R444, R451). -/
def execFwCmd (v : W64) (s : State) : Out := .next (if s.deaf 0 then s else s.hostTry 0 0x10018 false (s.fwWrite v.toNat))

/-! ### Attestation (R445) -/

/-- A write of ATT_CMD; ignored while a report is in progress. Log entry 82 (DESIGN CHOICE). -/
def State.attWrite (s : State) (v : Nat) : Chk State :=
  if v > 1 then encBad else if v = 0 ∨ s.pkg.attBusy then .ok s else .ok (s.mapPkg fun p => { p with attBusy := true })

/-- ATT_CMD (R445). -/
def execAttCmd (v : W64) (s : State) : Out := .next (if s.deaf 0 then s else s.hostTry 0 0x10078 false (s.attWrite v.toNat))

/-- R445: the report without its signature. Log entries 11 (DESIGN CHOICE), 85 (DESIGN CHOICE). -/
def State.report (s : State) : Nat :=
  let p := s.pkg
  let img := p.flash p.fwBank
  1 + 0x9416 * 256 ^ 2 + 1 * 256 ^ 4 + imgField img 12 4 * 256 ^ 8 + imgField img 8 4 * 256 ^ 12 + p.attNonce.toNat * 256 ^ 16 + p.meas0.toNat * 256 ^ 80 +
    p.meas1.toNat * 256 ^ 144 + p.meas2.toNat * 256 ^ 208 + p.meas3.toNat * 256 ^ 272 + s.ref.toNat * 256 ^ 336 +
    ((if p.debugStrap then 1 else 0) + (if p.errMode then 2 else 0)) * 256 ^ 344

/-- ATTESTATION_REPORT_DONE (R445). -/
def execAttestationReportDone (s : State) : Out :=
  .next (if s.pkg.attBusy = false then s
    else s.mapPkg fun p => { p with attBusy := false, attOut := BitVec.ofNat 4096 (s.report + (Config.sign s.report).toNat * 256 ^ 352) })

/-! ### Resets (R129, R442, R444, R450) -/

/-- R442: what a VF reset does to its function. Log entry 83 (DEDUCED). -/
def Fn.reset (f : Fn) : Fn :=
  { f with lq := [], gFault := .init, gResp := .init, hFault := .init, hResp := .init, evBase := 0, evSize := 0, evPi := 0, evCi := 0, evWb := 0, evLost := 0,
           mbOut := 0, mbIn := 0, mbOutBusy := false, mbInBusy := false, mbDrop := false, msixMask := [], msixTbl := [], resetting := true }

/-- VF_FUNCTION_LEVEL_RESET (R442). -/
def execVfFunctionLevelReset (fn : Nat) (s : State) : Out :=
  .next (if fn = 0 ∨ fn > 63 then s else (s.mapFn fn Fn.reset).logAll 0x01 fn [0])

/-- R66: a dirty sector of device memory goes, and what HBM holds beneath it is there again. -/
def TMem.restore (m : TMem) (g : Nat) (under : Gran × List Byte) : TMem :=
  { bytes := putCells (m.bytes.filter fun c => c.1 / 64 != g) (cellsAt (g * 64) under.2), side := Tbl.put Gran.zero m.side g under.1 }
/-- R442: the bay caches of die `d` lose what they hold. -/
def State.emptyBays (s : State) (d : Nat) : State :=
  (s.die d).bays.foldl (fun s b => b.2.lines.foldl (fun s l =>
    (l.2.sectors l.1).foldl (fun s e => match e.2.under with
      | some u => if l.2.peer.isNone ∧ e.2.dirty then { s with hbm := s.hbm.restore (e.1 / 64) u } else s
      | none => s) s) s) s

/-- R442: the tagged elements on die `d` take the zero state, and its queues with them. Log entry 84 (DEDUCED). -/
def State.wipeDie (s : State) (d : Nat) : State :=
  let here (c : Nat) : Bool := dieOfCore c == d
  let s := s.emptyBays d
  let s := ((s.die d).pubs).foldl (fun s p => s.pubFail p cContained) s
  let s := ((s.die d).syncWaits).foldl (fun s w => s.endSwait w cContained) s
  let s := ((s.die d).tasks).foldl (fun s t => s.removeTask d t.seq) s
  let s := (List.range 192).foldl (fun s i => s.mapStrand (d * 192 + i) fun x => { x with sregs := [], pregs := [], ctl := [], pc := zReg }) s
  let s := (List.range 48).foldl (fun s i => s.mapCore (d * 48 + i) fun x =>
    { Core.init with deficit := x.deficit, served := x.served, chargedAt := x.chargedAt, port := x.port, cmdSeq := x.cmdSeq }) s
  let s := s.mapDie d fun x =>
    { Die.init with spill := x.spill, spillBase := x.spillBase, stray := x.stray, ceSlice := x.ceSlice, ceBayc := x.ceBayc, ceSync := x.ceSync,
                    nextSeq := x.nextSeq, thermFreeze := x.thermFreeze, bbox := x.bbox, bbSeq := x.bbSeq, resetting := true }
  { s with
    flight := s.flight.filter fun a => match a.why with | .piece c _ _ _ => !(here c) | _ => true
    ground := ⟨s.ground.bytes.filter fun c => !(here (c.1 / Config.sliceBytes)), s.ground.side.filter fun g => !(here (g.1 * 64 / Config.sliceBytes))⟩ }

/-- A die reset (R442). -/
def State.dieReset (s : State) (mask : Nat) : State :=
  (allDies.filter (bit mask)).foldl (fun s d =>
    let s := s.logDie d 0x01 0 [1, mask]
    let s := (List.range 48).foldl (fun s i => s.contain (d * 48 + i) fun _ => s.plainRec cContained 1 (d * 48 + i)) s
    s.wipeDie d) s

/-- DIE_RESET (R442, R451). -/
def execDieReset (mask : BitVec 4) (s : State) : Out := .next (if s.deaf 0 then s else s.dieReset mask.toNat)

/-- A device reset (R129, R442, R444): all state of the device as after reset, but for the black boxes, the thermal freeze, the reference
counter, the flash and the strap; what the host holds and what was sent stay. Log entry 84 (DEDUCED). -/
def State.deviceReset (s : State) (cold : Bool) : State :=
  let boot := s.pkg.boot
  let p : Package :=
    { Package.init with flash0 := s.pkg.flash0, flash1 := s.pkg.flash1, fwBank := boot.1, debugStrap := s.pkg.debugStrap, resetting := true,
                        fwStatus := BitVec.ofNat 64 (boot.2 + if boot.1 then 256 else 0) }
  let p := if boot.2 = 0 then p.measure else p
  let s' : State :=
    { State.reset with host := s.host, sent := s.sent, ref := s.ref, cur := s.cur, inputs := s.inputs, cycle := s.cycle, free := s.free, nextId := s.nextId,
                       pkg := p,
                       dies := s.dies.map fun d => (d.1, { Die.init with bbox := d.2.bbox, bbSeq := if cold then 0 else d.2.bbSeq,
                                                                         thermFreeze := !cold && d.2.thermFreeze }) }
  allDies.foldl (fun s d => (s.logDie d 0x01 0 [if cold then 3 else 2]).logDie d 0x07 0 [boot.2]) s'

/-- DEV_RESET (R129, R442, R444, R445). -/
def execDevReset (s : State) : Out := .next (s.deviceReset false)
/-- COLD_RESET (R442, R447, R450). -/
def execColdReset (s : State) : Out := .next (s.deviceReset true)

/-- RESET_END (R442): kind 0 a VF's, 1 a die's, 2 the device's, 3 a cold one. -/
def execResetEnd (kind unit : Nat) (s : State) : Out :=
  .next (match kind with
    | 0 => s.mapFn unit fun f => { f with resetting := false }
    | 1 => s.mapDie unit fun x => { x with resetting := false }
    | _ => s.mapPkg fun p => { p with resetting := false })

/-- R450: the 32 bytes of a black-box entry. -/
def BoxEnt.bytes (e : BoxEnt) : List Byte :=
  let b := leBytes 8 e.ref.toNat ++ leBytes 4 e.seq ++ [e.code, e.unit, e.slot % 64, e.core / 48 % 4 * 64 + e.core % 48].flatMap (leBytes 1) ++ leBytes 14 e.detail
  b ++ leBytes 2 (crc16 b)
/-- R451: BB_HEAD of a die. -/
def Die.bbHead (x : Die) : W64 := BitVec.ofNat 64 (x.bbSeq % 4096 + x.bbSeq * 2 ^ 32)

/-- POWER_LOSS (R450): everything in the device is gone; the black boxes are lost, or left with a torn last entry, whose CRC fails. Log entry 86 (DESIGN CHOICE). -/
def execPowerLoss (s : State) : Out :=
  let lost := Config.pick s.free 2 % 2 == 0
  .next { State.reset with
    host := s.host, sent := s.sent, ref := s.ref, cur := s.cur, inputs := s.inputs, cycle := s.cycle, free := s.free + 1, nextId := s.nextId
    pkg := { Package.init with flash0 := s.pkg.flash0, flash1 := s.pkg.flash1, fwBank := s.pkg.fwBank, fwNew := s.pkg.fwNew, debugStrap := s.pkg.debugStrap, resetting := true }
    dies := if lost then [] else s.dies.map fun d => (d.1, { Die.init with bbox := Tbl.del d.2.bbox ((d.2.bbSeq + 2 ^ 32 - 1) % 4096) }) }

/-! ### Clock and temperature (R447) -/

/-- TEMP of a die. -/
def Package.temp (p : Package) (d : Nat) : Nat := (Tbl.get 0 p.temps d).toNat
/-- R447: module power or a die's junction is above its limit. -/
def Package.above (p : Package) : Bool := p.pwrLimit.toNat < p.pwrNow.toNat || allDies.any fun d => decide (105 < p.temp d)
/-- R447: both are below 95% of their limits. -/
def Package.below (p : Package) : Bool :=
  p.pwrNow.toNat * 100 < p.pwrLimit.toNat * 95 && allDies.all fun d => decide (p.temp d * 100 < 105 * 95)
/-- The sensors read anew, what the outside world gives. Log entry 91 (DESIGN CHOICE). -/
def State.sense (s : State) : State :=
  { s.mapPkg fun p => { p with pwrNow := Config.sensor s.free 0, temps := allDies.map fun d => (d, Config.sensor s.free (d + 1)) } with free := s.free + 1 }

/-- CLOCK_STEP (R447): by 100 MHz between 1,500 and 3,000, down over a limit and up under both. Log entry 91 (DESIGN CHOICE). -/
def execClockStep (up : Bool) (s : State) : Out :=
  let n := if up then s.pkg.clock + 100 else s.pkg.clock - 100
  .next (if n < 1500 ∨ 3000 < n ∨ (if up then s.pkg.below else s.pkg.above) = false then s.sense
    else (((s.mapPkg fun p => { p with clock := n }).event 0 0x5B 0 [n]).logAll 0x06 0 [n]).sense)

/-- THERMAL_TRIP (R82, R447): at 115 °C. Log entry 91 (DESIGN CHOICE). -/
def execThermalTrip (s : State) : Out :=
  .next ((if allDies.any fun d => decide (115 ≤ s.pkg.temp d) then allDies.foldl (fun s d => s.freeze d true) s else s).sense)

/-! ### The registers of R451 -/

/-- A write at `o` of the administration registers. -/
def State.adminWrite (s : State) (o : Nat) (v : W64) : Option (Chk State) :=
  let w := v.toNat
  if 0x100 ≤ o ∧ o < 0x140 then some (.ok (s.mapPkg fun p => { p with attNonce := putWord p.attNonce (o - 0x100) 8 v }))
  else if (0x200 ≤ o ∧ o < 0x400) ∨ (0x1000 ≤ o ∧ o < 0x2000) then some privBad
  else match o with
    | 0x000 => some (if w ≥ 16 then encBad else .ok (s.dieReset w))
    | 0x008 => some (if w > 1 then encBad else .ok (if w = 1 then s.deviceReset false else s))
    | 0x010 => some (
      if w % 2 ^ 16 ≠ 0 ∨ w ≥ 2 ^ 40 then encBad
      else if s.owner (w / 0x80000000) ≠ 0 then opdBad
      else .ok (s.mapPkg fun p => { p with fwStage := v }))
    | 0x018 => some (s.fwWrite w)
    | 0x028 => some (if w ≥ 2 ^ 12 then encBad else if w < 1000 ∨ 2800 < w then opdBad else .ok (s.mapPkg fun p => { p with pwrLimit := BitVec.ofNat 12 w }))
    | 0x078 => some (s.attWrite w)
    | _ => if o = 0x020 ∨ (0x030 ≤ o ∧ o ≤ 0x070) ∨ o = 0x080 then some privBad else none

/-! ### A function's block (R436) -/

/-- The width of the register at offset `o` of a block, where it has one; words of the mailbox and of the MSI-X table have either. Log entry 82 (DESIGN CHOICE). -/
def regSize (o : Nat) : Nat :=
  if o < 0x100 then (if o % 0x40 < 0x18 then 8 else 4)
  else if o < 0x140 then (if o % 0x10 = 0 then 8 else 4)
  else if 0x200 ≤ o ∧ o < 0x220 then (if o = 0x200 ∨ o = 0x210 then 8 else 4)
  else if 0x300 ≤ o ∧ o < 0x380 then 0
  else if o = 0x500 then 4
  else if 0x2000 ≤ o ∧ o < 0x4000 then 0
  else 8

/-- A ring of the page-request queues: 0 guest fault, 1 guest response, 2 host fault, 3 host response. Log entry 83 (DEDUCED). -/
def State.ringReg (s : State) (k g r : Nat) (v : W64) : Option (Chk State) :=
  let put (f : Ring → Ring) : Chk State := .ok (s.mapFn k fun x => match g with
    | 0 => { x with gFault := f x.gFault }
    | 1 => { x with gResp := f x.gResp }
    | 2 => { x with hFault := f x.hFault }
    | _ => { x with hResp := f x.hResp })
  match r with
  | 0 => some (if bits v.toNat 5 7 ≠ 0 then encBad else put fun x => { x with base := BitVec.ofNat 64 (v.toNat / 4096 * 4096), size := v.toNat % 32 })
  | 8 =>
    if g % 2 = 0 then some privBad
    else some (.ok (s.ringBell k (g == 3) (v.setWidth 32)))
  | 12 => some (if g % 2 = 1 then privBad else put fun x => { x with ci := v.setWidth 32 })
  | _ => none

/-- A launch queue's register. Log entry 82 (DESIGN CHOICE). -/
def State.lqReg (s : State) (k q r : Nat) (v : W64) : Option (Chk State) :=
  match r with
  | 0x00 => some (if v.toNat % 256 ≠ 0 then encBad else .ok (s.mapLq k q fun x => { x with base := v }))
  | 0x08 => some (if v.toNat % 16 ≠ 0 then encBad else .ok (s.mapLq k q fun x => { x with cbase := v }))
  | 0x10 => some (s.ctlWrite k q v)
  | 0x18 => some (.ok (s.mapLq k q fun x => { x with pi := v.setWidth 32 }))
  | 0x1C => some privBad
  | 0x20 => some privBad
  | 0x24 => some (.ok (s.mapLq k q fun x => { x with cci := v.setWidth 32 }))
  | _ => none

/-- An event ring's register. Log entry 83 (DEDUCED). -/
def State.evReg (s : State) (k r : Nat) (v : W64) : Option (Chk State) :=
  match r with
  | 0x00 => some (if bits v.toNat 5 7 ≠ 0 then encBad
    else .ok (s.mapFn k fun f => { f with evBase := BitVec.ofNat 64 (v.toNat / 4096 * 4096), evSize := v.toNat % 32 }))
  | 0x08 => some privBad
  | 0x0C => some (.ok (s.mapFn k fun f => { f with evCi := v.setWidth 32 }))
  | 0x10 => some (if v.toNat % 8 ≠ 0 then encBad else .ok (s.mapFn k fun f => { f with evWb := v }))
  | 0x18 => some privBad
  | _ => none

/-- A mailbox's register: OUT is the VF's to write, IN the PF's, BUSY its receiver's to clear. -/
def State.mbReg (s : State) (k o size : Nat) (v : W64) (host : Bool) : Option (Chk State) :=
  if k = 0 then none
  else if o < 0x40 then some (if host then privBad else .ok (s.mailWrite k false o size v))
  else if o < 0x80 then some (if host then .ok (s.mailWrite k true (o - 0x40) size v) else privBad)
  else if o = 0x80 then
    some (if v.toNat ≥ 8 then encBad
      else .ok (s.mapFn k fun f => if host then { f with mbOutBusy := f.mbOutBusy && !(bit v.toNat 0) } else { f with mbInBusy := f.mbInBusy && !(bit v.toNat 1) }))
  else none

/-- A word of a borrow entry: words 0 to 2 are staged, an RZ bit among them refused at once; word 3 installs the entry (R98, R328, R436). -/
def State.borrowReg (s : State) (i w : Nat) (v : W64) : Chk State :=
  let f := s.fn 0
  if w < 3 then (if w = 0 ∧ v.toNat % 2 ^ 40 ≠ 0 then encBad else .ok (s.mapFn 0 fun f => { f with staged := stageWord f.staged 9 i w v }))
  else match s.borrowWrite i (BitVec.ofNat 256 (mergeWords f.staged 9 i 3 (wordOfBorrow (s.borrow i)).toNat v)) with
    | .ok t => .ok (t.mapFn 0 fun f => { f with staged := none })
    | .error e => .error e

/-- R436: a write to the block of function `k`: `none` for an offset or a width that names no register; `host` through BAR 4, `pf` through the
PF's BAR 0. Log entry 82 (DESIGN CHOICE). -/
def State.blockWrite (s : State) (k o size : Nat) (v : W64) (host pf : Bool) : Option (Chk State) :=
  let n := regSize o
  if ¬(size = 4 ∨ size = 8) ∨ o % size ≠ 0 ∨ (n ≠ 0 ∧ n ≠ size) then none
  else if o < 0x100 then s.lqReg k (o / 0x40) (o % 0x40) v
  else if o < 0x120 then s.ringReg k (o / 0x10 % 4) (o % 0x10) v
  else if o < 0x140 then
    (if host = false then (if o % 0x10 ∈ [0, 8, 12] then some privBad else none)
     else if k = 0 then none else s.ringReg k (o / 0x10 % 4) (o % 0x10) v)
  else if 0x200 ≤ o ∧ o < 0x220 then s.evReg k (o - 0x200) v
  else if 0x300 ≤ o ∧ o < 0x400 then s.mbReg k (o - 0x300) size v host
  else if 0x400 ≤ o ∧ o < 0x500 then s.dbgWrite k (o - 0x400) v
  else if o = 0x500 then some privBad
  else if o = 0x508 then some (if v.toNat ≥ 16 then encBad else .ok (s.mapFn k fun f => { f with bar2Win := v.toNat }))
  else if 0x2000 ≤ o ∧ o < 0x2080 then some (.ok (s.msixWrite k ((o - 0x2000) / 16) (o % 16) size v))
  else if 0x3000 ≤ o ∧ o < 0x3008 then some privBad
  else if pf = false then none
  else if 0x10000 ≤ o ∧ o < 0x12000 then s.adminWrite (o - 0x10000) v
  else if 0x20000 ≤ o ∧ o < 0x20800 then
    some (match s.leaseWrite ((o - 0x20000) / 8) v with | .ok t => .ok (t.mapFn 0 fun f => { f with staged := none }) | .error e => .error e)
  else if 0x30000 ≤ o ∧ o < 0x32000 then some (s.borrowReg ((o - 0x30000) / 32) ((o - 0x30000) / 8 % 4) v)
  else if 0x80000 ≤ o ∧ o < 0x100000 then some privBad
  else none

/-- HOST_REGISTER_WRITE (R432, R436 to R438, R442, R444, R448): a write of `size` bytes to an offset of BAR 0 of function `fn`, or of BAR 4 of
the PF; JTAG (64) has a debug window and nothing else. Log entry 43 (DESIGN CHOICE). -/
def execHostRegisterWrite (fn bar off size : Nat) (v : W64) (s : State) : Out :=
  .next (
    let host := bar == 4
    let k := if host then off / 0x10000 else fn
    let o := if host then off % 0x10000 else off
    let pf := bar == 0 && fn == 0
    let v := BitVec.ofNat 64 (v.toNat % 2 ^ (8 * size))
    if fn = 64 then (if bar = 0 ∧ 0x400 ≤ off ∧ off < 0x428 ∧ s.shut 64 = false then
        (match s.blockWrite 64 off size v false false with | some x => s.portTry 64 off false x | none => s) else s)
    else if fn > 63 ∨ s.deaf fn ∨ s.deaf k ∨ (s.noImage ∧ ¬(pf ∧ 0x10000 ≤ off ∧ off < 0x12000)) then s
    else if (bar ≠ 0 ∧ ¬(host ∧ fn = 0)) ∨ k > 63 then s.badAccess fn
    else match s.blockWrite k o size v host pf with
      | none => s.badAccess k
      | some x => s.hostTry k off host x)

/-! ### Heap windows (R424, R432, R437) -/

/-- BAR2_WIN_WRITE (R436, R437). -/
def execBar2WinWrite (fn : Nat) (v : W64) (s : State) : Out :=
  .next (if fn > 63 ∨ s.shut fn then s
    else s.hostTry fn 0x508 false (if v.toNat ≥ 16 then encBad else .ok (s.mapFn fn fun f => { f with bar2Win := v.toNat })))

/-- The device-physical address of offset `off` of a function's BAR 2, if `n` bytes lie in the heap. -/
def State.bar2At (s : State) (fn off n : Nat) : Option Nat :=
  let x := (s.fn fn).bar2Win * 2 ^ 36 + off
  let c := s.ctxOf fn
  if off + n ≤ 2 ^ 36 ∧ x + n ≤ c.heapLimit.toNat then some (c.heapOff.toNat + x) else none

/-- HOST_HEAP_WRITE (R121, R424, R432, R437); it comes to a die after its cut (`State.inputWaits`). Log entries 1 (DEDUCED), 53 (DEDUCED). -/
def execHostHeapWrite (fn off n : Nat) (data : BitVec 512) (s : State) : Out :=
  .next (
    if fn > 63 ∨ n > 64 ∨ s.shut fn then s
    else match s.bar2At fn off n with
      | none => s.badAccess fn
      | some a => if s.frozen (dieOfPa a) then s
        else if s.beforeCut fn a n then s
        else s.memWrite false (s.slotTag fn) (cellsAt a ((leBytes 64 data.toNat).take n)))

/-- R121, R432: whether a step from outside waits, and all behind it. -/
def State.inputWaits (s : State) (i : Instr) : Bool :=
  match i with
  | .hostHeapWrite fn off n _ => !(s.shut fn) && (match s.bar2At fn off n with | some a => s.beforeCut fn a n | none => false)
  | _ => false

/-- HOST_MEMORY_READ (R82, R176, R437, R444). While no image runs it returns all ones, as log entry 82 (DESIGN CHOICE) says of a register. At a frozen die it ends with bytes that the spec does not state. Log entry 27 (DEDUCED). -/
def execHostMemoryRead (fn off n : Nat) (s : State) : Out :=
  .next (
    if fn > 63 ∨ n > 64 then s
    else if s.noImage then s.send (.hostRead (List.replicate n 0xFF))
    else match s.bar2At fn off n with
      | none => (s.badAccess fn).send (.hostRead (List.replicate n 0xFF))
      | some a =>
        if s.frozen (dieOfPa a) then { s.send (.hostRead ((List.range n).map fun i => (Config.freeValue (s.free + i)).setWidth 8)) with free := s.free + n }
        else s.send (.hostRead (s.hbm.read false (s.slotTag fn) a n)))

/-! ### What the host reads (R33, R98, R221, R436, R437, R439 to R441, R449 to R451): a read is no step, and changes nothing but the count of
refused accesses -/

/-- R221: a register of a launch queue. -/
def LQueue.regAt (x : LQueue) (r : Nat) : Option Nat :=
  match r with
  | 0x00 => some x.base.toNat
  | 0x08 => some x.cbase.toNat
  | 0x10 => some ((if x.en then 1 else 0) + x.size * 16 + (if x.loc then 2 ^ 12 else 0) + x.die * 2 ^ 13 + (if x.td then 2 ^ 15 else 0))
  | 0x18 => some x.pi.toNat
  | 0x1C => some x.ci.toNat
  | 0x20 => some x.cpi.toNat
  | 0x24 => some x.cci.toNat
  | _ => none
/-- R33: a register of a ring. -/
def Ring.regAt (x : Ring) (r : Nat) : Option Nat :=
  match r with
  | 0 => some (x.base.toNat + x.size)
  | 8 => some x.pi.toNat
  | 12 => some x.ci.toNat
  | _ => none
/-- R33: the ring of a function at place `g`: 0 guest fault, 1 guest response, 2 host fault, 3 host response. -/
def Fn.ringAt (f : Fn) (g : Nat) : Ring := match g with | 0 => f.gFault | 1 => f.gResp | 2 => f.hFault | _ => f.hResp
/-- R439: a register of the event ring. -/
def Fn.evAt (f : Fn) (r : Nat) : Option Nat :=
  match r with
  | 0x00 => some (f.evBase.toNat + f.evSize)
  | 0x08 => some f.evPi.toNat
  | 0x0C => some f.evCi.toNat
  | 0x10 => some f.evWb.toNat
  | 0x18 => some f.evLost.toNat
  | _ => none
/-- R441: a word of the mailbox, or MB_STAT. -/
def Fn.mbAt (f : Fn) (o size : Nat) : Option Nat :=
  if o < 0x40 then some (bits f.mbOut.toNat (8 * o) (8 * size))
  else if o < 0x80 then some (bits f.mbIn.toNat (8 * (o - 0x40)) (8 * size))
  else if o = 0x80 then some ((if f.mbOutBusy then 1 else 0) + (if f.mbInBusy then 2 else 0) + (if f.mbDrop then 4 else 0))
  else none

/-- R451: an administration register. -/
def State.adminAt (s : State) (o : Nat) : Option Nat :=
  let p := s.pkg
  if o % 8 ≠ 0 then none
  else if 0x100 ≤ o ∧ o < 0x140 then some (bits p.attNonce.toNat (8 * (o - 0x100)) 64)
  else if 0x200 ≤ o ∧ o < 0x400 then some (bits p.attOut.toNat (8 * (o - 0x200)) 64)
  else if 0x1000 ≤ o ∧ o < 0x2000 then some (ofLe ((List.range 8).map fun i => Config.idcert (o - 0x1000 + i)))
  else if 0x038 ≤ o ∧ o < 0x058 then some (p.temp ((o - 0x038) / 8))
  else if 0x058 ≤ o ∧ o < 0x078 then some (s.die ((o - 0x058) / 8)).bbHead.toNat
  else match o with
    | 0x000 => some 0
    | 0x008 => some 0
    | 0x010 => some p.fwStage.toNat
    | 0x018 => some 0
    | 0x020 => some p.fwStatus.toNat
    | 0x028 => some p.pwrLimit.toNat
    | 0x030 => some p.pwrNow.toNat
    | 0x078 => some 0
    | 0x080 => some (if p.attBusy then 1 else 0)
    | _ => none

/-- R436: a read of `size` bytes of the block of function `k`: `none` for an offset or a width that names no register; `host` through BAR 4,
`pf` through the PF's BAR 0. Log entry 82 (DESIGN CHOICE). -/
def State.blockRead (s : State) (k o size : Nat) (host pf : Bool) : Option Nat :=
  let n := regSize o
  let f := s.fn k
  if ¬(size = 4 ∨ size = 8) ∨ o % size ≠ 0 ∨ (n ≠ 0 ∧ n ≠ size) then none
  else if o < 0x100 then (s.lqOf k (o / 0x40)).regAt (o % 0x40)
  else if o < 0x120 then (f.ringAt (o / 0x10 % 4)).regAt (o % 0x10)
  else if o < 0x140 then
    (if host = false then (if o % 0x10 ∈ [0, 8, 12] then some 0 else none)
     else if k = 0 then none else (f.ringAt (o / 0x10 % 4)).regAt (o % 0x10))
  else if 0x200 ≤ o ∧ o < 0x220 then f.evAt (o - 0x200)
  else if 0x300 ≤ o ∧ o < 0x400 then (if k = 0 then none else f.mbAt (o - 0x300) size)
  else if o ∈ [0x400, 0x408, 0x410, 0x418, 0x420, 0x428] then some (s.dbgRead k (o - 0x400)).toNat
  else if o = 0x500 then some f.badAccess.toNat
  else if o = 0x508 then some f.bar2Win
  else if 0x2000 ≤ o ∧ o < 0x2080 then some (bits (Tbl.get msixInit f.msixTbl ((o - 0x2000) / 16)).toNat (8 * (o % 16)) (8 * size))
  else if 0x3000 ≤ o ∧ o < 0x3008 then
    some ((List.range 8).foldl (fun v i => v + if Tbl.get false f.msixPend i then 2 ^ i else 0) 0 / 2 ^ (8 * (o - 0x3000)))
  else if pf = false then none
  else if 0x10000 ≤ o ∧ o < 0x12000 then s.adminAt (o - 0x10000)
  else if 0x20000 ≤ o ∧ o < 0x20800 then some (wordOfLease (s.lease ((o - 0x20000) / 8))).toNat
  else if 0x30000 ≤ o ∧ o < 0x32000 then some (bits (wordOfBorrow (s.borrow ((o - 0x30000) / 32))).toNat (o % 32 * 8) 64)
  else if 0x80000 ≤ o ∧ o < 0x100000 then
    some (match find (s.die ((o - 0x80000) / 0x20000)).bbox (o % 0x20000 / 32) with | some e => ofLe (slice e.bytes (o % 32) 8) | none => 0)
  else none

/-- R436, R444: what a read of `size` bytes at an offset of BAR 0 of function `fn`, or of BAR 4 of the PF, returns, and the machine after it;
JTAG (64) reads its debug window. Log entries 43 (DESIGN CHOICE), 82 (DESIGN CHOICE). -/
def State.registerRead (s : State) (fn bar off size : Nat) : Nat × State :=
  let host := bar == 4
  let k := if host then off / 0x10000 else fn
  let o := if host then off % 0x10000 else off
  let pf := bar == 0 && fn == 0
  let ones := 2 ^ (8 * size) - 1
  if fn = 64 then ((if bar = 0 ∧ 0x400 ≤ off ∧ off < 0x430 ∧ s.noImage = false then (s.blockRead 64 off size false false).getD 0 else 0), s)
  else if s.noImage ∧ ¬(pf ∧ 0x10000 ≤ off ∧ off < 0x12000) then (ones, s)
  else if (bar ≠ 0 ∧ ¬(host ∧ fn = 0)) ∨ k > 63 then (ones, s.badAccess fn)
  else match s.blockRead k o size host pf with
    | none => (ones, s.badAccess k)
    | some v => (v, s)

end Sys2Proof.Machine
end

