-- ==== Sys2Proof/Machine/Agenda.lean ====
section
/-! DEFINITION. The agents that may move next (log entry 2): an event from outside that waits, the steps of the hardware's units
that may be due, the steps that the hardware takes of its own accord, and cores with a strand to try. An event whose condition
does not hold changes nothing (log entry 1), so the lists below name every event that can be due and may name more. -/
namespace Sys2Proof.Machine

/-- The table's rows that are events; a strand's instruction is none. -/
def isEvent (i : Instr) : Bool := match i.form with | .event => true | _ => false

/-- What core `c` may do: its copy engine, its two instruction queues, its acknowledgements. -/
def Core.due (c : Nat) (x : Core) : List Instr :=
  (if x.cq.any (!·.accepted) then [.copyAccept c] else []) ++
  x.cq.flatMap (fun k => [.copyBoxStart c k.seq, .copyComplete c k.seq]) ++
  (if x.mq.isEmpty then [] else [.matrixEntryStart c, .matrixEntryComplete c]) ++
  (if x.vq.isEmpty then [] else [.vectorEntryStart c, .vectorEntryComplete c]) ++
  (if x.qpt then [.tlbiCoreAcknowledge c] else [])

/-- What the units that serve strand `n` may do. -/
def Strand.due (n : Nat) (x : Strand) : List Instr :=
  (if x.grp.isSome then [.safePointArrival n, .waitTimeout n] else []) ++ (if x.yieldUntil = 0 then [] else [.yieldExpiry n])

/-- What may happen to group `g`. -/
def Group.due (gid : Nat) (g : Group) : List Instr :=
  [.groupEnd gid, .preemptRequest gid, .saveComplete gid, .restore_ gid, .preemptWatchdog gid] ++
  g.cores.map fun c => .preemptDeadlineExpiry gid c

/-- What the units of die `d` may do: walks, fault records, publishes, ordered tasks, a reset. -/
def Die.due (d : Nat) (x : Die) : List Instr :=
  (List.range x.walks.length).map (fun i => .tableWalk d i) ++
  x.frecs.map (fun r => .faultRecordWrite d r.ix) ++
  x.pubs.flatMap (fun p => [0, 1, 2, 3].flatMap fun e =>
    [.publishPrepare p.slot p.h e, .prepareAck p.slot p.h e, .publishCommit p.slot p.h e, .commitAck p.slot p.h e, .twinSwap p.slot p.h e]) ++
  x.tasks.flatMap (fun t => [.taskStart d t.slot, .taskCommit d t.slot]) ++
  (if x.resetting then [.resetEnd 1 d] else [])

/-- What the units of function `k` may do: its launch queues and rings. -/
def Fn.due (k : Nat) (f : Fn) : List Instr :=
  [0, 1, 2, 3].flatMap (fun q => [.packetFetch k q, .launchRetry k q, .completionRecordWrite k q, .teardownWindowExpiry k q]) ++
  [.faultResponseRetry k false, .faultResponseFail k false, .faultResponseRetry k true, .faultResponseFail k true, .eventRecordWrite k] ++
  (if f.atsInv.isEmpty then [] else [.atsInvalidationCompletion k]) ++ (if f.resetting then [.resetEnd 0 k] else [])

/-- R228, R229: dispatches and moves of the task hierarchy, while a queue holds an entry. -/
def State.dueQueues (s : State) : List Instr :=
  if s.cores.all (fun c => c.2.queue.isEmpty) && s.dies.all (fun d => d.2.queue.isEmpty && d.2.spill.isEmpty && d.2.store.isEmpty && d.2.bays.all (fun b => b.2.queue.isEmpty))
  then []
  else
    (List.range 192).flatMap (fun c => [.groupDispatch 1 c, .queueBlockMove 0 (c / 8) c, .queueBlockMove 2 c (c / 8)]) ++
    (List.range 24).flatMap (fun b => [.groupDispatch 2 b, .queueBlockMove 1 (b / 6) b, .queueBlockMove 3 b (b / 6)]) ++
    (List.range 4).flatMap (fun d => [.groupDispatch 3 d, .queueBlockMove 4 d d, .queueBlockMove 5 d d] ++ [0, 1, 2, 3].map (fun e => .queueBlockMove 6 d e)) ++
    [.groupDispatch 4 0] ++ s.dies.flatMap (fun d => d.2.store.map fun e => .queueBlockMove 7 d.1 e.1)

/-- R18, R121: the generation sequencer. -/
def State.dueSeq (s : State) : List Instr :=
  match s.pkg.seqRun with
  | none => if s.pkg.seqQ.isEmpty then [] else [.genAdvAccept]
  | some r => r.dies.flatMap (fun d => [.dieCut d, .configChangeCut (192 + d)]) ++ r.cores.flatMap (fun c => [.coreCut c, .configChangeCut c]) ++
    [.sequencerChangeDone]

/-- R41 to R43: posted invalidations. -/
def State.dueTlbi (s : State) : List Instr :=
  s.pkg.tlbis.zipIdx.flatMap fun x => x.1.dies.map (fun d => .tlbiL2Drop d x.2) ++ x.1.cores.map (fun c => .tlbiWatchdogExpiry c x.2)

/-- What the units of the package may do: peers, leases, stations, memory. Log entry 1 (DEDUCED). -/
def Package.due (p : Package) : List Instr :=
  p.peers.map (fun r => .peerTimeout r.id) ++ (List.range p.decs.length).map (fun k => .succDecrement k) ++
  p.stations.flatMap (fun x => [.retrainComplete x.1, .bucketLeak x.1]) ++
  p.leases.flatMap (fun l => [.pieceCopyDone l.1, .lenderReclaimTimeout l.1]) ++
  p.borrows.flatMap (fun b => [.borrowerFlushDone b.1, .borrowerReclaimTimeout b.1]) ++
  p.stk.map (fun x => .stripeRebuild x.1) ++ p.mbanks.flatMap (fun b => [.perBankRefresh b.1, .refreshEnd b.1]) ++
  (if p.attBusy then [.attestationReportDone] else []) ++ (if p.resetting then [.resetEnd 2 0] else [])

/-- The steps of the hardware's units that may be due. -/
def State.due (s : State) : List Instr :=
  s.flight.flatMap (fun a => [.memoryAccessArrival a.id, .accessResponseReturn a.id, .groundRemoteArrival a.id, .syncOperationArrival a.id]) ++
  s.cores.flatMap (fun c => c.2.due c.1) ++ s.strands.flatMap (fun n => n.2.due n.1) ++ s.groups.flatMap (fun g => g.2.due g.1) ++
  s.dies.flatMap (fun d => d.2.due d.1) ++ s.fns.flatMap (fun f => f.2.due f.1) ++
  s.dueQueues ++ s.dueSeq ++ s.dueTlbi ++ s.pkg.due

/-- R125: the element that a tag sweeper visits. -/
def sweptElem (k a b : Nat) : Elem :=
  match k % 26 with
  | 0 => .scalar (a % 768) (b % 64)
  | 1 => .pred (a % 768) (b % 8)
  | 2 => .ctl (a % 768) (b % 6)
  | 3 => .vreg (a % 192) (b % 256)
  | 4 => .bank (a % 192) (b % 8)
  | 5 => .peg (a % 192) (b % 256)
  | 6 => .bob (a % 192) (b % 32)
  | 7 => .tplActive (a % 192) b
  | 8 => .tplStandby (a % 192) b
  | 9 => .pillow (a % 192) b
  | 10 => .mq (a % 192) b
  | 11 => .vq (a % 192) b
  | 12 => .cq (a % 192) b
  | 13 => .l1 (a % 192) b
  | 14 => .perf (a % 192) b
  | 15 => .l2 (a % 4) b
  | 16 => .walkCache (a % 4) b
  | 17 => .twin (a % 4) b
  | 18 => .mcast (a % 4) b
  | 19 => .frec (a % 4) b
  | 20 => .pc (a % 768)
  | 21 => .coreQ (a % 192) b
  | 22 => .bayQ (a % 24) b
  | 23 => .dieQ (a % 4) b
  | 24 => .spill (a % 4) b
  | _ => .store (a % 4) b

/-- What the hardware does of its own accord, at instants that it chooses: scrubbers, sweepers, refresh, the activations of rows
that its traffic makes, the steps of its clock. `x` and `y` choose where. Log entries 2 (DESIGN CHOICE), 32 (DESIGN CHOICE). -/
def selfSteps (x y : Nat) : List Instr :=
  [.sliceScrubVisit (x % 4) y 0, .hbmScrubVisit y 0, .tagSweepVisit (sweptElem x (y / 0x1000000) (y % 0x1000000)), .sweepPassEnd,
   .refreshWindowBoundary (x % 8), .rowActivation x y (x % 64), .disturbIntervalReset x, .clockStep (y % 2 == 0)]

/-- Where an error is met: one of the four arrays, device memory, or an element. -/
def siteOf (k a b : Nat) : Site := if k % 6 < 4 then .array (k % 6) a else if k % 6 = 4 then .hbm a else .elem (sweptElem (k / 6) a b)
/-- The errors that the accesses of a step meet: those listed, and what the outside world gives. Log entry 32 (DESIGN CHOICE). -/
def State.chance (s : State) : State :=
  match Config.upset s.free with
  | (k, a, b, err) => s.meet ⟨siteOf k a b, err⟩

/-- A core's issue, or an event. -/
inductive Agent where
  | core (c : Nat)
  | event (i : Instr)
  | input (i : Instr)
deriving DecidableEq, Repr

/-- The cores that hold a strand to try, by the strands table. -/
def State.activeCores (s : State) : List Nat := (s.strands.foldl (fun l e => addOnce (coreOf e.1) l) []).filter s.coreReady

/-- R253: the ends of teardown windows that are due; in the cycle of one only a cut comes before it. -/
def State.dueEnds (s : State) : List Instr :=
  s.fns.flatMap fun f => f.2.lq.filterMap fun q =>
    if q.2.td && q.2.tdCount.isNone && decide (q.2.tdUntil ≤ s.ref.toNat) then some (.teardownWindowExpiry f.1 q.1) else none

/-- Every agent that may move. Log entry 2 (DESIGN CHOICE). -/
def State.agents (s : State) : List Agent :=
  if s.dueEnds != [] then (s.dueEnds ++ s.dueSeq).map .event else
  (match s.inputs with
    | [] => []
    | i :: _ => if s.inputWaits i then [] else [.input i]) ++ s.activeCores.map .core ++ s.due.map .event ++
  (selfSteps (Config.pick (s.free + 1) 0) (Config.pick (s.free + 2) 0)).map .event

/-- The agent that moves, which the spec leaves open. Log entry 2 (DESIGN CHOICE). -/
def State.chosen (s : State) : Agent :=
  let l := s.agents
  l.getD (Config.pick s.free l.length % l.length) (.event .sweepPassEnd)

end Sys2Proof.Machine
end

