-- ==== Sys2Proof/Machine/Control.lean ====
section
/-! DEFINITION. Branches, calls, loops and strand control (R206, R211, R310 to R321). -/
namespace Sys2Proof.Machine

/-! ### Branches and calls -/

/-- R310: the target of a Form B instruction. -/
def State.target (s : State) (n : Nat) (off : BitVec 32) : W64 := s.getPc n + off.signExtend 64

/-- PC takes the target or moves past the instruction. -/
def State.branch (s : State) (n : Nat) (i : Instr) (taken : Bool) (off : BitVec 32) : State :=
  if taken then s.jump n (s.target n off) else s.adv n i

/-- BR (R310). -/
def execBr (f : FB) (s : State) : Out :=
  let n := s.cur
  s.issue (.br f) f.pr (opdRegs [f.a, f.b]) [] (
    .done (s.branch n (.br f) (condition f.cond.toNat (s.opd n f.a) (s.opd n f.b)) f.off))

/-- BRC (R310): the condition is on the decremented A. Log entry 17 (DEDUCED). -/
def execBrc (f : FB) (s : State) : Out :=
  let n := s.cur
  let v := s.opd n f.a - 1
  let s1 := s.setS n f.a.dest v
  s.issue (.brc f) f.pr (opdRegs [f.a, f.b]) [f.a.dest] (
    .done (s1.branch n (.brc f) (condition f.cond.toNat v (s.opd n f.b)) f.off))

/-- R311: the test of a 64-bit predicate. -/
def brpTest (c : Nat) (p : W64) : Bool :=
  match c with
  | 0 => p.getLsbD 0
  | 1 => !(p.getLsbD 0)
  | 2 => p != 0
  | 3 => p == BitVec.allOnes 64
  | _ => p == 0

/-- BRP (R311). -/
def execBrp (f : FB) (s : State) : Out :=
  let n := s.cur
  s.issue (.brp f) f.pr [pendP f.a.number] [] (
    if f.a.number ≥ 8 ∨ f.cond.toNat > 4 then .trap ⟨cOperand, 0, 0⟩
    else .done (s.branch n (.brp f) (brpTest f.cond.toNat (s.getP n f.a.number)) f.off))

/-- R312: an address that a jump may take. -/
def aligned4 (v : W64) : Bool := v.toNat % 4 == 0

/-- JMP (R310, R312). -/
def execJmp (f : FA) (s : State) : Out :=
  let n := s.cur
  let v := s.opd n f.a
  s.issue (.jmp f) f.pr (opdRegs [f.a]) [] (if aligned4 v then .done (s.jump n v) else .trap ⟨cMisaligned, 0, 0⟩)

/-- CALL (R310): s63 is the link register. -/
def execCall (f : FB) (s : State) : Out :=
  let n := s.cur
  s.issue (.call f) f.pr [] [63] (
    if f.cond ≠ 0 then .trap ⟨cOperand, 0, 0⟩
    else .done ((s.setS n 63 (s.getPc n + BitVec.ofNat 64 (Instr.call f).len)).jump n (s.target n f.off)))

/-- CALLR (R310, R312): A is read before s63 is written. -/
def execCallr (f : FA) (s : State) : Out :=
  let n := s.cur
  let v := s.opd n f.a
  s.issue (.callr f) f.pr (opdRegs [f.a]) [63] (
    if aligned4 v then .done ((s.setS n 63 (s.getPc n + BitVec.ofNat 64 (Instr.callr f).len)).jump n v)
    else .trap ⟨cMisaligned, 0, 0⟩)

/-- RET (R310, R312). -/
def execRet (f : FA) (s : State) : Out :=
  let n := s.cur
  let v := s.opd n (.reg 63)
  s.issue (.ret f) f.pr [63] [] (if aligned4 v then .done (s.jump n v) else .trap ⟨cMisaligned, 0, 0⟩)

/-! ### Loops -/

/-- LOOP (R314). -/
def execLoop (f : FB) (s : State) : Out :=
  let n := s.cur
  let v := s.opd n f.a
  s.issue (.loop f) f.pr (opdRegs [f.a]) [] (
    if f.cond ≠ 0 then .trap ⟨cOperand, 0, 0⟩
    else if v = 0 then .done (s.jump n (s.target n f.off))
    else .done ((s.setCtl n nLC v).adv n (.loop f)))

/-- LEND, counted form (R315). -/
def execLendCnt (f : FB) (s : State) : Out :=
  let n := s.cur
  let lc := s.getCtl n nLC
  s.issue (.lendCnt f) f.pr [pendC nLC] [] (
    if 2 ≤ lc.toNat then .done ((s.setCtl n nLC (lc - 1)).jump n (s.target n f.off))
    else .done ((s.setCtl n nLC 0).adv n (.lendCnt f)))

/-- R212, R248: the strand passes a safe point: its loop state there, when, and the length of the iteration since the last. A
strand whose group is asked to be pre-empted is held there until SAFE_POINT_ARRIVAL decides. A strand that runs a task passes none (R215). -/
def State.safePoint (s : State) (n : Nat) (held : Bool) (lph iter : W64) : State :=
  if s.inTask n then s else s.mapStrand n fun x =>
    { x with spLph := lph, spIter := iter, iterLen := some (s.cycle - x.spCycle), spCycle := s.cycle, atSafe := held }

/-- LEND, record form (R211). COND 2 to 10 trap (R315). -/
def execLend (f : FB) (s : State) : Out :=
  let n := s.cur
  let lph := s.getCtl n nLPH
  let iter := s.getCtl n nITER
  s.issue (.lend f) f.pr [pendC nLPH, pendC nITER] [] (
    match s.groupOf n with
    | none => .trap ⟨cOperand, 0, 0⟩
    | some g =>
      if f.cond ≠ 0 then .trap ⟨cOperand, 0, 0⟩
      else if lph = 1 then
        let s := s.setCtl n nITER 0
        if g.trip = 0 then .done ((s.setCtl n nLPH 3).jump n g.epi)
        else .done (((s.setCtl n nLPH 2).jump n g.ker).mapStrand n fun x => { x with spCycle := s.cycle, iterLen := none })
      else if lph = 2 then
        let iter := iter + 1
        let s := s.setCtl n nITER iter
        if iter.toNat < g.trip.toNat then .done ((s.jump n g.ker).safePoint n g.pre.isSome 2 iter)
        else .done (((s.setCtl n nLPH 3).jump n g.epi).safePoint n g.pre.isSome 3 iter)
      else .trap ⟨cOperand, 0, 0⟩)

/-! ### Strand control -/

/-- NOP (R316). -/
def execNop (f : FA) (s : State) : Out := s.issue (.nop f) f.pr [] [] (.done (s.adv s.cur (.nop f)))

/-- R42: whether a posted invalidation waits for the core's acknowledgement. -/
def State.tlbiPending (s : State) (c : Nat) : Bool := s.pkg.tlbis.any (·.cores.contains c)

/-- QPT (R42, R316): with invalidations pending, the core's copy engine starts no box until it has acknowledged. Log entry 25 (DEDUCED). -/
def execQpt (f : FA) (s : State) : Out :=
  let n := s.cur
  s.issue (.qpt f) f.pr [] [] (
    .done ((if s.tlbiPending (coreOf n) then s.mapCore (coreOf n) fun x => { x with qpt := true, qptBy := addOnce n x.qptBy, qptAt := some (x.qptAt.getD s.cycle) } else s).adv n (.qpt f)))

/-- HALT (R215, R301, R317). -/
def execHalt (f : FA) (s : State) : Out :=
  let n := s.cur
  s.issue (.halt f) f.pr [] [] (
    if s.inTask n then .trap ⟨cOperand, 0, 0⟩
    else
      let serves := match s.groupOf n with | some g => g.serves | none => false
      .done ((s.adv n (.halt f)).mapStrand n fun x => { x with st := if serves then .taskwait else .halted, atSafe := true }))

/-- YIELD (R318): the strand counts as unable to issue for a number of cycles after this one, 64 for 0. -/
def execYield (f : FA) (s : State) : Out :=
  let n := s.cur
  let v := (s.opd n f.a).toNat
  s.issue (.yield f) f.pr (opdRegs [f.a]) [] (
    if v > 65535 then .trap ⟨cOperand, 0, 0⟩
    else .done ((s.adv n (.yield f)).mapStrand n fun x => { x with yieldUntil := s.cycle + 1 + if v = 0 then 64 else v }))

/-- RLABEL (R213, R319). -/
def execRlabel (f : FA) (s : State) : Out :=
  let n := s.cur
  let a := s.opd n f.a
  let b := s.opd n f.b
  s.issue (.rlabel f) f.pr (opdRegs [f.a, f.b]) [] (
    if a.toNat % 4 = 0 ∧ a.toNat < 2 ^ 40 ∧ b.toNat < 2 ^ 32 then
      .done (((s.setCtl n nRLBL a).setCtl n nRCOST b).adv n (.rlabel f))
    else .trap ⟨cOperand, 0, 0⟩)

/-- TRAP (R320): takes SOFT_TRAP with A in the record's ADDR. -/
def execTrap (f : FA) (s : State) : Out :=
  s.issue (.trap f) f.pr (opdRegs [f.a]) [] (.trap ⟨cSoftTrap, 0, s.opd s.cur f.a⟩)

/-- BRK (R257, R320): DEBUG with PC at the BRK when a port is attached, else the trap BREAK. -/
def execBrk (f : FA) (s : State) : Out :=
  let n := s.cur
  s.issue (.brk f) f.pr (opdRegs [f.a]) [] (
    if (s.core (coreOf n)).port.isSome then
      .done ((s.debugFrom n).mapStrand n fun x => { x with dbg := true, brkLen := (Instr.brk f).len, brkVal := s.opd n f.a, st := .running })
    else .trap ⟨cBreak, 0, s.opd n f.a⟩)

/-- R321: the state of strand `x` at cycle `now` as FORK reports it to a strand of group `g`; in a YIELD it counts as BLOCKED (R217, R318). -/
def stCode (now : Nat) (x : Strand) (g : Option Nat) : Nat :=
  if x.st = .free ∨ x.grp = none then 5
  else if x.grp ≠ g then 6
  else if x.dbg then 7
  else match x.st with
    | .running => if now < x.yieldUntil then 1 else 0
    | .blocked => 1
    | .parked => 2
    | .halted => 3
    | .taskwait => 4
    | .free => 5

/-- FORK (R206, R321). -/
def execFork (f : FB) (s : State) : Out :=
  let n := s.cur
  let a := (s.opd n f.a).toNat
  let m := 4 * coreOf n + a
  let x := s.strand m
  let g := (s.strand n).grp
  s.issue (.fork f) f.pr (opdRegs [f.a]) [f.b.dest] (
    if s.inTask n ∨ f.cond ≠ 0 ∨ a > 3 then .trap ⟨cOperand, 0, 0⟩
    else if x.st = .parked ∧ x.dbg = false ∧ x.grp = g ∧ g.isSome then
      let pc := s.target n f.off
      let s := (s.setPc m pc).mapStrand m fun y => { y with st := .running, fresh := true, spCycle := s.cycle, iterLen := none, atSafe := false }
      .done ((s.setS n f.b.dest 0).adv n (.fork f))
    else .done ((s.setS n f.b.dest (BitVec.ofNat 64 (cOperand.toNat + 256 * stCode s.cycle x g))).adv n (.fork f)))

end Sys2Proof.Machine
end

