-- ==== Sys2Proof/Machine/Scalar.lean ====
section
/-! DEFINITION. Scalar arithmetic, logic, bit fields, comparison, selection and moves (R302 to R309). -/
namespace Sys2Proof.Machine

/-! ### The values -/

/-- A signed sum or difference clamped to i64 (R302). -/
def clampS (v : Int) : W64 :=
  if v < -(2 ^ 63) then BitVec.ofNat 64 (2 ^ 63) else if v > 2 ^ 63 - 1 then BitVec.ofNat 64 (2 ^ 63 - 1) else BitVec.ofInt 64 v
/-- An unsigned sum or difference clamped to u64 (R302). -/
def clampU (v : Int) : W64 := if v < 0 then 0 else if v > 2 ^ 64 - 1 then BitVec.allOnes 64 else BitVec.ofInt 64 v

/-- R302: ADD and SUB by MOD: wrap, signed saturation, unsigned saturation. -/
def addVal (m : Nat) (a b : W64) : W64 :=
  match m with
  | 0 => a + b
  | 1 => clampS (a.toInt + b.toInt)
  | _ => clampU (a.toNat + b.toNat)
def subVal (m : Nat) (a b : W64) : W64 :=
  match m with
  | 0 => a - b
  | 1 => clampS (a.toInt - b.toInt)
  | _ => clampU ((a.toNat : Int) - b.toNat)
/-- R302: bits [127:64] of the exact product. -/
def mulhVal (m : Nat) (a b : W64) : W64 :=
  if m = 0 then BitVec.ofInt 64 (a.toInt * b.toInt / 2 ^ 64) else BitVec.ofNat 64 (a.toNat * b.toNat / 2 ^ 64)
/-- R302, R303. -/
def divVal (m : Nat) (a b : W64) : W64 := if b = 0 then BitVec.allOnes 64 else if m = 0 then a.sdiv b else a / b
/-- R302, R303: the remainder takes the sign of A. -/
def remVal (m : Nat) (a b : W64) : W64 := if b = 0 then a else if m = 0 then a.srem b else a % b
def minVal (m : Nat) (a b : W64) : W64 := if (if m = 0 then b.slt a else b.ult a) then b else a
def maxVal (m : Nat) (a b : W64) : W64 := if (if m = 0 then a.slt b else a.ult b) then b else a
/-- R304: shift counts are taken modulo 64. -/
def shlVal (a b : W64) : W64 := a <<< (b.toNat % 64)
def shrVal (a b : W64) : W64 := a >>> (b.toNat % 64)
def sarVal (a b : W64) : W64 := a.sshiftRight (b.toNat % 64)
def rotVal (a b : W64) : W64 := a.rotateLeft (b.toNat % 64)
def clzVal (a : W64) : W64 := BitVec.ofNat 64 (64 - bitLen a.toNat)
/-- Trailing zero bits of the low `k` bits. -/
def ctzNat : Nat → Nat → Nat
  | 0, _ => 0
  | k + 1, x => if bit x 0 then 0 else 1 + ctzNat k (x / 2)
def ctzVal (a : W64) : W64 := BitVec.ofNat 64 (ctzNat 64 a.toNat)
def popcVal (a : W64) : W64 := BitVec.ofNat 64 (popc 64 a.toNat)
/-- R304: the low or the high half of the carry-less product. -/
def clmulVal (m : Nat) (a b : W64) : W64 := BitVec.ofNat 64 (clmul 64 a.toNat b.toNat / if m = 0 then 1 else 2 ^ 64)
/-- R305: the limits of a bit field. -/
def fieldOk (b c : W64) : Bool := decide (1 ≤ c.toNat) && decide (c.toNat ≤ 64) && decide (b.toNat + c.toNat ≤ 64)
def extVal (m : Nat) (a b c : W64) : W64 :=
  let f := bits a.toNat b.toNat c.toNat
  if m = 1 then sext64 c.toNat f else BitVec.ofNat 64 f
def insVal (d a b c : W64) : W64 :=
  let m : W64 := BitVec.ofNat 64 (2 ^ c.toNat - 1) <<< b.toNat
  (d &&& ~~~m) ||| ((a <<< b.toNat) &&& m)
def plogVal (m : Nat) (a b : W64) : W64 :=
  match m with
  | 0 => a &&& b
  | 1 => a ||| b
  | 2 => a ^^^ b
  | 3 => a &&& ~~~b
  | _ => ~~~a

/-! ### The meanings -/

/-- ADD (R302). -/
def execAdd (f : FA) (s : State) : Out := s.alu (.add f) f false fun a b _ _ => .ok (addVal f.m.toNat a b)
/-- SUB (R302). -/
def execSub (f : FA) (s : State) : Out := s.alu (.sub f) f false fun a b _ _ => .ok (subVal f.m.toNat a b)
/-- MUL (R302). -/
def execMul (f : FA) (s : State) : Out := s.alu (.mul f) f false fun a b _ _ => .ok (a * b)
/-- MULH (R302). -/
def execMulh (f : FA) (s : State) : Out := s.alu (.mulh f) f false fun a b _ _ => .ok (mulhVal f.m.toNat a b)
/-- DIV (R302, R303). -/
def execDiv (f : FA) (s : State) : Out := s.alu (.div f) f false fun a b _ _ => .ok (divVal f.m.toNat a b)
/-- REM (R302, R303). -/
def execRem (f : FA) (s : State) : Out := s.alu (.rem f) f false fun a b _ _ => .ok (remVal f.m.toNat a b)
/-- AND (R304). -/
def execAnd (f : FA) (s : State) : Out := s.alu (.and_ f) f false fun a b _ _ => .ok (a &&& b)
/-- OR (R304). -/
def execOr (f : FA) (s : State) : Out := s.alu (.or_ f) f false fun a b _ _ => .ok (a ||| b)
/-- XOR (R304). -/
def execXor (f : FA) (s : State) : Out := s.alu (.xor f) f false fun a b _ _ => .ok (a ^^^ b)
/-- ANDN (R304). -/
def execAndn (f : FA) (s : State) : Out := s.alu (.andn f) f false fun a b _ _ => .ok (a &&& ~~~b)
/-- SHL (R304). -/
def execShl (f : FA) (s : State) : Out := s.alu (.shl f) f false fun a b _ _ => .ok (shlVal a b)
/-- SHR (R304). -/
def execShr (f : FA) (s : State) : Out := s.alu (.shr f) f false fun a b _ _ => .ok (shrVal a b)
/-- SAR (R304). -/
def execSar (f : FA) (s : State) : Out := s.alu (.sar f) f false fun a b _ _ => .ok (sarVal a b)
/-- ROT (R304). -/
def execRot (f : FA) (s : State) : Out := s.alu (.rot f) f false fun a b _ _ => .ok (rotVal a b)
/-- MIN (R302). -/
def execMin (f : FA) (s : State) : Out := s.alu (.min f) f false fun a b _ _ => .ok (minVal f.m.toNat a b)
/-- MAX (R302). -/
def execMax (f : FA) (s : State) : Out := s.alu (.max f) f false fun a b _ _ => .ok (maxVal f.m.toNat a b)
/-- CLZ (R304). -/
def execClz (f : FA) (s : State) : Out := s.alu (.clz f) f false fun a _ _ _ => .ok (clzVal a)
/-- CTZ (R304). -/
def execCtz (f : FA) (s : State) : Out := s.alu (.ctz f) f false fun a _ _ _ => .ok (ctzVal a)
/-- POPC (R304). -/
def execPopc (f : FA) (s : State) : Out := s.alu (.popc f) f false fun a _ _ _ => .ok (popcVal a)
/-- EXT (R305). -/
def execExt (f : FA) (s : State) : Out :=
  s.alu (.ext f) f false fun a b c _ => if fieldOk b c then .ok (extVal f.m.toNat a b c) else trapOf cOperand
/-- INS (R305): D is read and written. -/
def execIns (f : FA) (s : State) : Out :=
  s.alu (.ins f) f true fun a b c d => if fieldOk b c then .ok (insVal d a b c) else trapOf cOperand
/-- MAD (R302). -/
def execMad (f : FA) (s : State) : Out := s.alu (.mad f) f false fun a b c _ => .ok (a * b + c)
/-- LEA (R309). -/
def execLea (f : FA) (s : State) : Out := s.alu (.lea f) f false fun a b c _ => .ok (a + (b <<< f.m.toNat) + c)
/-- MOV (R309). -/
def execMov (f : FA) (s : State) : Out := s.alu (.mov f) f false fun a _ _ _ => .ok a
/-- CLMUL (R304). -/
def execClmul (f : FA) (s : State) : Out := s.alu (.clmul f) f false fun a b _ _ => .ok (clmulVal f.m.toNat a b)
/-- CMPS (R306). -/
def execCmps (f : FA) (s : State) : Out := s.alu (.cmps f) f false fun a b _ _ => .ok (if condition f.m.toNat a b then 1 else 0)

/-- SEL (R307): the predicate is MOD[2:0], complemented by MOD[3]. -/
def execSel (f : FA) (s : State) : Out :=
  let n := s.cur
  let k := f.m.toNat % 8
  s.issue (.sel f) f.pr (pendP k :: opdRegs [f.a, f.b]) [f.d.dest] (
    .done ((s.setS n f.d.dest
      (if (s.getP n k).getLsbD 0 != bit f.m.toNat 3 then s.opd n f.a else s.opd n f.b)).adv n (.sel f)))

/-- R306: a predicate number. -/
def predNo (o : Opd) : Chk Nat := if o.number < 8 then .ok o.number else trapOf cOperand

/-- CMP (R306). -/
def execCmp (f : FA) (s : State) : Out :=
  let n := s.cur
  s.issue (.cmp f) f.pr (opdRegs [f.a, f.b]) [pendP f.d.number] (
    match predNo f.d with
    | .error e => .trap e
    | .ok d => .done ((s.setP n d (if condition f.m.toNat (s.opd n f.a) (s.opd n f.b) then BitVec.allOnes 64 else 0)).adv n (.cmp f)))

/-- PLOG (R308). -/
def execPlog (f : FA) (s : State) : Out :=
  let n := s.cur
  let one := f.m.toNat == 4
  s.issue (.plog f) f.pr (pendP f.a.number :: if one then [] else [pendP f.b.number]) [pendP f.d.number] (
    match predNo f.d, predNo f.a, if one then .ok 0 else predNo f.b with
    | .ok d, .ok a, .ok b => .done ((s.setP n d (plogVal f.m.toNat (s.getP n a) (s.getP n b))).adv n (.plog f))
    | _, _, _ => .trap ⟨cOperand, 0, 0⟩)

/-- MOVP (R308). -/
def execMovp (f : FA) (s : State) : Out :=
  let n := s.cur
  if f.m = 0 then
    s.issue (.movp f) f.pr [pendP f.a.number] [f.d.dest] (
      match predNo f.a with
      | .error e => .trap e
      | .ok a => .done ((s.setS n f.d.dest (s.getP n a)).adv n (.movp f)))
  else
    s.issue (.movp f) f.pr (opdRegs [f.a]) [pendP f.d.number] (
      match predNo f.d with
      | .error e => .trap e
      | .ok d => .done ((s.setP n d (s.opd n f.a)).adv n (.movp f)))

end Sys2Proof.Machine
end

