-- ==== Sys2Proof/Machine/TileUnit.lean ====
section
/-! DEFINITION. Tile instructions (R379 to R386), and the steps of the matrix engine: an entry starts, an entry's latency ends
(R357 to R359). -/
namespace Sys2Proof.Machine

/-! ### Records of a format that is only known once read (R365) -/

/-- The record at descriptor `d` whose format no field names: its first 16 bytes, its format, then the rest, with the bound `dst` of a
destination of the size that the width gives and its alignment `al`; `pre` is the bound of a destination whose size MOD gives. A bad FMT
byte ends the checks before the poison of a scalar source is met. Log entry 37 (DESIGN CHOICE). -/
def State.anyRec (s : State) (e : Ent) (d : Desc) (pre : Chk Unit) (dst : Nat → Chk Unit) (al : Chk Unit) : Chk (Nat × TRec × Nat) := do
  s.inSlice e d (recAddrs d 0 16)
  pre
  clean (s.slicePoison e (recAddrs d 0 1))
  match sxW (ofLe (s.sliceBytes e (recAddrs d 0 1))) with
  | none => .error ⟨cTileMalformed, 2, 0⟩
  | some w =>
    let l := recAddrs d 0 (recBytes w)
    s.inSlice e d l
    dst w
    alignedTo 32 d
    al
    e.clean (s.slicePoison e l)
    let r := TRec.ofBytes w (s.sliceBytes e l)
    pure (w, r, r.bad w)

/-- A packed tile at descriptor `d`, expected in FMT `exp` (0 any), in the two stages of R379: width, record, subcode; `pre` is the bound
of a destination whose size MOD gives, `dst` of one that the tile gives, `al` its alignment. A bad header ends the checks before the
poison of a scalar source is met. Log entry 37 (DESIGN CHOICE). -/
def State.packedRec (s : State) (e : Ent) (d : Desc) (exp : Nat) (pre : Chk Unit) (dst : Nat → Chk Unit) (al : Chk Unit) : Chk (Nat × TRec × Nat) := do
  s.inSlice e d (recAddrs d 0 48)
  pre
  clean (s.slicePoison e (recAddrs d 0 48))
  let h := s.sliceBytes e (recAddrs d 0 48)
  let b := packedBad1 exp h
  if b ≠ 0 then .error ⟨cTileMalformed, b, 0⟩
  else
    let w := (sxW (packedFmt h)).getD 2
    let l := recAddrs d 0 (32 * packedLen w (packedCount h))
    s.inSlice e d l
    dst w
    alignedTo 32 d
    al
    e.clean (s.slicePoison e l)
    let x := s.sliceBytes e l
    pure (w, expandPacked w x, packedBad2 w x)

/-- The cells of a record written at `d`. -/
def recCells (d : Desc) (l : List Byte) : List Host.Cell := (recAddrs d 0 l.length).zip l

/-- The FMT code that MOD names, 0 for any. -/
def modFmt (k : Nat) : Nat := match k with | 1 => 0x31 | 2 => 0x35 | 3 => 0x38 | _ => 0

/-! ### The tile instructions -/

/-- TQUANT (R380). -/
def State.quantStart (s : State) (e : Ent) (f : FX) : Chk (List Wr) := do
  let w := [2, 4, 7].getD f.m.toNat 2
  let da ← descCheck e.a
  let db ← recDesc e.b
  let l := tileAddrs da 0 32
  s.inSlice e da l
  s.inSlice e db (recAddrs db 0 (recBytes w))
  alignedTo 16 da
  alignedTo 32 db
  e.clean (s.slicePoison e l)
  let x := inVal 1 (s.sliceBytes e l)
  let r := quantize w ((List.range 256).map fun n => x (n / 16) (n % 16))
  pure [.slice (recCells db (r.1.toBytes w)), .flags r.2]

/-- TDEQ (R381); the bound of its destination comes after the source's FMT byte. Log entry 37 (DESIGN CHOICE). -/
def State.deqStart (s : State) (e : Ent) (f : FX) : Chk (List Wr) := do
  let o := [1, 2, 3].getD f.m.toNat 1
  let da ← recDesc e.a
  let db ← outDesc e.b (fmtW o)
  let (w, r, sub) ← s.anyRec e da (s.inSlice e db (tileAddrs db 0 (fmtW o))) (fun _ => .ok ()) (alignedTo 16 db)
  wellTiled sub
  let v := (List.range 256).map fun n => (fmtOf o).convert e.rm false (r.val w (n / 16) (n % 16))
  pure [.slice (tileCells db (fmtW o) (v.map (·.1))), .flags (flagsOf v)]

/-- TTRN (R382). -/
def State.trnStart (s : State) (e : Ent) (f : FX) : Chk (List Wr) :=
  if f.m = 0 then do
    let da ← recDesc e.a
    let db ← recDesc e.b
    let (w, r, sub) ← s.anyRec e da (.ok ()) (fun w => s.inSlice e db (recAddrs db 0 (recBytes w))) (alignedTo 32 db)
    wellTiled sub
    pure [.slice (recCells db ((r.transpose w).toBytes w))]
  else do
    let w := 4 * 2 ^ f.m.toNat
    let da ← descCheck e.a
    let db ← outDesc e.b w
    let l := tileAddrs da 0 w
    s.inSlice e da l
    s.inSlice e db (tileAddrs db 0 w)
    alignedTo 16 da
    alignedTo 16 db
    e.clean (s.slicePoison e l)
    let x := ofLe (s.sliceBytes e l)
    pure [.slice (tileCells db w ((List.range 256).map fun n => bits x (w * (16 * (n % 16) + n / 16)) w))]

/-- TCOMP (R383). -/
def State.compStart (s : State) (e : Ent) : Chk (List Wr) := do
  let d ← recDesc e.a
  let (w, r, sub) ← s.anyRec e d (.ok ()) (fun _ => .ok ()) (.ok ())
  wellTiled sub
  let q := rescale w r (toI 64 e.b.toNat)
  pure [.slice (recCells d (q.1.toBytes w)), .flags q.2]

/-- R384: the check of TCHK: the FMT byte read and the subcode. -/
def State.chkTile (s : State) (e : Ent) (f : FX) (d : Desc) : Chk (Nat × Nat) :=
  let exp := modFmt (f.m.toNat / 2)
  let asSub (r : Chk (Nat × TRec × Nat)) : Chk (Nat × Nat) :=
    match r with
    | .ok x => .ok (x.2.1.fmt, x.2.2)
    | .error x => if x.code = cTileMalformed then .ok (ofLe (s.sliceBytes e (recAddrs d 0 1)), x.sub) else .error x
  if f.m.toNat % 2 = 1 then asSub (s.packedRec e d exp (.ok ()) (fun _ => .ok ()) (.ok ()))
  else if exp = 0 then asSub (s.anyRec e d (.ok ()) (fun _ => .ok ()) (.ok ()))
  else do
    let w := (sxW exp).getD 2
    let l := recAddrs d 0 (recBytes w)
    s.inSlice e d l
    alignedTo 32 d
    e.clean (s.slicePoison e l)
    let r := TRec.ofBytes w (s.sliceBytes e l)
    pure (r.fmt, if badFormat r.fmt exp then 2 else r.bad w)

/-- TCHK (R384). -/
def State.chkStart (s : State) (e : Ent) (f : FX) : Chk (List Wr) := do
  let d ← recDesc e.a
  let (fmt, sub) ← s.chkTile e f d
  pure [.scalar f.sb.toNat (BitVec.ofNat 64 ((if sub = 0 then 0 else cTileMalformed.toNat) + sub * 2 ^ 8 + fmt * 2 ^ 16))]

/-- TPACK (R385): its destination is checked after the source. -/
def State.packStart (s : State) (e : Ent) (f : FX) : Chk (List Wr) := do
  let da ← recDesc e.a
  let db ← recDesc e.b
  let (w, r, sub) ← s.anyRec e da (.ok ()) (fun _ => .ok ()) (.ok ())
  wellTiled sub
  let p := packRec w r
  s.inSlice e db (recAddrs db 0 p.1.length)
  alignedTo 32 db
  pure [.slice (recCells db p.1), .scalar f.sa.toNat (BitVec.ofNat 64 (p.1.length / 32 + p.2 * 16))]

/-- TUNPK (R386). -/
def State.unpkStart (s : State) (e : Ent) (f : FX) : Chk (List Wr) := do
  let da ← recDesc e.a
  let db ← recDesc e.b
  let exp := modFmt f.m.toNat
  let out (w : Nat) : Chk Unit := s.inSlice e db (recAddrs db 0 (recBytes w))
  let (w, r, sub) ← s.packedRec e da exp (if exp = 0 then .ok () else out ((sxW exp).getD 2)) out (alignedTo 32 db)
  wellTiled sub
  pure [.slice (recCells db (r.toBytes w))]

/-- What each matrix instruction's own entry says of steps 9 to 13 and of its writes (R360). Log entry 37 (DESIGN CHOICE). -/
def State.matWrites (s : State) (e : Ent) : Chk (List Wr) :=
  match e.ins with
  | .mma f => s.mmaStart e f false
  | .mmaz f => s.mmaStart e f true
  | .mzero f =>
    if f.m = 0 then s.bankStart e f false true fun _ => .ok zBank0
    else s.bankStart e f true true fun b => .ok { b with elems := [], ovf := false, inexact := false }
  | .mhad f => s.bankStart e f true true (·.had)
  | .mdrain f => s.drainStart e f
  | .mdrainv f => s.drainVecStart e f
  | .mldacc f => s.ldAccStart e f
  | .mstacc f => s.stAccStart e f
  | .mtplLd f => s.tplLdStart e f
  | .mtplDiff f => s.tplDiffStart e f
  | .mtplSwap f => s.tplSwapStart e f
  | .mtplRd f => s.tplRdStart e f
  | .mscale f => s.bankStart e f true (anchorOk (toI 64 e.b.toNat)) (·.scale (toI 64 e.b.toNat))
  | .mscaleRebase f => s.bankStart e f true (anchorOk (toI 64 e.b.toNat)) (·.rebase (toI 64 e.b.toNat))
  | .mstat f => s.statStart e f
  | .tquant f => s.quantStart e f
  | .tdeq f => s.deqStart e f
  | .ttrn f => s.trnStart e f
  | .tcomp _ => s.compStart e
  | .tchk f => s.chkStart e f
  | .tpack f => s.packStart e f
  | .tunpk f => s.unpkStart e f
  | _ => .ok []

/-- Steps 9 to 13 of a matrix entry, and what it will write; flags read the FPC that they go into (R81). -/
def State.matStart (s : State) (e : Ent) : Chk (List Wr) := do
  let l ← s.matWrites e
  need (!(s.flagsBad e l)) cUncorrectable
  pure l

/-! ### When an entry may start (R357, R359) -/

/-- The slice offsets that an entry may reach, by its descriptors and its template; records at their largest size. -/
def State.matReach (s : State) (e : Ent) : List Nat :=
  let a := descOf e.a
  let b := descOf e.b
  let pat (f : FX) : Nat :=
    match patched (s.tplPlane e f.tpl.toNat false) f.patch with
    | .ok t => t
    | .error _ => 0
  let mm (f : FX) : List Nat :=
    let t := pat f
    (List.range (tplKt t)).flatMap fun k => inAddrs (tplA t) a k ++ inAddrs (tplB t) b k
  match e.ins with
  | .mma f => mm f
  | .mmaz f => mm f
  | .mdrain f => tileAddrs a 0 (fmtW (tplO (pat f)))
  | .mldacc _ => tileAddrs a 0 128
  | .mstacc _ => tileAddrs a 0 128
  | .mtplLd _ => (List.range 32).map (e.a.toNat + ·)
  | .mtplDiff _ => (List.range 64).map (e.a.toNat + ·)
  | .tquant _ => tileAddrs a 0 32 ++ recAddrs b 0 288
  | .tdeq f => recAddrs a 0 288 ++ tileAddrs b 0 (fmtW ([1, 2, 3].getD f.m.toNat 1))
  | .ttrn f => if f.m = 0 then recAddrs a 0 288 ++ recAddrs b 0 288
      else tileAddrs a 0 (4 * 2 ^ f.m.toNat) ++ tileAddrs b 0 (4 * 2 ^ f.m.toNat)
  | .tcomp _ => recAddrs a 0 288
  | .tchk _ => recAddrs a 0 320
  | .tpack _ => recAddrs a 0 288 ++ recAddrs b 0 320
  | .tunpk _ => recAddrs a 0 320 ++ recAddrs b 0 288
  | _ => []

/-- R359: whether an earlier LD, ST or vector access of the strand to bytes that the entry reaches has yet to perform. -/
def State.matHeld (s : State) (e : Ent) : Bool :=
  let c := coreOf e.strand
  let l := s.matReach e
  let meets (p : Place × Nat) : Bool := match p.1 with
    | .ground x => l.any fun o => decide (x ≤ sliceAt c o) && decide (sliceAt c o < x + p.2)
    | .none => !l.isEmpty
    | .twin _ _ => !l.isEmpty
    | _ => false
  s.flight.any fun a => a.strand == e.strand && decide (a.ord < e.acc) && !a.done &&
    match a.why with
    | .load _ _ => a.spots.any meets
    | .store => a.spots.any meets
    | .vec _ => a.spots.any meets
    | .vld _ _ _ _ => a.spots.any meets
    | .vst => a.spots.any meets
    | _ => false

/-- Whether an earlier entry still writes what entry `e` reads or writes (R357). -/
def wrMeets (e : Ent) (w : Wr) : Bool :=
  let tpl (n : Nat) : Bool := match e.ins with
    | .mma f => f.tpl.toNat == n
    | .mmaz f => f.tpl.toNat == n
    | .mdrain f => f.tpl.toNat == n
    | .mdrainv f => f.tpl.toNat == n
    | .mtplLd f => f.tpl.toNat == n
    | .mtplDiff f => f.tpl.toNat == n
    | .mtplRd f => f.tpl.toNat == n
    | .mtplSwap f => f.m == 1 || f.tpl.toNat == n
    | _ => false
  match w with
  | .bank n _ => match e.ins with
    | .mma f => f.bank.toNat == n
    | .mmaz f => f.bank.toNat == n
    | .mzero f => f.bank.toNat == n
    | .mhad f => f.bank.toNat == n
    | .mdrain f => f.bank.toNat == n
    | .mdrainv f => f.bank.toNat == n
    | .mldacc f => f.bank.toNat == n
    | .mstacc f => f.bank.toNat == n
    | .mscale f => f.bank.toNat == n
    | .mscaleRebase f => f.bank.toNat == n
    | .mstat f => f.bank.toNat == n
    | _ => false
  | .tplActive n _ => tpl n
  | .tplStandby n _ => tpl n
  | .slice _ => match e.ins with
    | .mzero _ => false
    | .mhad _ => false
    | .mdrainv _ => false
    | .mtplSwap _ => false
    | .mtplRd _ => false
    | .mscale _ => false
    | .mscaleRebase _ => false
    | .mstat _ => false
    | _ => true
  | .vreg _ _ _ _ => match e.ins with
    | .mdrainv _ => true
    | _ => false
  | _ => false

/-- Whether a vector instruction issued before MDRAINV still reads or writes one of its registers. -/
def State.drainHeld (s : State) (e : Ent) : Bool :=
  match e.ins with
  | .mdrainv f => (s.core (coreOf e.strand)).vq.any fun b => b.strand == e.strand && (match b.ins.form with
    | .v op g => (vReads op g ++ vWrites op g).any fun r => decide (e.a.toNat ≤ r) && decide (r < e.a.toNat + s.drainRegs e f)
    | _ => false)
  | _ => false

def Ent.fx (e : Ent) : Option FX := match e.ins.form with | .x _ f => some f | _ => none
def Core.startMat (x : Core) (k : Nat) (w : List Wr) : Core := { x with mq := updAt x.mq k fun e => { e with started := some w } }
/-- Log entry 87 (DEDUCED). -/
def Core.dropMat (x : Core) (k : Nat) : Core := { x with mq := removeAt x.mq k }

/-- Entry `k` traps: it leaves the queue, and posts nothing. -/
def State.matTrap (s : State) (core k : Nat) (e : Ent) (x : Trap) : State :=
  ((s.mapCore core (·.dropMat k)).paid e).entTrap e x

/-- Whether an entry reads its core's slice as it starts. -/
def Ent.readsSlice (e : Ent) : Bool :=
  match e.ins with
  | .mma _ => true | .mmaz _ => true | .mldacc _ => true | .mtplLd _ => true | .mtplDiff _ => true | .tquant _ => true | .tdeq _ => true
  | .ttrn _ => true | .tcomp _ => true | .tchk _ => true | .tpack _ => true | .tunpk _ => true | _ => false

/-- R122, R360: entry `k`, whose token is there, makes its checks and starts; reads that its slice answers with zero are counted, also
where what they gave is no tile. -/
def State.matBegin (s : State) (core k : Nat) (e : Ent) : State :=
  if e.lat ≠ 0 then s.matTrap core k e ⟨e.lat, 0, 0⟩
  else
    let s := s.settleSlice core (s.matReach e)
    let old := s.cutAt e.slot e.gen (.ground (sliceAt core 0)) 0 && e.readsSlice
    match s.matStart e with
    | .ok w => (if old then s.countDrop e.slot else s).mapCore core (·.startMat k w)
    | .error x => (if old && x.code == cTileMalformed then s.countDrop e.slot else s).matTrap core k e x

/-- R358: entry `k`, about to start, takes its token, or joins the waiters of its peg. -/
def State.matToken (s : State) (core k : Nat) (e : Ent) (ix : Nat) : State :=
  if s.pegOk e.strand ix = false then s.matTrap core k e ⟨cOperand, 0, 0⟩
  else if s.objBad core (tagOf e.slot e.gen) false ix then s.matTrap core k e ⟨cUncorrectable, 0, 0⟩
  else if (s.core core).waiters.any (fun w => w.who.isNone && w.kind == 8) then s
  else
    let w : Waiter := { who := none, bob := false, ix := ix, kind := 8, n := 1, d := 0, len := 0, tag := tagOf e.slot e.gen, deadline := none }
    match waitOutcome (s.core core) w with
    | some (code, v, x) => (s.release core w code v x).matBegin core k { e with tok := true, lat := code }
    | none => s.mapCore core fun x => { x with waiters := x.waiters ++ [w] }

/-- MATRIX_ENTRY_START (R357 to R360): the entry that starts next, once nothing holds it back, takes its token and starts. Log entry 1 (DEDUCED). -/
def execMatrixEntryStart (core : Nat) (s : State) : Out :=
  .next (
    let k := (s.core core).mqNext
    match (s.core core).mq[k]? with
    | none => s
    | some e => match e.fx with
      | none => s
      | some f =>
        if e.poison then s.matTrap core k e ⟨cUncorrectable, 0, 0⟩
        else if s.matHeld e || s.drainHeld e || ((s.core core).mq.take k).any (fun b => (b.started.getD []).any (wrMeets e)) then s
        else if !e.tok then s.matToken core k e f.wait.toNat
        else s.matBegin core k e)

/-! ### The end of an entry's latency -/

/-- R81, R358, R411: an engine posts a peg of the core for group `gid`; a poisoned peg takes no post and its core is contained. -/
def State.enginePost (s : State) (core slot gen gid ix n : Nat) : State :=
  let t := tagOf slot gen
  if s.objBad core t false ix then
    (s.logBox (dieOfCore core) 0x04 slot core [0]).contain core fun g =>
      if g = gid then s.plainRec cUncorrectable 1 core else s.plainRec cContained 1 core
  else (s.countLost slot core false ix).pegPost core t ix n

/-- R359: the granules of the ground that an entry of the tile unit writes. -/
def Ent.recGrans (e : Ent) (core : Nat) : List (Bool × Nat) :=
  let unit := match e.ins with | .tquant _ => true | .tdeq _ => true | .ttrn _ => true | .tcomp _ => true | .tpack _ => true | .tunpk _ => true | _ => false
  if unit then ((e.started.getD []).flatMap fun w => match w with | .slice cs => cs.map fun x => (true, sliceAt core x.1 / 64) | _ => []).eraseDups else []

/-- MATRIX_ENTRY_COMPLETE (R170, R357 to R359): the writes of a started entry perform, its results are produced, its peg is posted. -/
def execMatrixEntryComplete (core : Nat) (s : State) : Out :=
  .next (match s.pickOf ((s.core core).mq.filter (·.started.isSome)) with
    | none => s
    | some (e, s) =>
      let gs := e.recGrans core
      let s := s.finishReads (s.halfRead gs)
      if s.halfRead gs ≠ [] then s
      else
      let s := (s.keepHalves gs).mapCore core fun x => { x with mq := x.mq.erase e }
      let s := (e.started.getD []).foldl (fun s w => s.applyWr e w) s
      let s := s.paid e
      match e.fx with
      | none => s
      | some f => if f.post = 0xFF then s else s.enginePost core e.slot e.gen e.gid f.post.toNat f.inc.toNat)

end Sys2Proof.Machine
end

