-- ==== Sys2Proof/Machine/Dispatch.lean ====
section
/-! DEFINITION. The meaning of every instruction: one arm for each constructor. -/
namespace Sys2Proof.Machine

def exec (i : Instr) (s : State) : Host.Outcome State Fault Refusal :=
  match i with
  | .nop f => Sys2Proof.Machine.execNop f s
  | .add f => Sys2Proof.Machine.execAdd f s
  | .sub f => Sys2Proof.Machine.execSub f s
  | .mul f => Sys2Proof.Machine.execMul f s
  | .mulh f => Sys2Proof.Machine.execMulh f s
  | .div f => Sys2Proof.Machine.execDiv f s
  | .rem f => Sys2Proof.Machine.execRem f s
  | .and_ f => Sys2Proof.Machine.execAnd f s
  | .or_ f => Sys2Proof.Machine.execOr f s
  | .xor f => Sys2Proof.Machine.execXor f s
  | .andn f => Sys2Proof.Machine.execAndn f s
  | .shl f => Sys2Proof.Machine.execShl f s
  | .shr f => Sys2Proof.Machine.execShr f s
  | .sar f => Sys2Proof.Machine.execSar f s
  | .rot f => Sys2Proof.Machine.execRot f s
  | .min f => Sys2Proof.Machine.execMin f s
  | .max f => Sys2Proof.Machine.execMax f s
  | .clz f => Sys2Proof.Machine.execClz f s
  | .ctz f => Sys2Proof.Machine.execCtz f s
  | .popc f => Sys2Proof.Machine.execPopc f s
  | .ext f => Sys2Proof.Machine.execExt f s
  | .ins f => Sys2Proof.Machine.execIns f s
  | .sel f => Sys2Proof.Machine.execSel f s
  | .cmp f => Sys2Proof.Machine.execCmp f s
  | .cmps f => Sys2Proof.Machine.execCmps f s
  | .mad f => Sys2Proof.Machine.execMad f s
  | .lea f => Sys2Proof.Machine.execLea f s
  | .mov f => Sys2Proof.Machine.execMov f s
  | .plog f => Sys2Proof.Machine.execPlog f s
  | .movp f => Sys2Proof.Machine.execMovp f s
  | .clmul f => Sys2Proof.Machine.execClmul f s
  | .br f => Sys2Proof.Machine.execBr f s
  | .brc f => Sys2Proof.Machine.execBrc f s
  | .brp f => Sys2Proof.Machine.execBrp f s
  | .jmp f => Sys2Proof.Machine.execJmp f s
  | .call f => Sys2Proof.Machine.execCall f s
  | .callr f => Sys2Proof.Machine.execCallr f s
  | .ret f => Sys2Proof.Machine.execRet f s
  | .loop f => Sys2Proof.Machine.execLoop f s
  | .lend f => Sys2Proof.Machine.execLend f s
  | .lendCnt f => Sys2Proof.Machine.execLendCnt f s
  | .qpt f => Sys2Proof.Machine.execQpt f s
  | .halt f => Sys2Proof.Machine.execHalt f s
  | .yield f => Sys2Proof.Machine.execYield f s
  | .rlabel f => Sys2Proof.Machine.execRlabel f s
  | .trap f => Sys2Proof.Machine.execTrap f s
  | .brk f => Sys2Proof.Machine.execBrk f s
  | .fork f => Sys2Proof.Machine.execFork f s
  | .sysrd f => Sys2Proof.Machine.execSysrd f s
  | .syswr f => Sys2Proof.Machine.execSyswr f s
  | .time f => Sys2Proof.Machine.execTime f s
  | .perf f => Sys2Proof.Machine.execPerf f s
  | .genRd f => Sys2Proof.Machine.execGenRd f s
  | .genAdv f => Sys2Proof.Machine.execGenAdv f s
  | .tlbi f => Sys2Proof.Machine.execTlbi f s
  | .tlbiAll f => Sys2Proof.Machine.execTlbiAll f s
  | .evpost f => Sys2Proof.Machine.execEvpost f s
  | .id f => Sys2Proof.Machine.execId f s
  | .vadd f => Sys2Proof.Machine.execVadd f s
  | .vsub f => Sys2Proof.Machine.execVsub f s
  | .vmul f => Sys2Proof.Machine.execVmul f s
  | .vfma f => Sys2Proof.Machine.execVfma f s
  | .vfms f => Sys2Proof.Machine.execVfms f s
  | .vmin f => Sys2Proof.Machine.execVmin f s
  | .vmax f => Sys2Proof.Machine.execVmax f s
  | .vabs f => Sys2Proof.Machine.execVabs f s
  | .vneg f => Sys2Proof.Machine.execVneg f s
  | .vrcp f => Sys2Proof.Machine.execVrcp f s
  | .vrsq f => Sys2Proof.Machine.execVrsq f s
  | .vsqrt f => Sys2Proof.Machine.execVsqrt f s
  | .vexp2 f => Sys2Proof.Machine.execVexp2 f s
  | .vlog2 f => Sys2Proof.Machine.execVlog2 f s
  | .vand f => Sys2Proof.Machine.execVand f s
  | .vor f => Sys2Proof.Machine.execVor f s
  | .vxor f => Sys2Proof.Machine.execVxor f s
  | .vshl f => Sys2Proof.Machine.execVshl f s
  | .vshr f => Sys2Proof.Machine.execVshr f s
  | .vsar f => Sys2Proof.Machine.execVsar f s
  | .vcmp f => Sys2Proof.Machine.execVcmp f s
  | .vsel f => Sys2Proof.Machine.execVsel f s
  | .vcvt f => Sys2Proof.Machine.execVcvt f s
  | .vperm f => Sys2Proof.Machine.execVperm f s
  | .vbcast f => Sys2Proof.Machine.execVbcast f s
  | .vreduce f => Sys2Proof.Machine.execVreduce f s
  | .vscan f => Sys2Proof.Machine.execVscan f s
  | .vclmul f => Sys2Proof.Machine.execVclmul f s
  | .vpopc f => Sys2Proof.Machine.execVpopc f s
  | .vmov f => Sys2Proof.Machine.execVmov f s
  | .vextr f => Sys2Proof.Machine.execVextr f s
  | .vinsr f => Sys2Proof.Machine.execVinsr f s
  | .vld f => Sys2Proof.Machine.execVld f s
  | .vst f => Sys2Proof.Machine.execVst f s
  | .vldx f => Sys2Proof.Machine.execVldx f s
  | .vstx f => Sys2Proof.Machine.execVstx f s
  | .vldh f => Sys2Proof.Machine.execVldh f s
  | .vsth f => Sys2Proof.Machine.execVsth f s
  | .viota f => Sys2Proof.Machine.execViota f s
  | .vdot f => Sys2Proof.Machine.execVdot f s
  | .vmulh f => Sys2Proof.Machine.execVmulh f s
  | .vround f => Sys2Proof.Machine.execVround f s
  | .vclass f => Sys2Proof.Machine.execVclass f s
  | .mma f => Sys2Proof.Machine.execMma f s
  | .mmaz f => Sys2Proof.Machine.execMmaz f s
  | .mzero f => Sys2Proof.Machine.execMzero f s
  | .mhad f => Sys2Proof.Machine.execMhad f s
  | .mdrain f => Sys2Proof.Machine.execMdrain f s
  | .mdrainv f => Sys2Proof.Machine.execMdrainv f s
  | .mldacc f => Sys2Proof.Machine.execMldacc f s
  | .mstacc f => Sys2Proof.Machine.execMstacc f s
  | .mtplLd f => Sys2Proof.Machine.execMtplLd f s
  | .mtplDiff f => Sys2Proof.Machine.execMtplDiff f s
  | .mtplSwap f => Sys2Proof.Machine.execMtplSwap f s
  | .mtplRd f => Sys2Proof.Machine.execMtplRd f s
  | .mscale f => Sys2Proof.Machine.execMscale f s
  | .mscaleRebase f => Sys2Proof.Machine.execMscaleRebase f s
  | .mstat f => Sys2Proof.Machine.execMstat f s
  | .tquant f => Sys2Proof.Machine.execTquant f s
  | .tdeq f => Sys2Proof.Machine.execTdeq f s
  | .ttrn f => Sys2Proof.Machine.execTtrn f s
  | .tcomp f => Sys2Proof.Machine.execTcomp f s
  | .tchk f => Sys2Proof.Machine.execTchk f s
  | .tpack f => Sys2Proof.Machine.execTpack f s
  | .tunpk f => Sys2Proof.Machine.execTunpk f s
  | .ld f => Sys2Proof.Machine.execLd f s
  | .st f => Sys2Proof.Machine.execSt f s
  | .pref f => Sys2Proof.Machine.execPref f s
  | .fence f => Sys2Proof.Machine.execFence f s
  | .pub f => Sys2Proof.Machine.execPub f s
  | .cpy f => Sys2Proof.Machine.execCpy f s
  | .cpyG f => Sys2Proof.Machine.execCpyG f s
  | .cpyS f => Sys2Proof.Machine.execCpyS f s
  | .cpyR f => Sys2Proof.Machine.execCpyR f s
  | .cpyM f => Sys2Proof.Machine.execCpyM f s
  | .cpyW f => Sys2Proof.Machine.execCpyW f s
  | .cpyT f => Sys2Proof.Machine.execCpyT f s
  | .cpyTs f => Sys2Proof.Machine.execCpyTs f s
  | .cpyF f => Sys2Proof.Machine.execCpyF f s
  | .cpyX f => Sys2Proof.Machine.execCpyX f s
  | .cpyQ f => Sys2Proof.Machine.execCpyQ f s
  | .pegPost f => Sys2Proof.Machine.execPegPost f s
  | .pegWait f => Sys2Proof.Machine.execPegWait f s
  | .pegTake f => Sys2Proof.Machine.execPegTake f s
  | .pegRd f => Sys2Proof.Machine.execPegRd f s
  | .pegErr f => Sys2Proof.Machine.execPegErr f s
  | .bbSet f => Sys2Proof.Machine.execBbSet f s
  | .bbClaim f => Sys2Proof.Machine.execBbClaim f s
  | .bbFill f => Sys2Proof.Machine.execBbFill f s
  | .bbTake f => Sys2Proof.Machine.execBbTake f s
  | .bbTakeAt f => Sys2Proof.Machine.execBbTakeAt f s
  | .bbFree f => Sys2Proof.Machine.execBbFree f s
  | .bbWaitf f => Sys2Proof.Machine.execBbWaitf f s
  | .bbWaite f => Sys2Proof.Machine.execBbWaite f s
  | .bbRd f => Sys2Proof.Machine.execBbRd f s
  | .sadd f => Sys2Proof.Machine.execSadd f s
  | .swait f => Sys2Proof.Machine.execSwait f s
  | .satom f => Sys2Proof.Machine.execSatom f s
  | .scas f => Sys2Proof.Machine.execScas f s
  | .serr f => Sys2Proof.Machine.execSerr f s
  | .sget f => Sys2Proof.Machine.execSget f s
  | .launch f => Sys2Proof.Machine.execLaunch f s
  | .tspawn f => Sys2Proof.Machine.execTspawn f s
  | .tend f => Sys2Proof.Machine.execTend f s
  | .tabort f => Sys2Proof.Machine.execTabort f s
  | .cfr f => Sys2Proof.Machine.execCfr f s
  | .tid f => Sys2Proof.Machine.execTid f s
  | .narg f => Sys2Proof.Machine.execNarg f s
  | .copyAccept core => Sys2Proof.Machine.execCopyAccept core s
  | .copyBoxStart core seq => Sys2Proof.Machine.execCopyBoxStart core seq s
  | .copyComplete core seq => Sys2Proof.Machine.execCopyComplete core seq s
  | .tableWalk die walk => Sys2Proof.Machine.execTableWalk die walk s
  | .faultRecordWrite die rec => Sys2Proof.Machine.execFaultRecordWrite die rec s
  | .responseRingDoorbell fn host pi => Sys2Proof.Machine.execResponseRingDoorbell fn host pi s
  | .faultResponseRetry fn host => Sys2Proof.Machine.execFaultResponseRetry fn host s
  | .faultResponseFail fn host => Sys2Proof.Machine.execFaultResponseFail fn host s
  | .atsTranslationCompletion slot va frame szLog rd wr => Sys2Proof.Machine.execAtsTranslationCompletion slot va frame szLog rd wr s
  | .priPageResponse slot va success => Sys2Proof.Machine.execPriPageResponse slot va success s
  | .atsInvalidationRequest slot va szLog => Sys2Proof.Machine.execAtsInvalidationRequest slot va szLog s
  | .atsInvalidationCompletion slot => Sys2Proof.Machine.execAtsInvalidationCompletion slot s
  | .tlbiL2Drop die k => Sys2Proof.Machine.execTlbiL2Drop die k s
  | .tlbiCoreAcknowledge core => Sys2Proof.Machine.execTlbiCoreAcknowledge core s
  | .tlbiWatchdogExpiry core k => Sys2Proof.Machine.execTlbiWatchdogExpiry core k s
  | .heapWindowWrite which slot v => Sys2Proof.Machine.execHeapWindowWrite which slot v s
  | .syncWindowWrite which slot v => Sys2Proof.Machine.execSyncWindowWrite which slot v s
  | .configChangeCut unit => Sys2Proof.Machine.execConfigChangeCut unit s
  | .dirtySelWrite v => Sys2Proof.Machine.execDirtySelWrite v s
  | .timeScaleWrite slot v => Sys2Proof.Machine.execTimeScaleWrite slot v s
  | .timeOffWrite slot v => Sys2Proof.Machine.execTimeOffWrite slot v s
  | .errModeWrite v => Sys2Proof.Machine.execErrModeWrite v s
  | .perfSelWrite slot k v => Sys2Proof.Machine.execPerfSelWrite slot k v s
  | .groundRemoteArrival id => Sys2Proof.Machine.execGroundRemoteArrival id s
  | .bankStarvation core bank who => Sys2Proof.Machine.execBankStarvation core bank who s
  | .sliceScrubVisit arr addr err => Sys2Proof.Machine.execSliceScrubVisit arr addr err s
  | .syncOperationArrival id => Sys2Proof.Machine.execSyncOperationArrival id s
  | .refreshWindowBoundary stack => Sys2Proof.Machine.execRefreshWindowBoundary stack s
  | .perBankRefresh bank => Sys2Proof.Machine.execPerBankRefresh bank s
  | .refreshEnd bank => Sys2Proof.Machine.execRefreshEnd bank s
  | .rowActivation bank row slot => Sys2Proof.Machine.execRowActivation bank row slot s
  | .disturbIntervalReset bank => Sys2Proof.Machine.execDisturbIntervalReset bank s
  | .chanRetireWrite v => Sys2Proof.Machine.execChanRetireWrite v s
  | .channelTrainingFail stack ch => Sys2Proof.Machine.execChannelTrainingFail stack ch s
  | .stripeRebuild stack => Sys2Proof.Machine.execStripeRebuild stack s
  | .chanSecondFail stack ch => Sys2Proof.Machine.execChanSecondFail stack ch s
  | .hbmScrubVisit gran err => Sys2Proof.Machine.execHbmScrubVisit gran err s
  | .tagSweepVisit e => Sys2Proof.Machine.execTagSweepVisit e s
  | .sweepPassEnd => Sys2Proof.Machine.execSweepPassEnd s
  | .ownerTableWrite block v => Sys2Proof.Machine.execOwnerTableWrite block v s
  | .peerWindowWrite w v => Sys2Proof.Machine.execPeerWindowWrite w v s
  | .multicastGroupWrite entry v => Sys2Proof.Machine.execMulticastGroupWrite entry v s
  | .peerRequestArrival src slot what data ttag age => Sys2Proof.Machine.execPeerRequestArrival src slot what data ttag age s
  | .leaseEntrySet ix v => Sys2Proof.Machine.execLeaseEntrySet ix v s
  | .leaseOffer ix v => Sys2Proof.Machine.execLeaseOffer ix v s
  | .leaseReclaimStart ix => Sys2Proof.Machine.execLeaseReclaimStart ix s
  | .borrowEntrySet ix v => Sys2Proof.Machine.execBorrowEntrySet ix v s
  | .borrowWait ix v => Sys2Proof.Machine.execBorrowWait ix v s
  | .borrowWithdraw ix => Sys2Proof.Machine.execBorrowWithdraw ix s
  | .borrowRelease ix => Sys2Proof.Machine.execBorrowRelease ix s
  | .grant src msg => Sys2Proof.Machine.execGrant src msg s
  | .accept src msg => Sys2Proof.Machine.execAccept src msg s
  | .refuse src msg => Sys2Proof.Machine.execRefuse src msg s
  | .reclaim src msg => Sys2Proof.Machine.execReclaim src msg s
  | .borrowerFlushDone b => Sys2Proof.Machine.execBorrowerFlushDone b s
  | .flushed src msg => Sys2Proof.Machine.execFlushed src msg s
  | .pieceCopyDone l => Sys2Proof.Machine.execPieceCopyDone l s
  | .pieceMoved src msg => Sys2Proof.Machine.execPieceMoved src msg s
  | .pieceAck src msg => Sys2Proof.Machine.execPieceAck src msg s
  | .done_ src msg => Sys2Proof.Machine.execDone src msg s
  | .release_ src msg => Sys2Proof.Machine.execRelease src msg s
  | .lenderReclaimTimeout l => Sys2Proof.Machine.execLenderReclaimTimeout l s
  | .borrowerReclaimTimeout b => Sys2Proof.Machine.execBorrowerReclaimTimeout b s
  | .peerTimeout id => Sys2Proof.Machine.execPeerTimeout id s
  | .flitCheckFail st => Sys2Proof.Machine.execFlitCheckFail st s
  | .retrainComplete st => Sys2Proof.Machine.execRetrainComplete st s
  | .bucketLeak st => Sys2Proof.Machine.execBucketLeak st s
  | .packetUndeliverable st dev => Sys2Proof.Machine.execPacketUndeliverable st dev s
  | .genAdvAccept => Sys2Proof.Machine.execGenAdvAccept s
  | .dieCut die => Sys2Proof.Machine.execDieCut die s
  | .coreCut core => Sys2Proof.Machine.execCoreCut core s
  | .sequencerChangeDone => Sys2Proof.Machine.execSequencerChangeDone s
  | .publishPrepare slot h die => Sys2Proof.Machine.execPublishPrepare slot h die s
  | .prepareAck slot h die => Sys2Proof.Machine.execPrepareAck slot h die s
  | .publishCommit slot h die => Sys2Proof.Machine.execPublishCommit slot h die s
  | .commitAck slot h die => Sys2Proof.Machine.execCommitAck slot h die s
  | .twinSwap slot h die => Sys2Proof.Machine.execTwinSwap slot h die s
  | .groupDispatch level unit => Sys2Proof.Machine.execGroupDispatch level unit s
  | .groupEnd gid => Sys2Proof.Machine.execGroupEnd gid s
  | .succDecrement k => Sys2Proof.Machine.execSuccDecrement k s
  | .waitTimeout strand => Sys2Proof.Machine.execWaitTimeout strand s
  | .yieldExpiry strand => Sys2Proof.Machine.execYieldExpiry strand s
  | .matrixEntryStart core => Sys2Proof.Machine.execMatrixEntryStart core s
  | .matrixEntryComplete core => Sys2Proof.Machine.execMatrixEntryComplete core s
  | .vectorEntryStart core => Sys2Proof.Machine.execVectorEntryStart core s
  | .launchQueueDoorbell slot q pi => Sys2Proof.Machine.execLaunchQueueDoorbell slot q pi s
  | .packetFetch slot q => Sys2Proof.Machine.execPacketFetch slot q s
  | .launchRetry slot q => Sys2Proof.Machine.execLaunchRetry slot q s
  | .completionRecordWrite slot q => Sys2Proof.Machine.execCompletionRecordWrite slot q s
  | .launchQueueEnable slot q v => Sys2Proof.Machine.execLaunchQueueEnable slot q v s
  | .teardownStart slot q => Sys2Proof.Machine.execTeardownStart slot q s
  | .teardownWindowExpiry slot q => Sys2Proof.Machine.execTeardownWindowExpiry slot q s
  | .queueBlockMove kind src dst => Sys2Proof.Machine.execQueueBlockMove kind src dst s
  | .preemptRequest gid => Sys2Proof.Machine.execPreemptRequest gid s
  | .safePointArrival strand => Sys2Proof.Machine.execSafePointArrival strand s
  | .preemptDeadlineExpiry gid core => Sys2Proof.Machine.execPreemptDeadlineExpiry gid core s
  | .saveComplete gid => Sys2Proof.Machine.execSaveComplete gid s
  | .restore_ gid => Sys2Proof.Machine.execRestore gid s
  | .preemptWatchdog gid => Sys2Proof.Machine.execPreemptWatchdog gid s
  | .taskStart die slot => Sys2Proof.Machine.execTaskStart die slot s
  | .taskCommit die slot => Sys2Proof.Machine.execTaskCommit die slot s
  | .debugAttach fn core => Sys2Proof.Machine.execDebugAttach fn core s
  | .debugHalt core mask => Sys2Proof.Machine.execDebugHalt core mask s
  | .debugResume core mask => Sys2Proof.Machine.execDebugResume core mask s
  | .debugStep core mask => Sys2Proof.Machine.execDebugStep core mask s
  | .debugDataWrite fn v => Sys2Proof.Machine.execDebugDataWrite fn v s
  | .hostRegisterWrite fn bar off size v => Sys2Proof.Machine.execHostRegisterWrite fn bar off size v s
  | .bar2WinWrite fn v => Sys2Proof.Machine.execBar2WinWrite fn v s
  | .hostHeapWrite fn off n data => Sys2Proof.Machine.execHostHeapWrite fn off n data s
  | .hostMemoryRead fn off n => Sys2Proof.Machine.execHostMemoryRead fn off n s
  | .eventRecordWrite fn => Sys2Proof.Machine.execEventRecordWrite fn s
  | .msixUnmask fn vec => Sys2Proof.Machine.execMsixUnmask fn vec s
  | .mailboxSend fn dirIn v => Sys2Proof.Machine.execMailboxSend fn dirIn v s
  | .mailboxBusyClear fn dirIn => Sys2Proof.Machine.execMailboxBusyClear fn dirIn s
  | .vfFunctionLevelReset fn => Sys2Proof.Machine.execVfFunctionLevelReset fn s
  | .dieReset mask => Sys2Proof.Machine.execDieReset mask s
  | .devReset => Sys2Proof.Machine.execDevReset s
  | .coldReset => Sys2Proof.Machine.execColdReset s
  | .fwCmd v => Sys2Proof.Machine.execFwCmd v s
  | .attCmd v => Sys2Proof.Machine.execAttCmd v s
  | .clockStep up => Sys2Proof.Machine.execClockStep up s
  | .thermalTrip => Sys2Proof.Machine.execThermalTrip s
  | .peerResponseArrival id kind data => Sys2Proof.Machine.execPeerResponseArrival id kind data s
  | .memoryAccessArrival id => Sys2Proof.Machine.execMemoryAccessArrival id s
  | .accessResponseReturn id => Sys2Proof.Machine.execAccessResponseReturn id s
  | .vectorEntryComplete core => Sys2Proof.Machine.execVectorEntryComplete core s
  | .powerLoss => Sys2Proof.Machine.execPowerLoss s
  | .resetEnd kind unit => Sys2Proof.Machine.execResetEnd kind unit s
  | .attestationReportDone => Sys2Proof.Machine.execAttestationReportDone s
  | .stationUp st dev => Sys2Proof.Machine.execStationUp st dev s

end Sys2Proof.Machine
end

