-- ==== Sys2Proof/Machine/Turn.lean ====
section
/-! DEFINITION. What one agent does when it moves: a strand's instruction, a core's issue, an event; and the group that
`State.withFetchWord` sets running. -/
namespace Sys2Proof.Machine

/-- Strand `n` fetches, decodes and executes one instruction, or takes the trap of steps 1 to 5 of R296. -/
def stepStrand (n : Nat) (s : State) : Out :=
  let s := { s with cur := n }
  match s.fetch n with
  | .old => .next (s.oldFetch n)
  | .none => .next (s.block n)
  | .trap e ins => .next ((s.issued n).trap n e.code e.sub e.addr (s.getPc n) ins)
  | .instr i =>
    match exec i s with
    | .next t => .next (if t.notIssued n then t else t.issued n)
    | r => r

/-- R216: the first strand after the rotation pointer that can issue does. -/
def stepCore : List Nat → State → Out
  | [], s => .next s
  | n :: l, s =>
    if s.eligible n then
      match stepStrand n s with
      | .next t => if t.notIssued n then stepCore l t else .next t
      | r => r
    else stepCore l s

/-- Each step is one cycle of the model's clock. Log entry 12 (DESIGN CHOICE). -/
def State.tock (s : State) : State := { s with cycle := s.cycle + 1, ref := s.ref + 1, turn := none }

/-- An event of the table takes its effect. -/
def runEvent (i : Instr) (s : State) : Out := if isEvent i then exec i s else .fault .notAnEvent

/-- A strand whose turn it is. -/
def runStrand (n : Nat) (s : State) : Out := if s.eligible n then stepStrand n s else .next s

/-- An agent moves; a choice takes three of the free values. Log entry 2 (DESIGN CHOICE). -/
def runAgent (a : Agent) (s : State) : Out :=
  let s := { s with free := s.free + 3 }
  match a with
  | .core c => stepCore (rotation c (s.core c).rot) s
  | .event i => runEvent i s
  | .input i => runEvent i { s with inputs := s.inputs.drop 1 }

/-- The group that `withFetchWord` sets running: core 0 whole, with every object of the core and the whole slice, slot 0. Log entry 13 (DESIGN CHOICE). -/
def fetchGroup : Group :=
  { slot := 0, gen := 0, ref := 0, idx := 0, level := 1, cores := [0], strands := [0, 1, 2, 3],
    pkt := BitVec.ofNat 2048 (0x1200000000000001 + (8 * 2 ^ 58 + 8 * 2 ^ 51 + 64 * 2 ^ 38 + 32 * 2 ^ 27 + 256 * 2 ^ 10) * 2 ^ 128 +
      384 * 2 ^ 192),
    vbase := [(1, 64), (2, 128), (3, 192)], pro := 0, ker := 0, epi := 0, trip := 0, st := .running, q := none, pre := none,
    choice := [], dbgSince := none, frame0 := none, copies := [], dispatched := 0, fail := none }

/-- The machine with core 0 running `fetchGroup` and the code bytes of `w` at offset 0 of the heap of slot 0, which is 64 KiB at
device-physical address 0. Log entry 13 (DESIGN CHOICE). -/
def State.place (s : State) (w : Nat) : State :=
  let s := (s.mapCtx 0 fun x => { x with heapLimit := 0x10000, heapOff := 0 }).uncache [0]
  let s := { s with
    hbm := s.hbm.write false (s.slotTag 0) (cellsAt 0 (leBytes 16 w))
    past := [], upsets := []
    groups := Tbl.ins s.groups 0 { fetchGroup with gen := (s.ctxOf 0).gen.toNat }
    turn := some (.strand 0) }
  let s := [1, 2, 3].foldl (fun s n => s.mapStrand n fun x => { x with grp := some 0, st := .parked }) s
  s.mapStrand 0 fun x =>
    { x with st := .running, dbg := false, grp := some 0, pc := Tagged.whole (s.slotTag 0) 0, pend := [], yieldUntil := 0, stall := 0, atSafe := false }

end Sys2Proof.Machine
end

