-- ==== Sys2Proof/Machine/Step.lean ====
section
/-! DEFINITION. One step: time moves on, one agent moves; and the placing of an instruction where the next step fetches. -/
namespace Sys2Proof.Machine

/-- One step: the agent that `turn` pins, or one of those that may move; the errors that its accesses meet come first (R78 to R81). -/
def step (s : State) : Host.Outcome State Fault Refusal :=
  match s.turn with
  | some (.strand n) => runStrand n s.tock.meetAll
  | some (.event i) => runEvent i s.tock.meetAll
  | none => let t := s.tock.meetAll.chance; runAgent t.chosen t

/-- Place an instruction where the next step fetches: a heap for slot 0, a group on core 0 whose strand 0 runs at heap offset 0,
and that strand's turn (log entry 13). Log entry 13 (DESIGN CHOICE). -/
def State.withFetchWord (s : State) (nbits w : Nat) : State := s.place (w % 2 ^ nbits)

end Sys2Proof.Machine
end

