-- ==== Sys2Proof/Safety.lean ====
section
/-! DEFINITION. What a safe run is: steps that all give a next state, from states whose agenda names events only; and the words in
which claims about instructions are stated. -/
namespace Sys2Proof

open Machine

/-- A step that gives a next state. -/
def Steps (s t : State) : Prop := step s = .next t

/-- `k` steps that all give a next state. -/
def Runs : Nat → State → State → Prop
  | 0, s, t => s = t
  | k + 1, s, t => ∃ u, Steps s u ∧ Runs k u t

/-- Only events stand where an agent's step is named: such a state never faults. -/
def Machine.State.OnlyEvents (s : State) : Prop :=
  s.inputs.all isEvent = true ∧ ∀ i, s.turn = some (.event i) → isEvent i = true

/-! ### Words for claims about a strand's instruction -/

/-- The predicate `p`, the sources and the destinations of an instruction of the current strand have been produced (R217), none of
them is poisoned (R81), and no destination is a register that a copy command still reads (R427). -/
def Machine.State.sound (s : State) (p : Pred) (srcs dsts : List Nat) : Bool :=
  let x := s.strand s.cur
  let t := s.tagOfStrand s.cur
  !(x.pend.contains (pendP p.n.toNat)) && !(x.pBad t p.n.toNat) && !((srcs ++ dsts).any x.pend.contains) &&
    !(dsts.any (s.specHeld s.cur)) && !(srcs.any (x.srcBad t))

/-- The same, and bit 0 of the predicate lets the instruction execute (R277). -/
def Machine.State.ready (s : State) (p : Pred) (srcs dsts : List Nat) : Bool := s.sound p srcs dsts && s.predOn s.cur p

/-- The current strand after scalar `d` took `v` and PC moved past `i`. -/
def Machine.State.wrote (s : State) (i : Instr) (d : Nat) (v : W64) : State := (s.setS s.cur d v).adv s.cur i

/-- The value of an operand for the current strand. -/
def Machine.State.val (s : State) (o : Opd) : W64 := s.opd s.cur o

/-- The nearest integer of [lo, hi], as 64 bits. -/
def clamped (lo hi x : Int) : W64 := BitVec.ofInt 64 (max lo (min hi x))

end Sys2Proof
end

