-- ==== Sys2Proof/Certificates/Slice0/Obligations.lean ====
section
/-! DEFINITION. What this slice states of the model, for the provers. -/
open Sys2Proof Sys2Proof.Machine

/-! ### Scalar instructions (R302 to R309) -/

/-- R302, R309: ADD, SUB, MUL, MULH, MAD, LEA and MOV write the value their rule gives to D and move PC past the instruction. -/
def Obligations.SumsProductsAndMoves : Prop :=
  ∀ (s : State) (f : FA), s.ready f.pr (opdRegs [f.a, f.b, f.c]) [f.d.dest] = true →
    let a := s.val f.a
    let b := s.val f.b
    let c := s.val f.c
    exec (.add f) s = .next (s.wrote (.add f) f.d.dest
      (if f.m = 0 then a + b else if f.m = 1 then clamped (-2 ^ 63) (2 ^ 63 - 1) (a.toInt + b.toInt)
        else clamped 0 (2 ^ 64 - 1) (a.toNat + b.toNat))) ∧
    exec (.sub f) s = .next (s.wrote (.sub f) f.d.dest
      (if f.m = 0 then a - b else if f.m = 1 then clamped (-2 ^ 63) (2 ^ 63 - 1) (a.toInt - b.toInt)
        else clamped 0 (2 ^ 64 - 1) (a.toNat - b.toNat))) ∧
    exec (.mul f) s = .next (s.wrote (.mul f) f.d.dest (BitVec.ofNat 64 (a.toNat * b.toNat))) ∧
    exec (.mulh f) s = .next (s.wrote (.mulh f) f.d.dest
      (if f.m = 0 then BitVec.ofInt 64 (a.toInt * b.toInt / 2 ^ 64) else BitVec.ofNat 64 (a.toNat * b.toNat / 2 ^ 64))) ∧
    exec (.mad f) s = .next (s.wrote (.mad f) f.d.dest (BitVec.ofNat 64 (a.toNat * b.toNat + c.toNat))) ∧
    exec (.lea f) s = .next (s.wrote (.lea f) f.d.dest (BitVec.ofNat 64 (a.toNat + b.toNat * 2 ^ f.m.toNat + c.toNat))) ∧
    exec (.mov f) s = .next (s.wrote (.mov f) f.d.dest a)

/-- R303, with the quotients and remainders of R302: DIV truncates toward zero, REM takes the sign of A; neither traps, for any
operands, and the corner cases have the values of R303's table. -/
def Obligations.DivisionNeverTraps : Prop :=
  ∀ (s : State) (f : FA), s.ready f.pr (opdRegs [f.a, f.b, f.c]) [f.d.dest] = true →
    let a := s.val f.a
    let b := s.val f.b
    exec (.div f) s = .next (s.wrote (.div f) f.d.dest
      (if b = 0 then BitVec.allOnes 64 else if f.m = 0 then BitVec.ofInt 64 (a.toInt.tdiv b.toInt)
        else BitVec.ofNat 64 (a.toNat / b.toNat))) ∧
    exec (.rem f) s = .next (s.wrote (.rem f) f.d.dest
      (if b = 0 then a else if f.m = 0 then BitVec.ofInt 64 (a.toInt.tmod b.toInt) else BitVec.ofNat 64 (a.toNat % b.toNat))) ∧
    (f.m = 0 → a = BitVec.ofInt 64 (-2 ^ 63) → b = BitVec.ofInt 64 (-1) →
      exec (.div f) s = .next (s.wrote (.div f) f.d.dest a) ∧ exec (.rem f) s = .next (s.wrote (.rem f) f.d.dest 0))

/-- R304: the bits of AND, OR, XOR, ANDN, SHL, SHR, SAR and ROT. -/
def logicAndShifts : Prop :=
  ∀ (s : State) (f : FA), s.ready f.pr (opdRegs [f.a, f.b, f.c]) [f.d.dest] = true →
    let a := s.val f.a
    let b := s.val f.b
    let n := b.toNat % 64
    let bitwise (i : Instr) (g : Nat → Bool) : Prop :=
      ∃ v : W64, (∀ k, k < 64 → v.getLsbD k = g k) ∧ exec i s = .next (s.wrote i f.d.dest v)
    bitwise (.and_ f) (fun k => a.getLsbD k && b.getLsbD k) ∧
    bitwise (.or_ f) (fun k => a.getLsbD k || b.getLsbD k) ∧
    bitwise (.xor f) (fun k => a.getLsbD k ^^ b.getLsbD k) ∧
    bitwise (.andn f) (fun k => a.getLsbD k && !(b.getLsbD k)) ∧
    bitwise (.shl f) (fun k => decide (n ≤ k) && a.getLsbD (k - n)) ∧
    bitwise (.shr f) (fun k => a.getLsbD (k + n)) ∧
    bitwise (.sar f) (fun k => if k + n < 64 then a.getLsbD (k + n) else a.getLsbD 63) ∧
    bitwise (.rot f) (fun k => a.getLsbD ((k + 64 - n) % 64))

/-- R304: CLZ, CTZ and POPC count the bits that their names say, and CLMUL is the carry-less product or its high half. -/
def bitCounts : Prop :=
  ∀ (s : State) (f : FA), s.ready f.pr (opdRegs [f.a, f.b, f.c]) [f.d.dest] = true →
    let a := s.val f.a
    let b := s.val f.b
    let odd (l : List Bool) : Bool := (l.filter id).length % 2 == 1
    (∃ n, n ≤ 64 ∧ (∀ k, 64 - n ≤ k → k < 64 → a.getLsbD k = false) ∧ (n < 64 → a.getLsbD (63 - n) = true) ∧
      exec (.clz f) s = .next (s.wrote (.clz f) f.d.dest (BitVec.ofNat 64 n))) ∧
    (∃ n, n ≤ 64 ∧ (∀ k, k < n → a.getLsbD k = false) ∧ (n < 64 → a.getLsbD n = true) ∧
      exec (.ctz f) s = .next (s.wrote (.ctz f) f.d.dest (BitVec.ofNat 64 n))) ∧
    exec (.popc f) s = .next (s.wrote (.popc f) f.d.dest (BitVec.ofNat 64 ((List.range 64).filter (a.getLsbD ·)).length)) ∧
    (∃ v : W64, (∀ k, k < 64 → v.getLsbD k =
        let m := k + if f.m = 0 then 0 else 64
        odd ((List.range 64).map fun j => b.getLsbD j && decide (j ≤ m) && a.getLsbD (m - j))) ∧
      exec (.clmul f) s = .next (s.wrote (.clmul f) f.d.dest v))

/-- R305: EXT takes the field [B+C-1:B] of A, zero- or sign-extended; INS puts the low C bits of A into that field of D and leaves
the rest of D; field limits that do not hold trap ILLEGAL_OPERAND. -/
def bitFields : Prop :=
  ∀ (s : State) (f : FA),
    let a := s.val f.a
    let b := (s.val f.b).toNat
    let c := (s.val f.c).toNat
    let d := s.val f.d
    let limits := 1 ≤ c ∧ c ≤ 64 ∧ b + c ≤ 64
    (s.ready f.pr (opdRegs [f.a, f.b, f.c]) [f.d.dest] = true → limits →
      ∃ v : W64, (∀ k, k < 64 → v.getLsbD k = if k < c then a.getLsbD (b + k) else f.m == 1 && a.getLsbD (b + c - 1)) ∧
        exec (.ext f) s = .next (s.wrote (.ext f) f.d.dest v)) ∧
    (s.ready f.pr (opdRegs [f.a, f.b, f.c] ++ [f.d.dest]) [f.d.dest] = true → limits →
      ∃ v : W64, (∀ k, k < 64 → v.getLsbD k = if b ≤ k ∧ k < b + c then a.getLsbD (k - b) else d.getLsbD k) ∧
        exec (.ins f) s = .next (s.wrote (.ins f) f.d.dest v)) ∧
    (s.ready f.pr (opdRegs [f.a, f.b, f.c]) [f.d.dest] = true → ¬limits →
      exec (.ext f) s = .next (s.trapNow s.cur (.ext f) ⟨cOperand, 0, 0⟩)) ∧
    (s.ready f.pr (opdRegs [f.a, f.b, f.c] ++ [f.d.dest]) [f.d.dest] = true → ¬limits →
      exec (.ins f) s = .next (s.trapNow s.cur (.ins f) ⟨cOperand, 0, 0⟩))

/-- R282: when condition code `n` holds of two 64-bit values. -/
def conditionHolds (n : Nat) (a b : W64) : Prop :=
  match n with
  | 0 => True
  | 1 => a = b
  | 2 => a ≠ b
  | 3 => a.toInt < b.toInt
  | 4 => b.toInt ≤ a.toInt
  | 5 => a.toNat < b.toNat
  | 6 => b.toNat ≤ a.toNat
  | 7 => a.toInt ≤ b.toInt
  | 8 => b.toInt < a.toInt
  | 9 => a.toNat ≤ b.toNat
  | _ => b.toNat < a.toNat

/-- R302 (MIN, MAX), R306 (CMPS, CMP), R307 (SEL): the comparisons and what they select. -/
def comparisonsSelect : Prop :=
  ∀ (s : State) (f : FA),
    let a := s.val f.a
    let b := s.val f.b
    let le := if f.m = 0 then a.toInt ≤ b.toInt else a.toNat ≤ b.toNat
    (s.ready f.pr (opdRegs [f.a, f.b, f.c]) [f.d.dest] = true →
      (le → exec (.min f) s = .next (s.wrote (.min f) f.d.dest a) ∧ exec (.max f) s = .next (s.wrote (.max f) f.d.dest b)) ∧
      (¬le → exec (.min f) s = .next (s.wrote (.min f) f.d.dest b) ∧ exec (.max f) s = .next (s.wrote (.max f) f.d.dest a)) ∧
      (conditionHolds f.m.toNat a b → exec (.cmps f) s = .next (s.wrote (.cmps f) f.d.dest 1)) ∧
      (¬conditionHolds f.m.toNat a b → exec (.cmps f) s = .next (s.wrote (.cmps f) f.d.dest 0))) ∧
    (s.ready f.pr (opdRegs [f.a, f.b]) [pendP f.d.number] = true → f.d.number < 8 →
      (conditionHolds f.m.toNat a b →
        exec (.cmp f) s = .next ((s.setP s.cur f.d.number (BitVec.allOnes 64)).adv s.cur (.cmp f))) ∧
      (¬conditionHolds f.m.toNat a b → exec (.cmp f) s = .next ((s.setP s.cur f.d.number 0).adv s.cur (.cmp f)))) ∧
    (s.ready f.pr (opdRegs [f.a, f.b]) [pendP f.d.number] = true → 8 ≤ f.d.number →
      exec (.cmp f) s = .next (s.trapNow s.cur (.cmp f) ⟨cOperand, 0, 0⟩)) ∧
    (s.ready f.pr (pendP (f.m.toNat % 8) :: opdRegs [f.a, f.b]) [f.d.dest] = true →
      exec (.sel f) s = .next (s.wrote (.sel f) f.d.dest
        (if ((s.getP s.cur (f.m.toNat % 8)).getLsbD 0 ^^ f.m.getLsbD 3) = true then a else b)))

/-- R308: PLOG and MOVP on all 64 bits of predicates; a field that names no predicate traps ILLEGAL_OPERAND. -/
def predicateLogic : Prop :=
  ∀ (s : State) (f : FA),
    let one := f.m.toNat = 4
    let pa := s.getP s.cur f.a.number
    let pb := s.getP s.cur f.b.number
    let v := match f.m.toNat with | 0 => pa &&& pb | 1 => pa ||| pb | 2 => pa ^^^ pb | 3 => pa &&& ~~~pb | _ => ~~~pa
    (s.ready f.pr (pendP f.a.number :: if one then [] else [pendP f.b.number]) [pendP f.d.number] = true →
      (f.d.number < 8 → f.a.number < 8 → (one ∨ f.b.number < 8) →
        exec (.plog f) s = .next ((s.setP s.cur f.d.number v).adv s.cur (.plog f))) ∧
      (¬(f.d.number < 8 ∧ f.a.number < 8 ∧ (one ∨ f.b.number < 8)) →
        exec (.plog f) s = .next (s.trapNow s.cur (.plog f) ⟨cOperand, 0, 0⟩))) ∧
    (f.m = 0 → s.ready f.pr [pendP f.a.number] [f.d.dest] = true →
      (f.a.number < 8 → exec (.movp f) s = .next (s.wrote (.movp f) f.d.dest pa)) ∧
      (8 ≤ f.a.number → exec (.movp f) s = .next (s.trapNow s.cur (.movp f) ⟨cOperand, 0, 0⟩))) ∧
    (f.m ≠ 0 → s.ready f.pr (opdRegs [f.a]) [pendP f.d.number] = true →
      (f.d.number < 8 → exec (.movp f) s = .next ((s.setP s.cur f.d.number (s.val f.a)).adv s.cur (.movp f))) ∧
      (8 ≤ f.d.number → exec (.movp f) s = .next (s.trapNow s.cur (.movp f) ⟨cOperand, 0, 0⟩)))

/-- The scalar instructions that write one scalar register and nothing else (R302 to R309). -/
def writesOneScalar : Instr → Option FA
  | .add f | .sub f | .mul f | .mulh f | .div f | .rem f | .and_ f | .or_ f | .xor f | .andn f | .shl f | .shr f | .sar f | .rot f
  | .min f | .max f | .clz f | .ctz f | .popc f | .ext f | .sel f | .cmps f | .mad f | .lea f | .mov f | .clmul f | .ins f => some f
  | _ => none

/-- What such an instruction reads, by scoreboard number. -/
def scalarReads (i : Instr) (f : FA) : List Nat :=
  match i with
  | .sel _ => pendP (f.m.toNat % 8) :: opdRegs [f.a, f.b]
  | .ins _ => opdRegs [f.a, f.b, f.c] ++ [f.d.dest]
  | _ => opdRegs [f.a, f.b, f.c]

/-- The frame of the scalar instructions: when one executes without a trap, its strand keeps every scalar but D, every predicate and
every control register, FPC with its flags among them; every other strand, every core, die, slot and function, the package, the groups,
what is in flight and every byte of memory stay as they are. -/
def Obligations.ScalarFrame : Prop :=
  ∀ (s t : State) (i : Instr) (f : FA), writesOneScalar i = some f →
    s.ready f.pr (scalarReads i f) [f.d.dest] = true →
    ((∃ g, i = .ext g) ∨ (∃ g, i = .ins g) → fieldOk (s.val f.b) (s.val f.c) = true) →
    exec i s = .next t →
    let x := s.strand s.cur
    let y := t.strand s.cur
    let g := s.tagOfStrand s.cur
    (∀ j, j ≠ f.d.dest ∨ j = 0 → y.s g j = x.s g j) ∧ (∀ j, y.p g j = x.p g j) ∧ (∀ k, y.ctlReg g k = x.ctlReg g k) ∧
    y.getPc g = x.getPc g + BitVec.ofNat 64 i.len ∧
    (∀ n, n ≠ s.cur → t.strand n = s.strand n) ∧ { t with strands := s.strands } = s ∧
    (∀ l q a, t.hbm.byte l q a = s.hbm.byte l q a) ∧ (∀ l q a, t.ground.byte l q a = s.ground.byte l q a)

/-- R304, R305: the scalar instructions on bits, shifts, counts and fields. -/
def Obligations.LogicShiftsAndBitFields : Prop := logicAndShifts ∧ bitCounts ∧ bitFields

/-- R302, R306, R307, R308: comparisons, what they select, and predicates. -/
def Obligations.ComparisonsAndPredicates : Prop := comparisonsSelect ∧ predicateLogic
/-! ### Branches, loops and strand control (R310 to R321, R211) -/

/-- R310, R311: the target of a Form B instruction of the current strand, and where PC goes when nothing branches. -/
def branchTo (s : State) (off : BitVec 32) : W64 := s.getPc s.cur + off.signExtend 64
def pastIt (s : State) (i : Instr) : W64 := s.getPc s.cur + BitVec.ofNat 64 i.len

/-- R310, R311, R312: BR, BRC, BRP, JMP, CALL, CALLR and RET send PC to the target when their condition holds and past the instruction
when it does not; BRC decrements A first; CALL and CALLR put the return address into s63; a jump to an address that is no multiple of 4
traps MISALIGNED with PC and s63 unchanged. -/
def Obligations.BranchesCallsAndReturns : Prop :=
  ∀ (s : State),
    let n := s.cur
    let went (t : State) (pc : W64) : Prop :=
      (t.strand n).getPc (s.tagOfStrand n) = pc ∧ { t with strands := s.strands } = s ∧ ∀ m, m ≠ n → t.strand m = s.strand m
    let same (t : State) : Prop := ∀ j, (t.strand n).s (s.tagOfStrand n) j = (s.strand n).s (s.tagOfStrand n) j
    let linked (t : State) (v : W64) : Prop := ∀ j, (t.strand n).s (s.tagOfStrand n) j = if j = 63 then v else (s.strand n).s (s.tagOfStrand n) j
    (∀ f : FB, s.ready f.pr (opdRegs [f.a, f.b]) [] = true →
      ∃ t, exec (.br f) s = .next t ∧ same t ∧
        (conditionHolds f.cond.toNat (s.val f.a) (s.val f.b) → went t (branchTo s f.off)) ∧
        (¬conditionHolds f.cond.toNat (s.val f.a) (s.val f.b) → went t (pastIt s (.br f)))) ∧
    (∀ f : FB, s.ready f.pr (opdRegs [f.a, f.b]) [f.a.dest] = true →
      ∃ t, exec (.brc f) s = .next t ∧
        (∀ j, (t.strand n).s (s.tagOfStrand n) j =
          if j = f.a.dest ∧ j ≠ 0 then s.val f.a - 1 else (s.strand n).s (s.tagOfStrand n) j) ∧
        (conditionHolds f.cond.toNat (s.val f.a - 1) (s.val f.b) → went t (branchTo s f.off)) ∧
        (¬conditionHolds f.cond.toNat (s.val f.a - 1) (s.val f.b) → went t (pastIt s (.brc f)))) ∧
    (∀ f : FB, s.ready f.pr [pendP f.a.number] [] = true →
      let p := s.getP n f.a.number
      let on : Prop := match f.cond.toNat with
        | 0 => p.getLsbD 0 = true | 1 => p.getLsbD 0 = false | 2 => ∃ k, p.getLsbD k = true
        | 3 => ∀ k, k < 64 → p.getLsbD k = true | _ => ∀ k, p.getLsbD k = false
      (f.a.number < 8 → f.cond.toNat ≤ 4 → ∃ t, exec (.brp f) s = .next t ∧ same t ∧
        (on → went t (branchTo s f.off)) ∧ (¬on → went t (pastIt s (.brp f)))) ∧
      (8 ≤ f.a.number ∨ 4 < f.cond.toNat → exec (.brp f) s = .next (s.trapNow n (.brp f) ⟨cOperand, 0, 0⟩))) ∧
    (∀ f : FB, s.ready f.pr [] [63] = true →
      (f.cond = 0 → ∃ t, exec (.call f) s = .next t ∧ went t (branchTo s f.off) ∧ linked t (pastIt s (.call f))) ∧
      (f.cond ≠ 0 → exec (.call f) s = .next (s.trapNow n (.call f) ⟨cOperand, 0, 0⟩))) ∧
    (∀ f : FA, s.ready f.pr (opdRegs [f.a]) [] = true →
      ((s.val f.a).toNat % 4 = 0 → ∃ t, exec (.jmp f) s = .next t ∧ went t (s.val f.a) ∧ same t) ∧
      ((s.val f.a).toNat % 4 ≠ 0 → exec (.jmp f) s = .next (s.trapNow n (.jmp f) ⟨cMisaligned, 0, 0⟩))) ∧
    (∀ f : FA, s.ready f.pr (opdRegs [f.a]) [63] = true →
      ((s.val f.a).toNat % 4 = 0 → ∃ t, exec (.callr f) s = .next t ∧ went t (s.val f.a) ∧ linked t (pastIt s (.callr f))) ∧
      ((s.val f.a).toNat % 4 ≠ 0 → exec (.callr f) s = .next (s.trapNow n (.callr f) ⟨cMisaligned, 0, 0⟩))) ∧
    (∀ f : FA, s.ready f.pr [63] [] = true →
      let v := (s.strand n).s (s.tagOfStrand n) 63
      (v.toNat % 4 = 0 → ∃ t, exec (.ret f) s = .next t ∧ went t v ∧ same t) ∧
      (v.toNat % 4 ≠ 0 → exec (.ret f) s = .next (s.trapNow n (.ret f) ⟨cMisaligned, 0, 0⟩)))

/-- R314, R315, R211: LOOP loads LC or skips; LEND.cnt goes round while LC is 2 or more; the record form of LEND moves from PRO to KER
or EPI, counts an iteration and goes round or on, and in no phase of a loop record traps ILLEGAL_OPERAND. -/
def Obligations.Loops : Prop :=
  ∀ (s : State) (f : FB),
    let n := s.cur
    let x := s.strand n
    let g := s.tagOfStrand n
    let ctl (t : State) (k : Nat) : W64 := (t.strand n).ctlReg g k
    let pc (t : State) : W64 := (t.strand n).getPc g
    let rest (t : State) : Prop :=
      (∀ j, (t.strand n).s g j = x.s g j) ∧ (∀ j, (t.strand n).p g j = x.p g j) ∧ { t with strands := s.strands } = s ∧
        ∀ m, m ≠ n → t.strand m = s.strand m
    (s.ready f.pr (opdRegs [f.a]) [] = true → f.cond = 0 →
      ∃ t, exec (.loop f) s = .next t ∧ rest t ∧
        (s.val f.a = 0 → pc t = branchTo s f.off ∧ ∀ k, ctl t k = s.getCtl n k) ∧
        (s.val f.a ≠ 0 → pc t = pastIt s (.loop f) ∧ ctl t nLC = s.val f.a ∧ ∀ k, k ≠ nLC → ctl t k = s.getCtl n k)) ∧
    (s.ready f.pr [pendC nLC] [] = true →
      ∃ t, exec (.lendCnt f) s = .next t ∧ rest t ∧ (∀ k, k ≠ nLC → ctl t k = s.getCtl n k) ∧
        (2 ≤ (s.getCtl n nLC).toNat → pc t = branchTo s f.off ∧ ctl t nLC = s.getCtl n nLC - 1) ∧
        ((s.getCtl n nLC).toNat < 2 → pc t = pastIt s (.lendCnt f) ∧ ctl t nLC = 0)) ∧
    (∀ gr, s.groupOf n = some gr → s.ready f.pr [pendC nLPH, pendC nITER] [] = true → f.cond = 0 →
      let lph := s.getCtl n nLPH
      let iter := s.getCtl n nITER
      (lph = 1 → ∃ t, exec (.lend f) s = .next t ∧ rest t ∧ ctl t nITER = 0 ∧
        (gr.trip = 0 → pc t = gr.epi ∧ ctl t nLPH = 3) ∧ (gr.trip ≠ 0 → pc t = gr.ker ∧ ctl t nLPH = 2)) ∧
      (lph = 2 → ∃ t, exec (.lend f) s = .next t ∧ rest t ∧ ctl t nITER = iter + 1 ∧
        ((iter + 1).toNat < gr.trip.toNat → pc t = gr.ker ∧ ctl t nLPH = 2) ∧
        (gr.trip.toNat ≤ (iter + 1).toNat → pc t = gr.epi ∧ ctl t nLPH = 3)) ∧
      (lph ≠ 1 → lph ≠ 2 → exec (.lend f) s = .next (s.trapNow n (.lend f) ⟨cOperand, 0, 0⟩)))

/-- R316 to R321: NOP, QPT, HALT, YIELD, RLABEL, BRK, TRAP and FORK. -/
def Obligations.StrandControl : Prop :=
  ∀ (s : State),
    let n := s.cur
    let g := s.tagOfStrand n
    (∀ f : FA, s.ready f.pr [] [] = true →
      exec (.nop f) s = .next (s.adv n (.nop f)) ∧
      (∃ t, exec (.qpt f) s = .next t ∧ (t.strand n).getPc g = pastIt s (.qpt f) ∧
        (t.core (coreOf n)).qpt = ((s.core (coreOf n)).qpt || s.pkg.tlbis.any (·.cores.contains (coreOf n)))) ∧
      (s.inTask n = false → ∃ t, exec (.halt f) s = .next t ∧ (t.strand n).getPc g = pastIt s (.halt f) ∧
        (t.strand n).st = (if (s.groupOf n).any (·.serves) then .taskwait else .halted)) ∧
      (s.inTask n = true → exec (.halt f) s = .next (s.trapNow n (.halt f) ⟨cOperand, 0, 0⟩))) ∧
    (∀ f : FA, s.ready f.pr (opdRegs [f.a]) [] = true →
      ((s.val f.a).toNat ≤ 65535 → ∃ t, exec (.yield f) s = .next t ∧ (t.strand n).getPc g = pastIt s (.yield f) ∧
        (t.strand n).yieldUntil = s.cycle + 1 + if s.val f.a = 0 then 64 else (s.val f.a).toNat) ∧
      (65535 < (s.val f.a).toNat → exec (.yield f) s = .next (s.trapNow n (.yield f) ⟨cOperand, 0, 0⟩)) ∧
      exec (.trap f) s = .next (s.trapNow n (.trap f) ⟨cSoftTrap, 0, s.val f.a⟩) ∧
      ((s.core (coreOf n)).port.isSome = true → ∃ t, exec (.brk f) s = .next t ∧ (t.strand n).dbg = true ∧
        (t.strand n).getPc g = s.getPc n ∧ (t.strand n).brkLen = (Instr.brk f).len ∧ (t.strand n).brkVal = s.val f.a) ∧
      ((s.core (coreOf n)).port.isSome = false → exec (.brk f) s = .next (s.trapNow n (.brk f) ⟨cBreak, 0, s.val f.a⟩))) ∧
    (∀ f : FA, s.ready f.pr (opdRegs [f.a, f.b]) [] = true →
      let fits := (s.val f.a).toNat % 4 = 0 ∧ (s.val f.a).toNat < 2 ^ 40 ∧ (s.val f.b).toNat < 2 ^ 32
      (fits → ∃ t, exec (.rlabel f) s = .next t ∧ (t.strand n).ctlReg g nRLBL = s.val f.a ∧ (t.strand n).ctlReg g nRCOST = s.val f.b ∧
        (t.strand n).getPc g = pastIt s (.rlabel f)) ∧
      (¬fits → exec (.rlabel f) s = .next (s.trapNow n (.rlabel f) ⟨cOperand, 0, 0⟩))) ∧
    (∀ f : FB, s.ready f.pr (opdRegs [f.a]) [f.b.dest] = true → s.inTask n = false → f.cond = 0 → (s.val f.a).toNat ≤ 3 →
      let m := 4 * coreOf n + (s.val f.a).toNat
      ((s.strand m).st = .parked → (s.strand m).dbg = false → (s.strand m).grp = (s.strand n).grp → (s.strand n).grp.isSome = true → m ≠ n →
        ∃ t, exec (.fork f) s = .next t ∧ (t.strand m).st = .running ∧ (t.strand m).getPc (s.tagOfStrand m) = branchTo s f.off ∧
          (f.b.dest ≠ 0 → (t.strand n).s g f.b.dest = 0) ∧ (t.strand n).getPc g = pastIt s (.fork f)) ∧
      ((s.strand m).st ≠ .parked ∨ (s.strand m).dbg = true ∨ (s.strand m).grp ≠ (s.strand n).grp →
        exec (.fork f) s = .next (s.wrote (.fork f) f.b.dest
          (BitVec.ofNat 64 (cOperand.toNat + 256 * stCode s.cycle (s.strand m) (s.strand n).grp)))))

/-- R277: the predicate whose bit 0 decides whether an instruction executes; a vector instruction's is a lane mask. -/
def gateOf (i : Instr) : Option Pred :=
  match i.form with
  | .a _ f => some f.pr
  | .b _ f => some f.pr
  | .s _ f => some f.pr
  | .x _ f => some f.pr
  | .m _ f => some f.pr
  | .c _ f => some f.pr
  | .y _ f => some f.pr
  | .v _ _ => none
  | .event => none

/-- R277: an instruction whose predicate does not hold moves PC past itself and does nothing else, whatever it is and whatever its operands; it
holds of every scalar, control, system, matrix, tile, memory, copy, sync and task instruction. -/
def Obligations.FalsePredicateOnlyAdvances : Prop :=
  ∀ (s : State) (i : Instr) (p : Pred), gateOf i = some p → (s.strand s.cur).pend.contains (pendP p.n.toNat) = false →
    (s.strand s.cur).pBad (s.tagOfStrand s.cur) p.n.toNat = false → (s.getP s.cur p.n.toNat).getLsbD 0 = p.neg →
    exec i s = .next (s.adv s.cur i)
/-! ### System registers, time, identity, generations (R322 to R334) -/

/-- R322, R324 to R327: a SYSRD that passes its checks writes the register that SPACE, OTHER, NUM and the index name into D, zero-extended:
every register of every space; of the counters of space 2, those that count no time (log entry 55). -/
def Obligations.SystemRegisterReads : Prop :=
  ∀ (s : State) (f : FS) (k x : Nat),
    let n := s.cur
    let sp := idSpace f.id
    let num := idNum f.id
    s.ready f.pr (opdRegs [f.a] ++ if sp = 0 then [pendC num] else []) [f.d.dest] = true →
    sysCheck (s.slotOf n) f.id false (s.val f.a) = .ok (k, x) →
    ¬(sp = 0 ∧ num = nFPC ∧ s.flagsDue n = true) →
    ∃ v : W64, exec (.sysrd f) s = .next ((s.setS n f.d.dest v).tick.adv n (.sysrd f)) ∧
      (sp = 0 → v = s.getCtl n num) ∧
      (sp = 1 →
        let c := s.ctxOf k
        v.toNat = (match num with
          | 0x00 => k % 2 ^ 64 | 0x01 => c.gen.toNat | 0x02 => c.genLw.toNat | 0x03 => c.genDrops.toNat
          | 0x10 => c.heapBase.toNat | 0x11 => c.heapLimit.toNat | 0x12 => c.heapOff.toNat
          | 0x18 => c.s1Root.toNat | 0x19 => c.s2Root.toNat | 0x1A => c.pasid.toNat
          | 0x20 => c.maskA.toNat | 0x21 => c.maskB.toNat | 0x22 => c.maskC.toNat
          | 0x28 => c.syncLimit.toNat | 0x29 => c.sramBase.toNat | 0x2A => c.sramLen.toNat | 0x2B => c.ovfBase.toNat
          | 0x30 => if c.dirtyEn = true then 1 else 0
          | 0x31 => c.tlbiWdog.toNat | 0x32 => c.tlbiDone.toNat | 0x38 => c.timeScale.toNat | 0x39 => c.timeOff.toNat
          | 0x40 => c.schedSlice.toNat | 0x41 => c.schedWeight.toNat | 0x42 => c.tdWindow.toNat | 0x48 => c.preemptDl.toNat
          | 0x49 => c.saveBase.toNat | 0x4A => c.saveFrames.toNat
          | 0x4B => if c.dbgEn = true then 1 else 0
          | 0x4C => c.lostPosts.toNat
          | _ => (Tbl.get (0 : BitVec 16) c.perfSel (num - 0x50)).toNat)) ∧
      (sp = 2 → perfFree (s.perfSelOf x k num) = false →
        v.toNat = ((Tbl.get zCnt (s.core x).perf (k * 8 + num)).read (if k = s.slotOf n then s.tagOfStrand n else s.slotTag k) 0).toNat) ∧
      (sp = 3 →
        let d := s.die x
        (num = 1 → v = match d.oldest (s.slotOf n) with | some t => t.ts | none => 0xFFFFFFFFFFFFFFFF) ∧
        (num = 2 → v = match d.oldest (s.slotOf n) with | some t => BitVec.ofNat 64 t.seq | none => 0x0000FFFFFFFFFFFF) ∧
        (num ≠ 1 → num ≠ 2 → v.toNat = (match num with
          | 0 => d.spillBase.toNat | 8 => d.stray.toNat | 9 => d.ceSlice.toNat | 0xA => d.ceBayc.toNat | _ => d.ceSync.toNat))) ∧
      (sp = 4 →
        let p := s.pkg
        v.toNat = (match num with
          | 0x00 => s.ref.toNat | 0x01 => p.dirtyBase.toNat
          | 0x02 => if p.dirtyShown = true then 1 else 0
          | 0x03 => if p.errMode = true then 1 else 0
          | 0x04 => p.scrubPct.toNat | 0x08 => p.distLimit.toNat | 0x09 => p.distThrottle.toNat | 0x0A => 0 | 0x18 => p.lgen.toNat
          | _ => let y := s.stackOf (num - 0x10); (y.retCh + y.st * 2 ^ 6 + y.rbPtr * 2 ^ 8) % 2 ^ 64)) ∧
      (sp = 5 →
        (num = 0 → v.toNat = s.owner x % 2 ^ 64) ∧
        (num = 1 →
          let y := s.window (x / 2)
          let r : Nat := y.base * 2 ^ 16 + y.len * 2 ^ 40 + (if y.rd = true then 2 ^ 64 else 0) + (if y.wr = true then 2 ^ 65 else 0) +
            (if y.v = true then 2 ^ 66 else 0) + y.owner * 2 ^ 67 + y.src * 2 ^ 73
          v.toNat = r / 2 ^ (64 * (x % 2)) % 2 ^ 64) ∧
        (num = 2 → v.toNat = s.mcastOf (x / 16384) (x / 256 % 64) (x / 4 % 64) (s.slotTag (x / 256 % 64)) / 2 ^ (64 * (x % 4)) % 2 ^ 64) ∧
        (num = 3 → v.toNat = (Tbl.get 0 s.pkg.chanCorr x).toNat + (Tbl.get 0 s.pkg.chanBurst x).toNat * 2 ^ 32))

/-- R293: the index `x` of a register of a space is in its range. -/
def indexFits (space num x : Nat) (other : Bool) : Prop :=
  match space with
  | 1 => if other then x < 64 else x = 0
  | 2 => x % 256 < 192 ∧ if other then x / 256 < 64 else x / 256 = 0
  | 3 => x < 4
  | 5 => x < (match num with | 0 => 248 | 1 => 128 | 2 => 65536 | _ => 256)
  | _ => x = 0

/-- R293, R294, R322 to R324: SYSRD of a register that its table marks readable by the issuing slot (of every register of the table for
slot 0), with OTHER set by slot 0 only and an index in its range, completes, once the flags of FPC, where it reads them, have settled; only
D and PC change. -/
def Obligations.SystemReadsComplete : Prop :=
  ∀ (s : State) (f : FS) (c : Acs),
    let n := s.cur
    let sp := idSpace f.id
    let num := idNum f.id
    s.ready f.pr (opdRegs [f.a] ++ if sp = 0 then [pendC num] else []) [f.d.dest] = true →
    sysAccess sp num = some c → (s.slotOf n = 0 ∨ (idOther f.id = false ∧ (c = .rw ∨ c = .a ∨ c = .r))) →
    indexFits sp num (s.val f.a).toNat (idOther f.id) → (sp = 0 → num = nFPC → s.flagsDue n = false) →
    ∃ v : W64, exec (.sysrd f) s = .next ((s.setS n f.d.dest v).tick.adv n (.sysrd f))

/-- R294, R322, R324: what a slot other than 0 may not do. A SYSRD or SYSWR with OTHER set, a SYSWR of a register with access code A, A0,
W0, R or R0, and a SYSRD of one with A0, R0 or W0 trap PRIVILEGE and write nothing. A register with code RW is writable by its own slot. -/
def guestsMayNotWriteAdminRegisters : Prop :=
  ∀ (s : State) (f : FS), s.slotOf s.cur ≠ 0 →
    let n := s.cur
    let c := sysAccess (idSpace f.id) (idNum f.id)
    (s.ready f.pr (opdRegs [f.a, f.d]) [] = true → idOther f.id = true ∨ (c.isSome = true ∧ c ≠ some .rw) →
      exec (.syswr f) s = .next (s.trapNow n (.syswr f) ⟨cPrivilege, 0, 0⟩)) ∧
    (s.ready f.pr (opdRegs [f.a] ++ if idSpace f.id = 0 then [pendC (idNum f.id)] else []) [f.d.dest] = true →
      idOther f.id = true ∨ c = some .a0 ∨ c = some .r0 ∨ c = some .w0 →
      exec (.sysrd f) s = .next (s.trapNow n (.sysrd f) ⟨cPrivilege, 0, 0⟩)) ∧
    (s.ready f.pr (opdRegs [f.a, f.d]) [] = true → idOther f.id = false → c = none →
      exec (.syswr f) s = .next (s.trapNow n (.syswr f) ⟨cOperand, 0, 0⟩))

/-- R322, R323: a SYSWR that passes its checks, whose earlier accesses have performed and for which the sequencer is free where it
carries the register, completes; the register then reads as the value written, for every register but DIRTY_SEL and CHAN_RETIRE,
LOST_POSTS and the table entries apart. -/
def systemRegisterWritesReadBack : Prop :=
  ∀ (s s' : State) (f : FS) (k x : Nat),
    let n := s.cur
    let sp := idSpace f.id
    let num := idNum f.id
    let v := s.val f.d
    s.ready f.pr (opdRegs [f.a, f.d]) [] = true →
    sysCheck (s.slotOf n) f.id true (s.val f.a) = .ok (k, x) →
    s.sysWrite n sp num k x v = .ok s' →
    (sp ≠ 0 → s.inTask n = false ∧ s.performedTo n 2 = true) →
    (sp = 0 → num = nFPC → s.flagsDue n = false) →
    (carried sp num x = true → s.seqIdle = true) →
    exec (.syswr f) s = .next (s'.adv n (.syswr f)) ∧
    (sp ≤ 1 ∨ sp = 3 ∨ (sp = 4 ∧ num ≠ 2 ∧ num ≠ 0xA) → s'.sysRead n sp num k x = v)

/-- R50, R258, R329, R330, R331: TIME, PERF, ID and GEN.RD return what their rules give, for any slot's own values. -/
def timeCountersAndIdentity : Prop :=
  ∀ (s : State) (f : FA),
    let n := s.cur
    let k := s.slotOf n
    (s.ready f.pr [] [f.d.dest] = true →
      exec (.time f) s = .next (s.wrote (.time f) f.d.dest
        (BitVec.ofNat 64 (s.ref.toNat * (s.ctxOf k).timeScale.toNat / 2 ^ 32 + (s.ctxOf k).timeOff.toNat)))) ∧
    (s.ready f.pr (opdRegs [f.a]) [f.d.dest] = true →
      ((s.val f.a).toNat ≤ 7 → ∃ v : BitVec 48, exec (.perf f) s = .next ((s.setS n f.d.dest (v.setWidth 64)).tick.adv n (.perf f)) ∧
        (perfFree (s.perfSelOf (coreOf n) k (s.val f.a).toNat) = false →
          v = (Tbl.get zCnt (s.core (coreOf n)).perf (k * 8 + (s.val f.a).toNat)).read (s.tagOfStrand n) 0) ∧
        (s.perfLive (coreOf n) k (s.val f.a).toNat (s.tagOfStrand n) = false → v = 0)) ∧
      (7 < (s.val f.a).toNat → exec (.perf f) s = .next (s.trapNow n (.perf f) ⟨cOperand, 0, 0⟩)) ∧
      (s.val f.a = 0 → exec (.id f) s = .next (s.wrote (.id f) f.d.dest 0x019416)) ∧
      (s.val f.a = 1 → exec (.id f) s = .next (s.wrote (.id f) f.d.dest
        (if s.pkg.everUp then BitVec.ofNat 64 (2 ^ 10 + s.pkg.devNo % 2 ^ 10) else 0))) ∧
      (s.val f.a = 2 → exec (.id f) s = .next (s.wrote (.id f) f.d.dest
        (BitVec.ofNat 64 (n % 4 + (n / 4) % 48 * 2 ^ 8 + n / 192 * 2 ^ 14)))) ∧
      (2 < (s.val f.a).toNat → exec (.id f) s = .next (s.trapNow n (.id f) ⟨cOperand, 0, 0⟩))) ∧
    (∀ g : FA, g.m = 1 → s.ready g.pr [] [g.d.dest] = true → k < 64 →
      exec (.genRd g) s = .next (s.wrote (.genRd g) g.d.dest (BitVec.ofNat 64 ((s.ctxOf k).gen.toNat + (s.ctxOf k).genLw.toNat * 2 ^ 16)))) ∧
    (f.m ≠ 1 → s.ready f.pr (opdRegs [f.a]) [f.d.dest] = true →
      let a := (s.val f.a).toNat
      (a < 64 → k = 0 ∨ a = k → exec (.genRd f) s = .next (s.wrote (.genRd f) f.d.dest
        (BitVec.ofNat 64 ((s.ctxOf a).gen.toNat + (s.ctxOf a).genLw.toNat * 2 ^ 16)))) ∧
      (k ≠ 0 → a ≠ k → exec (.genRd f) s = .next (s.trapNow n (.genRd f) ⟨cPrivilege, 0, 0⟩)) ∧
      (63 < a → k = 0 → exec (.genRd f) s = .next (s.trapNow n (.genRd f) ⟨cOperand, 0, 0⟩)))

/-- R120, R332, R333, R334: GEN.ADV waits in the sequencer's queue and its strand stalls; TLBI and TLBI.all post an invalidation under the
next ticket, or answer FULL; EVPOST writes the record of R334 at its
place in the slot's ring with zeros up to 64 bytes, and the producer index to EVR_WB (R439), or answers FULL; a guest's GEN.ADV or TLBI of another
slot traps PRIVILEGE. -/
def generationAndInvalidationRequests : Prop :=
  ∀ (s : State) (f : FA),
    let n := s.cur
    let k := s.slotOf n
    let a := (s.val f.a).toNat
    let b := (s.val f.b).toNat
    let c := (s.val f.c).toNat
    let ticket := ((s.ctxOf a).tlbiPosted + 1) % 2 ^ 56
    let posted (t : State) (lo hi : Nat) (all : Bool) : Prop :=
      (t.ctxOf a).tlbiPosted = ticket ∧ ∃ x, t.pkg.tlbis = s.pkg.tlbis ++ [x] ∧ x.slot = a ∧ x.n = ticket ∧ x.all = all ∧
        (all = false → x.lo = lo ∧ x.hi = hi) ∧ x.dies = [0, 1, 2, 3] ∧
        ∀ q, x.cores.contains q = (decide (q < 192) && (s.core q).l1Held.contains a)
    (s.ready f.pr (opdRegs [f.a]) [f.d.dest] = true →
      (k = 0 → s.inTask n = false → 1 ≤ a → a ≤ 63 → ∃ t, exec (.genAdv f) s = .next t ∧ (t.strand n).stall = 3 ∧
        t.pkg.seqQ = s.pkg.seqQ ++ [.genAdv a n f.d.dest (Instr.genAdv f).len] ∧ (t.strand n).getPc (s.tagOfStrand n) = s.getPc n) ∧
      (k ≠ 0 → exec (.genAdv f) s = .next (s.trapNow n (.genAdv f) ⟨cPrivilege, 0, 0⟩)) ∧
      (a ≤ 63 → k = 0 ∨ a = k → s.inTask n = false →
        (s.pkg.tlbis.length < 32 → ∃ t, posted t 0 0 true ∧
          exec (.tlbiAll f) s = .next ((t.setS n f.d.dest (BitVec.ofNat 64 (ticket * 2 ^ 8))).adv n (.tlbiAll f))) ∧
        (32 ≤ s.pkg.tlbis.length → exec (.tlbiAll f) s = .next (s.wrote (.tlbiAll f) f.d.dest 0x34))) ∧
      (k ≠ 0 → a ≠ k → exec (.tlbiAll f) s = .next (s.trapNow n (.tlbiAll f) ⟨cPrivilege, 0, 0⟩))) ∧
    (s.ready f.pr (opdRegs [f.a, f.b, f.c]) [f.d.dest] = true → a ≤ 63 → k = 0 ∨ a = k → s.inTask n = false →
      let fits := b % 65536 = 0 ∧ b < 2 ^ 56 ∧ c ≠ 0 ∧ c % 65536 = 0 ∧ b + c ≤ 2 ^ 56
      (fits → s.pkg.tlbis.length < 32 → ∃ t, posted t b (b + c) false ∧
        exec (.tlbi f) s = .next ((t.setS n f.d.dest (BitVec.ofNat 64 (ticket * 2 ^ 8))).adv n (.tlbi f))) ∧
      (¬fits → exec (.tlbi f) s = .next (s.trapNow n (.tlbi f) ⟨cOperand, 0, 0⟩))) ∧
    (s.ready f.pr (opdRegs [f.a, f.b]) [f.d.dest] = true → s.inTask n = false → a ≤ 0xFFFF → s.performedTo n 4 = true →
      ((s.fn k).evRoom = false → exec (.evpost f) s = .next (s.wrote (.evpost f) f.d.dest 0x34)) ∧
      ((s.fn k).evRoom = true → (s.fn k).evBuf = [] → ∃ t, exec (.evpost f) s = .next t ∧ (t.fn k).evPi = (s.fn k).evPi + 1 ∧
        (f.d.dest ≠ 0 → (t.strand n).s (s.tagOfStrand n) f.d.dest = 0) ∧
        let at_ := (s.fn k).evBase.toNat + (s.fn k).evPi.toNat % 2 ^ (s.fn k).evSize * 64
        let wb := (s.fn k).evWb.toNat
        t.hostRead wb 8 = leBytes 8 ((s.fn k).evPi + 1).toNat ∧
        (wb + 8 ≤ at_ ∨ at_ + 64 ≤ wb → t.hostRead at_ 64 =
          [2, 0] ++ leBytes 2 a ++ [BitVec.ofNat 8 k, BitVec.ofNat 8 (n / 192 * 2 ^ 6 + n / 4 % 48), BitVec.ofNat 8 (n % 4), 0] ++
            leBytes 8 b ++ leBytes 8 s.ref.toNat ++ List.replicate 40 0)))

/-- R294, R322 to R324: what a SYSWR that passes its checks does, and what a guest may not do. -/
def Obligations.SystemRegisterWrites : Prop := guestsMayNotWriteAdminRegisters ∧ systemRegisterWritesReadBack

/-- R50, R120, R258, R329 to R334: TIME, PERF, ID, GEN.RD, GEN.ADV, TLBI, TLBI.all and EVPOST. -/
def Obligations.TimeIdentityAndGenerations : Prop := timeCountersAndIdentity ∧ generationAndInvalidationRequests
/-! ### Loads, stores and sync (R14 to R17, R113 to R116, R389 to R391, R408, R416) -/

/-- R14 to R17: where an effective address of the current strand leads and which trap it raises: SPAD within the group's allotment, GROUND
within the core's own slice or one that the core mask admits, HEAP below HEAP_LIMIT, TWIN for loads alone and within LEN of a sound entry that
has a buffer, and ADDRESS_SPACE for any other space. -/
def Obligations.EffectiveAddressChecks : Prop :=
  ∀ (s : State) (n ea len : Nat) (store : Bool),
    let c := coreOf n
    let spad := s.spadOf n
    let heap := s.heapTriple c (s.slotOf n)
    let core := bits ea 27 2 * 48 + bits ea 21 6
    (ea < 2 ^ 21 → spad.1 ≤ ea → ea + len ≤ spad.1 + spad.2 → s.resolve n store 0 ea len = .ok ⟨.ground (sliceAt c ea), 0⟩) ∧
    (2 ^ 21 ≤ ea ∨ ea < spad.1 ∨ spad.1 + spad.2 < ea + len → s.resolve n store 0 ea len = trapAt cBound ea) ∧
    (ea < 2 ^ 29 → bits ea 21 6 < 48 → core ≠ c → s.maskBit (s.slotOf n) core = false → s.resolve n store 1 ea len = trapAt cSpace ea) ∧
    (ea < 2 ^ 29 → bits ea 21 6 < 48 → core = c ∨ s.maskBit (s.slotOf n) core = true → ea % 2 ^ 21 + len ≤ Config.sliceBytes →
      ∃ t, s.resolve n store 1 ea len = .ok t ∧ t.place = .ground (sliceAt core (ea % 2 ^ 21))) ∧
    (2 ^ 29 ≤ ea ∨ 48 ≤ bits ea 21 6 → s.resolve n store 1 ea len = trapAt cBound ea) ∧
    (ea < 2 ^ 29 → bits ea 21 6 < 48 → core = c ∨ s.maskBit (s.slotOf n) core = true → Config.sliceBytes < ea % 2 ^ 21 + len →
      s.resolve n store 1 ea len = trapAt cBound ea) ∧
    (ea + len ≤ heap.2.1 → s.resolve n store 2 ea len = .ok ⟨.hbm (heap.2.2 + ea), 2⟩) ∧
    (heap.2.1 < ea + len → s.resolve n store 2 ea len = trapAt cBound ea) ∧
    (∀ spc, spc = 3 ∨ 5 ≤ spc → s.resolve n store spc ea len = trapAt cSpace ea) ∧
    s.resolve n true 4 ea len = trapAt cSpace ea ∧
    let h := ea / 2 ^ 32
    let e := s.twin (dieOf n) (s.slotOf n) h (s.tagOfStrand n)
    let bad := s.twinBad (dieOf n) (s.slotOf n) h (s.tagOfStrand n)
    let there := (e.loc = 1 ∨ e.loc = 2) ∧ ea % 2 ^ 32 + len ≤ e.len
    (2 ^ 42 ≤ ea → s.resolve n false 4 ea len = trapAt cBound ea) ∧
    (ea < 2 ^ 42 → (bad = true → s.resolve n false 4 ea len = trapAt cUncorrectable ea) ∧
      (bad = false → there → s.resolve n false 4 ea len = .ok ⟨.twin h (ea % 2 ^ 32), 2⟩) ∧
      (bad = false → ¬there → s.resolve n false 4 ea len = trapAt cBound ea))

/-- R113 to R115: one write of memory by an operation with tag `t`. The writer reads its bytes back and finds every other byte as it was;
no reader of any tag sees a change in a granule that the write does not touch; a granule that was not current loses what it held. -/
def Obligations.TaggedMemoryWrites : Prop :=
  ∀ (m : TMem) (l : Bool) (t : Tag) (x : Nat) (d : List Byte),
    let w := m.write l t (cellsAt x d)
    (∀ i (h : i < d.length), w.byte l t (x + i) = d[i]) ∧
    (∀ a, a < x ∨ x + d.length ≤ a → w.byte l t a = m.byte l t a) ∧
    (∀ a, (∀ i, i < d.length → (x + i) / 64 ≠ a / 64) → ∀ k q, w.byte k q a = m.byte k q a) ∧
    (∀ a, (∃ i, i < d.length ∧ (x + i) / 64 = a / 64) → ∀ q, q ≠ t → w.byte l q a = 0) ∧
    (m.wf = true → w.wf = true)

/-- The memory access of an LD or ST of the current strand. -/
def memEa (s : State) (f : FM) : W64 := s.val f.a + s.val f.b + f.disp.signExtend 64

/-- R389: LD. In the strand's own slice, with nothing of the strand before it and no write of a committed task due there, it writes the value at once; anywhere else it enters the
order of the strand's accesses with D not yet produced; an address that its space refuses traps with the address. -/
def loadsIssue : Prop :=
  ∀ (s : State) (f : FM) (t : Target),
    let n := s.cur
    let sz := tyBytes f.ty.toNat
    s.ready f.pr (opdRegs [f.a, f.b]) [f.d.dest] = true →
    (s.resolve n false f.spc.toNat (memEa s f).toNat sz = .ok t → t.place.onCore (coreOf n) = true →
      (∀ a ∈ s.flight, a.strand ≠ n) → s.commitsAt t.place sz = [] → s.inTask n = false → s.placeFrozen t.place = false →
      s.poisonAt (s.slotOf n) (s.genOf n) t.place sz = false →
      ∃ u, exec (.ld f) s = .next u ∧ u.hbm = s.hbm ∧ u.ground = s.ground ∧ u.host = s.host ∧
        (u.strand n).getPc (s.tagOfStrand n) = pastIt s (.ld f) ∧
        ∀ j, (u.strand n).s (s.tagOfStrand n) j = if j = f.d.dest ∧ j ≠ 0 then
            loadExt f.ty.toNat (ofLe (s.bytesOf (s.slotOf n) (s.genOf n) t.place sz))
          else (s.strand n).s (s.tagOfStrand n) j) ∧
    (s.resolve n false f.spc.toNat (memEa s f).toNat sz = .ok t → t.place.onCore (coreOf n) = false →
      ∃ a, a.why = .load f.d.dest f.ty.toNat ∧ a.src = t.place ∧ a.n = sz ∧ a.strand = n ∧ a.done = false ∧ a.id = s.nextId ∧
        exec (.ld f) s = .next (((s.addAcc a).owe n f.d.dest).adv n (.ld f))) ∧
    (∀ e, s.resolve n false f.spc.toNat (memEa s f).toNat sz = .error e → exec (.ld f) s = .next (s.trapNow n (.ld f) e))

/-- R389, R421: ST outside ordered tasks. In the strand's own slice, where no write of a committed task is due, it performs at once: its bytes read back under the strand's tag,
every other byte of the slice reads as before, device and host memory are unchanged, and no register changes. Anywhere else it enters
the order of the strand's accesses, while the strand has fewer than 16 stores out. -/
def storesIssue : Prop :=
  ∀ (s : State) (f : FM) (t : Target),
    let n := s.cur
    let sz := tyBytes f.ty.toNat
    let data := leBytes sz (s.val f.d).toNat
    let g := s.tagOfStrand n
    s.ready f.pr (opdRegs [f.a, f.b, f.d]) [] = true → (s.strand n).task = none →
    (∀ x, s.resolve n true f.spc.toNat (memEa s f).toNat sz = .ok t → t.place = .ground x → t.place.onCore (coreOf n) = true →
      (∀ a ∈ s.flight, a.strand ≠ n) → s.commitsAt t.place sz = [] → s.placeFrozen t.place = false →
      (∀ i, i < sz → s.cutAt (s.slotOf n) (s.genOf n) t.place i = false) →
      ∃ u, exec (.st f) s = .next u ∧ u.hbm = s.hbm ∧ u.host = s.host ∧ u.flight = s.flight ∧
        (∀ i (h : i < data.length), u.ground.byte false g (x + i) = data[i]) ∧
        (∀ a, a < x ∨ x + sz ≤ a → u.ground.byte false g a = s.ground.byte false g a) ∧
        (∀ a, a / 64 < x / 64 ∨ (x + sz - 1) / 64 < a / 64 → ∀ l q, u.ground.byte l q a = s.ground.byte l q a) ∧
        (∀ j, (u.strand n).s g j = (s.strand n).s g j) ∧ (u.strand n).getPc g = pastIt s (.st f)) ∧
    (s.resolve n true f.spc.toNat (memEa s f).toNat sz = .ok t → t.place.onCore (coreOf n) = false → s.storesOut n < 16 →
      ∃ a, a.why = .store ∧ a.dst = t.place ∧ a.data = data ∧ a.strand = n ∧ a.done = false ∧ a.id = s.nextId ∧
        exec (.st f) s = .next ((s.addAcc a).adv n (.st f))) ∧
    (∀ e, s.resolve n true f.spc.toNat (memEa s f).toNat sz = .error e → exec (.st f) s = .next (s.trapNow n (.st f) e))

/-- R390, R391, R165, R174 to R176, R408: PREF of the heap changes no byte of memory and moves PC past itself; a FENCE of a reserved mask or
scope traps ILLEGAL_OPERAND, and one whose accesses have performed, at POD and
SYSTEM scope with no dirty peer-cached sector and no write-back of the slot outstanding, and at SYSTEM scope with its zero-length read of
the host answered, completes with NONE, or PEER_LOST at POD and SYSTEM scope when a peer write was lost; PUB hands its publish to the handle's home and stalls; in an ordered task FENCE and PUB trap. -/
def Obligations.PrefetchFencePublish : Prop :=
  ∀ (s : State) (f : FM),
    let n := s.cur
    let m := (s.val f.a).toNat
    (s.ready f.pr (opdRegs [f.a, f.b]) [] = true →
      (f.spc = 2 → ∃ t, exec (.pref f) s = .next t ∧ t.hbm = s.hbm ∧ t.ground = s.ground ∧ t.host = s.host ∧
        (t.strand n).getPc (s.tagOfStrand n) = pastIt s (.pref f)) ∧
      (f.spc ≠ 2 → exec (.pref f) s = .next (s.trapNow n (.pref f) ⟨cSpace, 0, memEa s f⟩))) ∧
    (s.ready f.pr (opdRegs [f.a]) [f.d.dest] = true →
      (s.inTask n = false → f.ty.toNat < 5 → m < 2 ^ 16 → s.fenceWaits n m = false →
        (3 ≤ f.ty.toNat → m ≠ 0 → (s.peerSectors (s.slotOf n)).all (fun e => !e.2.2.2.dirty) = true ∧
          s.pkg.peers.all (fun r => !(r.wb.isSome && r.slot == s.slotOf n) && !(r.fences.contains n)) = true) →
        (f.ty = 4 → (s.flushOf n).any (·.done) = true) →
        ∃ t, exec (.fence f) s = .next t ∧ (t.strand n).getPc (s.tagOfStrand n) = pastIt s (.fence f) ∧
          (f.d.dest ≠ 0 → (t.strand n).s (s.tagOfStrand n) f.d.dest =
            if 3 ≤ f.ty.toNat ∧ (s.strand n).peerLost = true then 0x13 else 0)) ∧
      (s.inTask n = false → 5 ≤ f.ty.toNat ∨ 2 ^ 16 ≤ m → exec (.fence f) s = .next (s.trapNow n (.fence f) ⟨cOperand, 0, 0⟩)) ∧
      (s.inTask n = true → exec (.fence f) s = .next (s.trapNow n (.fence f) ⟨cSpecIllegal, 0, 0⟩)) ∧
      (s.inTask n = false → m ≤ 1023 → f.ty = 1 ∨ f.ty = 2 → s.performedTo n 2 = true →
        s.copyToHandle (coreOf n) (s.slotOf n) m = false →
        ∃ t p, exec (.pub f) s = .next t ∧ (t.die (m % 4)).pubs = (s.die (m % 4)).pubs ++ [p] ∧ p.h = m ∧ p.slot = s.slotOf n ∧
          p.pkg = (f.ty == 2) ∧ p.started = false ∧ (t.strand n).stall = 2 ∧ (t.strand n).getPc (s.tagOfStrand n) = s.getPc n) ∧
      (s.inTask n = true → exec (.pub f) s = .next (s.trapNow n (.pub f) ⟨cSpecIllegal, 0, 0⟩)))

/-- R73, R166, R416: a sync instruction outside an ordered task checks its address against SYNC_LIMIT and 8-byte alignment and leaves
for the engine of its die, with D not yet produced. -/
def syncInstructionsIssue : Prop :=
  ∀ (s : State) (f : FY),
    let n := s.cur
    let ea := (s.val f.a).toNat
    let win := s.syncWindow (coreOf n) (s.slotOf n)
    let limit := win.1
    let c := s.val (.reg (BitVec.ofNat 6 f.ix.toNat))
    let sent (i : Instr) (op : Nat) (b e : W64) (dl : Option Nat) : Prop :=
      ∃ a, a.why = .sync ⟨op, ea / 2 ^ 32, ea % 2 ^ 32, b, e, dl, win, none⟩ f.d.dest ∧ a.strand = n ∧
        a.slot = s.slotOf n ∧ a.gen = s.genOf n ∧ a.id = s.nextId ∧ a.done = false ∧ a.task = none ∧
        exec i s = .next (((s.addAcc a).owe n f.d.dest).adv n i)
    let bad (i : Instr) : Prop :=
      (2 ^ 34 ≤ ea ∨ limit < ea % 2 ^ 32 + 8 → exec i s = .next (s.trapNow n i ⟨cBound, 0, s.val f.a⟩)) ∧
      (ea < 2 ^ 34 → ea % 2 ^ 32 + 8 ≤ limit → ea % 8 ≠ 0 → exec i s = .next (s.trapNow n i ⟨cMisaligned, 0, s.val f.a⟩))
    (s.strand n).task = none →
    let ok := ea < 2 ^ 34 ∧ ea % 2 ^ 32 + 8 ≤ limit ∧ ea % 8 = 0
    (s.ready f.pr (opdRegs [f.a, f.b]) [f.d.dest] = true →
      (ok → sent (.sadd f) 0 (s.val f.b) 0 none ∧ sent (.satom f) (2 + f.m.toNat) (s.val f.b) 0 none ∧
        (latchCode (s.val f.b) = true → sent (.serr f) 21 (s.val f.b) 0 none)) ∧ bad (.sadd f) ∧ bad (.satom f) ∧
      (latchCode (s.val f.b) = false → exec (.serr f) s = .next (s.trapNow n (.serr f) ⟨cOperand, 0, 0⟩))) ∧
    (s.ready f.pr (opdRegs [f.a, f.b] ++ [f.ix.toNat]) [f.d.dest] = true → f.ix.toNat < 64 →
      (ok → sent (.scas f) 20 (s.val f.b) c none) ∧ bad (.scas f) ∧
      (ok → c.toNat < 2 ^ 48 → (s.strand n).swait = false →
        ∃ a, a.why = .sync ⟨1, ea / 2 ^ 32, ea % 2 ^ 32, s.val f.b, 0, if c = 0 then none else some c.toNat, win, none⟩ f.d.dest ∧ a.strand = n ∧ a.id = s.nextId ∧
          exec (.swait f) s = .next ((((s.addAcc a).owe n f.d.dest).adv n (.swait f)).mapStrand n fun x => { x with swait := true })) ∧
      (2 ^ 48 ≤ c.toNat → exec (.swait f) s = .next (s.trapNow n (.swait f) ⟨cOperand, 0, 0⟩))) ∧
    (s.ready f.pr (opdRegs [f.a]) [f.d.dest] = true → (ok → sent (.sget f) (22 + f.m.toNat) 0 0 none) ∧ bad (.sget f))

/-- R73, R416: the sync engine performs an operation on a variable that its SRAM holds, current at the die, sound and not frozen. SADD and
SATOM write the result of their operation, SCAS writes when it finds what it expects, SERR sets an empty latch, SGET and SGET.err change
nothing; each answers with what R416 gives, SADD and SERR with NONE, SGET.err with the latch, and a SWAIT that is satisfied or whose latch is set returns the latch. -/
def syncEnginePerforms : Prop :=
  ∀ (s : State) (a : Acc) (o : SyncOp) (d w : Nat),
    let id := a.id
    let l := syncAt o.win o.die o.off
    let g := tagOf a.slot a.gen
    let v := s.syncGet l g
    s.accOf id = some a → a.why = .sync o d → l = .sram o.die w →
    a.done = false → a.task = none → s.mayPerform a = true → s.awaitsCommits a o = false → s.oldAtDie o.die a.slot a.gen = false → s.frozen o.die = false →
    s.syncBad l g = false →
    let gave (t : State) (x : W64) : Prop := ∃ b, t.accOf id = some b ∧ b.done = true ∧ b.data = leBytes 8 x.toNat
    ∃ t, exec (.syncOperationArrival id) s = .next t ∧
      (o.op = 0 → (t.syncGet l g).v = v.v + o.b ∧ gave t 0) ∧
      (2 ≤ o.op → o.op ≤ 10 → gave t v.v ∧ (t.syncGet l g).latch = v.latch ∧ (t.syncGet l g).v = match o.op - 2 with
        | 0 => v.v + o.b | 1 => v.v &&& o.b | 2 => v.v ||| o.b | 3 => v.v ^^^ o.b
        | 4 => if v.v.toInt ≤ o.b.toInt then v.v else o.b | 5 => if o.b.toInt ≤ v.v.toInt then v.v else o.b
        | 6 => if v.v.toNat ≤ o.b.toNat then v.v else o.b | 7 => if o.b.toNat ≤ v.v.toNat then v.v else o.b
        | _ => o.b) ∧
      (o.op = 20 → gave t v.v ∧ (t.syncGet l g).v = if v.v = o.e then o.b else v.v) ∧
      (o.op = 21 → gave t 0 ∧ (t.syncGet l g).latch = (if v.latch = 0 then o.b.setWidth 8 else v.latch) ∧ (t.syncGet l g).v = v.v) ∧
      (o.op = 22 → gave t v.v ∧ t.syncGet l g = v) ∧ (o.op = 23 → gave t (v.latch.setWidth 64) ∧ t.syncGet l g = v) ∧
      (o.op = 1 → (s.die o.die).syncWaits.all (fun x => x.strand != a.strand) = true → v.latch ≠ 0 ∨ o.b.toNat ≤ v.v.toNat →
        (t.strand a.strand).swait = false ∧ (d ≠ 0 → (t.strand a.strand).s g d = v.latch.setWidth 64))

/-- R61, R65 to R67, R73, R92, R217: an access of a strand that may perform is performed where its bytes lie, at the one arrival that is its
own: a store's bytes leave the list of accesses and read back, and every byte of another granule reads as before, in device memory and, by
GROUND_REMOTE_ARRIVAL, in another core's slice; a load holds what the
core's bay and memory give until ACCESS_RESPONSE_RETURN writes D, and changes no byte of memory. -/
def strandAccessesPerform : Prop :=
  ∀ (s : State) (a : Acc),
    let id := a.id
    let g := tagOf a.slot a.gen
    s.accOf id = some a → a.done = false → s.mayPerform a = true → a.task = none →
    (∀ x, a.why = .store ∨ a.why = .vst → a.dst = .hbm x → s.placeFrozen a.dst = false → s.commitsAt a.dst a.data.length = [] → a.wunc = [] →
      (∀ i, i < a.data.length → s.coreOk a.core a.slot a.gen [] true a.dst i = true) → (s.ctxOf a.slot).dirtyEn = false →
      ∃ t, exec (.memoryAccessArrival id) s = .next t ∧ t.accOf id = none ∧ t.ground = s.ground ∧
        (∀ i (h : i < a.data.length), t.hbm.byte false g (x + i) = a.data[i]) ∧
        (∀ y, y < x ∨ x + a.data.length ≤ y → t.hbm.byte false g y =
          if (granRange x a.data.length).contains (y / 64) then (s.memSeen a.core [y / 64]).byte false g y else s.hbm.byte false g y)) ∧
    (∀ x, ((∃ d ty, a.why = .load d ty) ∨ ∃ e r lo w, a.why = .vld e r lo w) → a.src = .hbm x → s.placeFrozen a.src = false → s.commitsAt a.src a.n = [] →
      ∃ t b, exec (.memoryAccessArrival id) s = .next t ∧ t.accOf id = some b ∧ b.done = true ∧
        b.data = s.coreBytes a.core a.slot a.gen a.runc a.src a.n ∧ t.hbm = s.hbm) ∧
    (∀ x, ((∃ d ty, a.why = .load d ty) ∨ ∃ e r lo w, a.why = .vld e r lo w) → a.src = .ground x → a.src.onCore a.core = false → s.placeFrozen a.src = false →
      s.commitsAt a.src a.n = [] → s.remoteOk a.slot a.core a.src = true →
      exec (.memoryAccessArrival id) s = .next s ∧
      ∃ t b, exec (.groundRemoteArrival id) s = .next t ∧ t.accOf id = some b ∧ b.done = true ∧
        b.data = s.bytesOf a.slot a.gen a.src a.n ∧ t.ground = s.ground) ∧
    (∀ x, a.why = .store ∨ a.why = .vst → a.dst = .ground x → a.dst.onCore a.core = false → s.placeFrozen a.dst = false →
      s.commitsAt a.dst a.data.length = [] → s.remoteOk a.slot a.core a.dst = true →
      (∀ i, i < a.data.length → s.cutAt a.slot a.gen a.dst i = false) →
      exec (.memoryAccessArrival id) s = .next s ∧
      ∃ t, exec (.groundRemoteArrival id) s = .next t ∧ t.accOf id = none ∧ t.hbm = s.hbm ∧ t.host = s.host ∧
        (∀ i (h : i < a.data.length), t.ground.byte false g (x + i) = a.data[i]) ∧
        (∀ y, y < x ∨ x + a.data.length ≤ y → t.ground.byte false g y = s.ground.byte false g y) ∧
        (∀ y, (∀ i, i < a.data.length → (x + i) / 64 ≠ y / 64) → ∀ l q, t.ground.byte l q y = s.ground.byte l q y))

/-- R217, R389, R416: the return of an access that has performed writes D with the value extended as its type says, and the strand waits for
it no more; one that ended with a code traps its strand with that code and the failing address. -/
def accessResultsReturn : Prop :=
  ∀ (s : State) (a : Acc),
    let id := a.id
    let g := tagOf a.slot a.gen
    s.accOf id = some a → a.done = true →
    (∀ d ty, a.why = .load d ty → (s.strand a.strand).task = a.task → a.code = 0 →
      ∃ t, exec (.accessResponseReturn id) s = .next t ∧ t.accOf id = none ∧ (t.strand a.strand).pend.contains d = false ∧
        (d ≠ 0 → (t.strand a.strand).s g d = loadExt ty (ofLe a.data))) ∧
    (∀ d ty, a.why = .load d ty → (s.strand a.strand).task = a.task → a.code ≠ 0 →
      exec (.accessResponseReturn id) s = .next ((s.dropAcc id).trapIn a.strand a.task a.code 0 a.ea a.pc a.ins)) ∧
    (∀ o d, a.why = .sync o d → o.op ≠ 1 →
      ∃ t, exec (.accessResponseReturn id) s = .next t ∧ t.accOf id = none ∧
        (d ≠ 0 → (t.strand a.strand).s g d = BitVec.ofNat 64 (ofLe a.data)))

/-- R389, R421: LD and ST. -/
def Obligations.LoadsAndStoresIssue : Prop := loadsIssue ∧ storesIssue

/-- R73, R166, R416: the sync instructions, at the strand and at the engine. -/
def Obligations.SyncOperations : Prop := syncInstructionsIssue ∧ syncEnginePerforms

/-- R61, R73, R92, R217, R389: the arrival and the return of a strand's accesses. -/
def Obligations.AccessesPerformAndReturn : Prop := strandAccessesPerform ∧ accessResultsReturn
/-! ### Encoding, fetching and stepping (R276 to R296), traps (R237, R244, R254), reset (R129) -/

/-- R276 to R290: words that the spec writes out, with the instructions that it says they are, and words that it says are refused. -/
def Obligations.WrittenWordsDecode : Prop :=
  let always : Pred := ⟨0, false⟩
  decode 0x02000304FE400000 100 = .ok (.add ⟨always, 0, .reg 3, .reg 4, .lit32 100, .imm 0⟩) ∧
  decode 0x1C0014FF40400000 0x0011800180003000 = .ok (.mov ⟨always, 0, .reg 20, .lit64 0x0011800180003000, .imm 0, .imm 0⟩) ∧
  decode 0x20404040FFFFFFC0 0 = .ok (.br ⟨⟨2, false⟩, 0, .imm 0, .imm 0, 0xFFFFFFC0⟩) ∧
  decode 0x80000028A804FF00 0 = .ok (.mma ⟨always, 0, 0, 0, 20, 21, 4, 0xFF, 0, none⟩) ∧
  decode 0x80080028A8FFFF00 0x00070002 = .ok (.mma ⟨always, 0, 0, 0, 20, 21, 0xFF, 0xFF, 0, some 0x00070002⟩) ∧
  decode 0xA002040600720000 0 = .ok (.ld ⟨always, 2, .reg 4, .reg 6, .reg 0, 7, 2, 0⟩) ∧
  decode 0xA104070900720040 0 = .ok (.st ⟨always, 4, .reg 7, .reg 9, .reg 0, 7, 2, 0x40⟩) ∧
  decode 0xA802200000FF0011 0 = .ok (.cpy ⟨always, 2, 8, 0, 0, 0xFF, 0, 1, 1⟩) ∧
  decode 0x430A030100020500 0 = .ok (.vfma ⟨always, 10, 3, 1, 0, 2, .reg 5⟩) ∧
  decode 0xC200014109040000 0 = .ok (.pegTake ⟨always, 0, .reg 1, .imm 1, .reg 9, 4⟩) ∧
  decode 0x3500010940400000 0 = .ok (.genAdv ⟨always, 0, .reg 1, .reg 9, .imm 0, .imm 0⟩) ∧
  decode 0 0 = .error cOpcode ∧ decode 0x02000304FE400001 0 = .error cEncoding ∧ decode 0x020003FEFE400000 0 = .error cOperand ∧
  decode 0x0240430405400000 0 = .error cOperand ∧ decode 0x4004040506114000 0 = .error cEncoding ∧
  decode 0x430A030106020500 0 = .error cEncoding ∧ decode 0x810008A8A8FF0600 0 = .error cEncoding ∧
  decode 0x8300088000FFFF00 0 = .error cEncoding ∧ decode 0xA30F015848200000 0 = .error cEncoding

/-- R276 to R288: every well-formed instruction that words encode is read back from its own words, with every operand at every value
that its encoding admits. -/
def Obligations.EncodedInstructionsDecode : Prop :=
  ∀ (i : Instr) (w l : BitVec 64), WellFormed i = true → encode i = some (w, l) → decode w l = .ok i

/-- R278, R280, R289: what the decoder accepts is a strand's well-formed instruction, and its words are the ones that were read: the base
word whole, and of the bytes after it those that its literal takes. -/
def Obligations.DecodedInstructionsEncode : Prop :=
  ∀ (w l : BitVec 64) (i : Instr), decode w l = .ok i →
    WellFormed i = true ∧ isEvent i = false ∧
      ∃ m, encode i = some (w, m) ∧ (i.len = 8 ∨ i.len = 12 ∨ i.len = 16) ∧ m.toNat = l.toNat % 2 ^ (8 * (i.len - 8))

/-- R276, R296: strand `n` stands at a sound PC that is a multiple of 4, and no holder of the `len` code bytes there has made a cut that
makes the fetch old. -/
def standsAt (s : State) (n len : Nat) : Prop :=
  (s.strand n).pc.bad (s.tagOfStrand n) = false ∧ (s.getPc n).toNat % 4 = 0 ∧ s.codeOld n (s.getPc n).toNat len = false

/-- R296 steps 1 to 5, R298: the `len` code bytes of strand `n` at its PC, under its tag, within HEAP_LIMIT, in blocks of its slot, none
poisoned and none written since its group was dispatched, are those of the base word `w` and then the literal bytes of `l`. -/
def codeAt (s : State) (n : Nat) (w l : BitVec 64) (len : Nat) : Prop :=
  let h := s.heapTriple (coreOf n) (s.slotOf n)
  let pc := (s.getPc n).toNat
  let since := match s.groupOf n with | some g => g.dispatched | none => 0
  let byte (k : Nat) : Byte := s.hbm.byte false (s.tagOfStrand n) (h.2.2 + pc + k)
  standsAt s n len ∧ pc + len ≤ h.2.1 ∧ s.hbm.bad false (s.tagOfStrand n) (h.2.2 + pc) len = false ∧
    (∀ k, k < len → s.refusedAt (s.slotOf n) (.hbm (h.2.2 + pc)) k = false) ∧
    (∀ p ∈ s.past, (∃ k, k < len ∧ p.word = (h.2.2 + pc + k) / 4) → p.time ≤ since) ∧
    (∀ k, k < 8 → byte k = w.extractLsb' (8 * k) 8) ∧ ∀ k, 8 + k < len → byte (8 + k) = l.extractLsb' (8 * k) 8

/-- R216, R296: at a strand's turn, the bytes at its PC that decode to an instruction are executed as that instruction, one cycle on and
once the errors that the step meets have struck (R78 to R81; none where `upsets` is empty); an issue moves the rotation pointer; and a
pinned event is executed as itself. -/
def Obligations.StepRunsDecodedInstruction : Prop :=
  ∀ (s : State),
    let u := s.tock.meetAll
    (s.upsets = [] → u = s.tock) ∧
    (∀ n w l i, s.turn = some (.strand n) → u.eligible n = true → decode w l = .ok i → codeAt u n w l i.len →
      step s = match exec i { u with cur := n } with
        | .next t => .next (if t.notIssued n then t else t.issued n)
        | .fault e => .fault e
        | .refused e => .refused e) ∧
    (∀ i, s.turn = some (.event i) → isEvent i = true → step s = exec i u)

/-- R296 steps 1 to 4: at a strand's turn, bytes that do not decode trap with the decoder's code, PC and the base word, and a PC whose
bytes lie past HEAP_LIMIT traps ACCESS_BOUND with PC as the address. That a PC which is no multiple of 4 traps MISALIGNED is the model's
choice (log entry 100). -/
def Obligations.UndecodableBytesTrap : Prop :=
  ∀ (s : State) (n : Nat), s.turn = some (.strand n) →
    let u := { s.tock.meetAll with cur := n }
    let h := u.heapTriple (coreOf n) (u.slotOf n)
    u.eligible n = true →
    (∀ w c, decode w 0 = .error c → codeAt u n w 0 8 → step s = .next ((u.issued n).trap n c 0 0 (u.getPc n) w)) ∧
    (h.2.1 < (u.getPc n).toNat + 8 → (u.strand n).pc.bad (u.tagOfStrand n) = false → (u.getPc n).toNat % 4 = 0 → step s = .next ((u.issued n).trap n cBound 0 (u.getPc n) (u.getPc n) 0)) ∧
    ((u.strand n).pc.bad (u.tagOfStrand n) = true → step s = .next ((u.issued n).trap n cUncorrectable 0 0 (u.getPc n) 0)) ∧
    ((u.strand n).pc.bad (u.tagOfStrand n) = false → (u.getPc n).toNat % 4 ≠ 0 →
      step s = .next ((u.issued n).trap n cMisaligned 0 (u.getPc n) (u.getPc n) 0))

/-- R244: a trap outside ordered tasks, UNCORRECTABLE apart, records its cause in the strand's group; no strand of the group may issue, its
queued engine instructions and unstarted copy commands are gone, those in progress have ended with the code; memory, registers and every
other group stand as they were. -/
def trapEndsItsGroup : Prop :=
  ∀ (s : State) (n gid : Nat) (i : Instr) (e : Trap) (g : Group),
    (s.strand n).grp = some gid → (s.strand n).task = none → s.group gid = some g → g.fail = none → e.code ≠ cUncorrectable →
    let t := s.trapNow n i e
    let r : TrapRec := ⟨e.code, e.sub, 0, coreOf n, n, s.getPc n, (encodeWord i).getD 0, e.addr, s.ref, 0⟩
    t.group gid = some { g with fail := some r } ∧
    (∀ m, (s.strand m).grp = some gid → t.eligible m = false) ∧
    (∀ c ∈ g.cores, (∀ x ∈ (t.core c).mq, x.gid ≠ gid) ∧ (∀ x ∈ (t.core c).vq, x.gid ≠ gid) ∧
      ∀ k ∈ (t.core c).cq, k.gid = gid → k.begun = true ∧ k.ended = true ∧ ∀ b ∈ k.open_, b.held = false) ∧
    (∀ k, k ≠ gid → t.group k = s.group k) ∧ (∀ m, t.strand m = s.strand m) ∧ t.hbm = s.hbm ∧ t.ground = s.ground ∧ t.host = s.host

/-- R254: a trap of UNCORRECTABLE contains the core: its engine queues are gone, and every group with a strand or resources on it has
ended, the one whose fault it was with UNCORRECTABLE and the others with CONTAINED, all with FLAGS[0]. -/
def uncorrectableContainsTheCore : Prop :=
  ∀ (s : State) (n gid : Nat) (i : Instr) (e : Trap),
    (s.strand n).grp = some gid → (s.strand n).task = none → e.code = cUncorrectable →
    let t := s.trapNow n i e
    (t.core (coreOf n)).mq = [] ∧ (t.core (coreOf n)).vq = [] ∧
    (∀ k g, s.group k = some g → (coreOf n) ∈ g.cores → g.st ≠ .saved → g.fail = none →
      ∃ h r, t.group k = some h ∧ h.fail = some r ∧ r.code = (if k = gid then cUncorrectable else cContained) ∧ r.flags % 2 = 1) ∧
    (∀ k g, s.group k = some g → (coreOf n) ∉ g.cores → (∀ x ∈ s.groups, x.1 = k → (coreOf n) ∉ x.2.cores) → t.group k = some g)

/-- R237: a trap of an ordered task that is not its slot's oldest is recorded in the task, which is FAULTED, and its strand waits for
another task; no group has failed for it. -/
def taskFaultsAreDeferred : Prop :=
  ∀ (s : State) (n q : Nat) (i : Instr) (e : Trap) (k u : Task),
    let d := dieOf n
    (s.strand n).task = some q → (s.die d).task q = some k → (s.die d).oldest k.slot = some u → u.seq ≠ q → u.st ≠ .faulted →
    let t := s.trapNow n i e
    (∃ r, (t.die d).task q = some { k with st := .faulted, fault := some r } ∧ r.code = e.code ∧ r.flags = 2 ∧ r.taskts = k.ts ∧
      r.pc = s.getPc n ∧ r.addr = e.addr) ∧
    (t.strand n).st = .taskwait ∧ (t.strand n).task = none ∧ t.groups = s.groups ∧ t.hbm = s.hbm ∧ t.ground = s.ground

/-- The context registers of a slot at the values of the Reset columns of R10, R70, R119, R230, R242 and R333. -/
def ctxAtReset (x : Ctx) : Prop :=
  x.gen = 0 ∧ x.heapBase = 0 ∧ x.heapLimit = 0 ∧ x.heapOff = 0 ∧ x.s1Root = 0 ∧ x.s2Root = 0 ∧ x.pasid = 0 ∧ x.maskA = 0 ∧ x.maskB = 0 ∧
  x.maskC = 0 ∧ x.syncLimit = 0 ∧ x.dirtyEn = false ∧ x.tlbiWdog = 100 ∧ x.timeScale = 0x100000000 ∧ x.timeOff = 0 ∧ x.sramBase = 0 ∧ x.sramLen = 0 ∧
  x.ovfBase = 0 ∧ x.genLw = 0 ∧ x.genDrops = 0 ∧ x.schedSlice = 1000 ∧ x.schedWeight = 1 ∧ x.tdWindow = 100 ∧ x.preemptDl = 50 ∧ x.saveBase = 0 ∧
  x.saveFrames = 0 ∧ x.dbgEn = false ∧ x.lostPosts = 0 ∧ x.perfSel = [] ∧ x.tlbiDone = 0

/-- The rings, launch queues and debug window of a function at the values of the Reset columns of R33, R221, R439 and R449. -/
def fnAtReset (x : Fn) : Prop :=
  (∀ r, r = x.gFault ∨ r = x.gResp ∨ r = x.hFault ∨ r = x.hResp → r = ⟨0, 0, 0, 0⟩) ∧
  (∀ q, let y := Tbl.get LQueue.init x.lq q
    y.base = 0 ∧ y.cbase = 0 ∧ y.en = false ∧ y.td = false ∧ y.die = 0 ∧ y.loc = false ∧ y.size = 0 ∧ y.pi = 0 ∧ y.ci = 0 ∧ y.cpi = 0 ∧ y.cci = 0) ∧
  x.evBase = 0 ∧ x.evSize = 0 ∧ x.evPi = 0 ∧ x.evCi = 0 ∧ x.evWb = 0 ∧ x.evLost = 0 ∧ x.dbgCore = 0 ∧ x.dbgSel = 0

/-- R112, R129: a tagged element that reads as `z` and is sound, whatever the tenancy. -/
def zeroFor {α : Type} (x : Tagged α) (z : α) : Prop := ∀ t, x.read t z = z ∧ x.bad t = false

/-- R129, R216, R442 and the Reset columns of R10, R33, R47, R70, R74, R82, R91, R94, R98, R119, R221, R230, R242, R333, R439, R449 and R451: right
after reset those registers are at their reset values, every tagged element of a strand, a core or a die and every byte of memory is at its zero
state, every strand is FREE (log entry 3), and nothing is under way. -/
def Obligations.ResetState : Prop :=
  let s := State.reset
  Memory.wf s = true ∧ (∀ k, ctxAtReset (s.ctxOf k) ∧ fnAtReset (s.fn k)) ∧
  s.pkg.lgen = 0 ∧ s.pkg.scrubPct = 2 ∧ s.pkg.errMode = false ∧ s.pkg.dirtySel = false ∧ s.pkg.distLimit = 1024 ∧ s.pkg.distThrottle = 8 ∧
  s.pkg.pwrLimit = 2800 ∧ s.pkg.fwStage = 0 ∧ s.pkg.attBusy = false ∧ s.pkg.attNonce = 0 ∧ s.pkg.attOut = 0 ∧
  (∀ k, Tbl.get Stack.init s.pkg.stk k = ⟨0, 0, 0⟩ ∧ s.window k = ⟨0, 0, false, false, false, 0, 0⟩ ∧ (s.lease k).st = 0 ∧ (s.lease k).moved = 0 ∧
    (s.borrow k).st = 0 ∧ (s.borrow k).moved = 0) ∧
  (∀ l t a, s.hbm.byte l t a = 0 ∧ s.hbm.gran a = Gran.zero ∧ s.ground.byte l t a = 0 ∧ s.ground.gran a = Gran.zero) ∧
  (∀ n t i, (s.strand n).s t i = 0 ∧ (i ≠ 0 → (s.strand n).p t i = 0) ∧ (s.strand n).ctlReg t i = 0 ∧ (s.strand n).getPc t = 0 ∧
    (s.strand n).st = .free) ∧
  (∀ c t i, (s.core c).rot = 3 ∧ (s.core c).peg t i = ⟨0, 0, 0⟩ ∧ (s.core c).bob t i = ⟨0, 0, 0, 0, 0, 0, 0⟩ ∧
    (s.core c).vq = [] ∧ (s.core c).mq = [] ∧ (s.core c).cq = []) ∧
  (∀ c i, zeroFor (Tbl.get zVReg (s.core c).vregs i) 0 ∧ zeroFor (Tbl.get zBank (s.core c).banks i) zBank0 ∧
    zeroFor (Tbl.get zTpl (s.core c).tplA i) 0 ∧ zeroFor (Tbl.get zTpl (s.core c).tplS i) 0 ∧ zeroFor (Tbl.get zCnt (s.core c).perf i) 0) ∧
  (∀ d i, zeroFor (Tbl.get zSync (s.die d).sync i) ⟨0, 0⟩ ∧ zeroFor (Tbl.get zTwin (s.die d).twins i) ⟨0, false, 0, 0, 0, 0⟩ ∧
    zeroFor (Tbl.get zMcast (s.die d).mcast i) 0) ∧
  s.groups = [] ∧ s.flight = []

/-- Every step keeps memory in its one form, so that equal memories are equal data: the bytes and the side bits are listed once each, in
address order, and none is listed that reads as unlisted. -/
def Obligations.StepsKeepMemoryForm : Prop :=
  ∀ (s t : State), Memory.wf s = true → step s = .next t → Memory.wf t = true

/-- R7: whatever the state holds, s0 reads zero and ignores writes, and p0 reads all ones and ignores writes. -/
def Obligations.ConstantRegisters : Prop :=
  ∀ (x : Strand) (t u : Tag) (v : W64),
    x.s t 0 = 0 ∧ x.p t 0 = BitVec.allOnes 64 ∧ x.setS u 0 v = x ∧ x.setP u 0 v = x ∧
    (∀ i j, i ≠ 0 → (x.setS u i v).s t j = if j = i then (if t = u then v else 0) else x.s t j) ∧
    (∀ i j, i ≠ 0 → (x.setP u i v).p t j = if j = i then (if t = u then v else 0) else x.p t j)

/-- R237, R244, R254: what a trap ends. -/
def Obligations.FaultsReachTheirGroups : Prop := trapEndsItsGroup ∧ uncorrectableContainsTheCore ∧ taskFaultsAreDeferred
/-! ### Vector instructions (R335 to R356) -/

/-- The scalars that a vector instruction reads at its issue, and the scoreboard numbers of what it will produce (R338, R345, R349). -/
def vecIn (i : Instr) (f : FV) : List Nat :=
  match i with
  | .vextr _ | .vcvt _ | .vreduce _ | .vscan _ => []
  | _ => opdRegs [f.bc]
def vecOut (i : Instr) (f : FV) : List Nat :=
  match i with
  | .vextr _ => [f.bc.dest]
  | .vcmp _ => if f.vd.toNat < 8 then [pendP f.vd.toNat] else []
  | _ => []

/-- R339, R340, R341: a vector instruction that reaches no memory enters the core's vector queue at issue, with the mask, the scalar and
the rounding mode that it reads then; a scalar or predicate that it will write is not there until it completes; no register and no byte
of memory changes but PC. -/
def vectorInstructionsIssue : Prop :=
  ∀ (s : State) (i : Instr) (op : Nat) (f : FV),
    let n := s.cur
    let c := coreOf n
    i.form = .v op f → op ∉ [0x60, 0x61, 0x62, 0x63, 0x64, 0x65] → s.sound f.pr (vecIn i f) (vecOut i f) = true →
    s.drainPending n (vReads op f ++ vWrites op f) = false → (s.core c).vq.length < 16 →
    (vTakesRm op f = true → (s.strand n).ctlBad (s.tagOfStrand n) nFPC = false) →
    ∃ t e, exec i s = .next t ∧ (t.core c).vq = (s.core c).vq ++ [e] ∧
      e.ins = i ∧ e.strand = n ∧ e.slot = s.slotOf n ∧ e.gen = s.genOf n ∧ e.started = none ∧ e.poison = false ∧ e.srcBad = false ∧ e.acc = 0 ∧
      e.a = s.val f.bc ∧ e.mask = (if f.pr.neg then ~~~(s.getP n f.pr.n.toNat) else s.getP n f.pr.n.toNat) ∧
      e.rm = fpcRm (s.getCtl n nFPC) ∧ (t.strand n).getPc (s.tagOfStrand n) = pastIt s i ∧
      (∀ k ∈ vecOut i f, k ≠ 0 → k ≠ 64 → (t.strand n).pend.contains k = true) ∧
      (∀ j, (t.strand n).s (s.tagOfStrand n) j = (s.strand n).s (s.tagOfStrand n) j) ∧
      (∀ j, (t.strand n).p (s.tagOfStrand n) j = (s.strand n).p (s.tagOfStrand n) j) ∧
      (t.core c).vregs = (s.core c).vregs ∧ t.hbm = s.hbm ∧ t.ground = s.ground ∧ t.host = s.host ∧ t.groups = s.groups ∧
      t.flight = s.flight ∧ ∀ m, m ≠ n → t.strand m = s.strand m

/-- R217, R339, R352, R356: the issue of VLD, VST, VLDX, VSTX, VLDH and VSTH. A mask of zeros brings no access; any other one access of
its class in the strand's order; a store to LOCAL in an ordered task traps SPEC_ILLEGAL; a full vector queue holds every vector
instruction back. -/
def vectorMemoryIssues : Prop :=
  ∀ (s : State) (i : Instr) (op : Nat) (f : FV),
    let n := s.cur
    let c := coreOf n
    let st := op == 0x61 || op == 0x63 || op == 0x65
    let mask := if f.pr.neg then ~~~(s.getP n f.pr.n.toNat) else s.getP n f.pr.n.toNat
    i.form = .v op f →
    (op ∈ [0x60, 0x61, 0x62, 0x63, 0x64, 0x65] → s.sound f.pr (opdRegs [f.bc]) [] = true →
      s.drainPending n (vReads op f ++ vWrites op f) = false → (s.core c).vq.length < 16 →
      ((st && bits f.vc.toNat 0 4 == 0 && s.inTask n) = false → ∃ t e, exec i s = .next t ∧ (t.core c).vq = (s.core c).vq ++ [e] ∧
        e.ins = i ∧ e.strand = n ∧ e.mask = mask ∧ e.a = s.val f.bc ∧ e.started = none ∧ t.hbm = s.hbm ∧ t.ground = s.ground ∧
        (t.core c).vregs = (s.core c).vregs ∧ (t.strand n).getPc (s.tagOfStrand n) = pastIt s i ∧
        (∀ j, (t.strand n).s (s.tagOfStrand n) j = (s.strand n).s (s.tagOfStrand n) j) ∧
        if mask = 0 then e.acc = 0 ∧ t.flight = s.flight else
          ∃ a, t.flight = s.flight ++ [a] ∧ e.acc = a.id ∧ a.why = .vec st ∧ a.cls = bits f.vc.toNat 4 4 ∧ a.strand = n ∧ a.done = false) ∧
      ((st && bits f.vc.toNat 0 4 == 0 && s.inTask n) = true → exec i s = .next (s.trapNow n i ⟨cSpecIllegal, 0, 0⟩))) ∧
    (16 ≤ (s.core c).vq.length → (st && bits f.vc.toNat 0 4 == 0 && s.inTask n) = false → s.sound f.pr (vecIn i f) (vecOut i f) = true → exec i s = .next (s.block n))

/-- Vector entry `e` stands alone in the queue of core `c`, sound and unstarted, with no memory access, for its own strand's task. -/
def aloneVec (s : State) (c : Nat) (e : Ent) : Prop :=
  (s.core c).vq = [e] ∧ coreOf e.strand = c ∧ e.started = none ∧ e.poison = false ∧ e.acc = 0 ∧
    (s.strand e.strand).task = e.task

/-- The checks of R341 pass and no source is poisoned for the entry's tenancy. -/
def vecSound (s : State) (op : Nat) (f : FV) (e : Ent) : Prop :=
  s.vecCheck op e.strand f = .ok () ∧ e.srcBad = false ∧ ∀ r ∈ vReads op f, s.vregBad e r = false

/-- The entry starts, and completes: `P` of the state then, with the queue empty and memory as it was. -/
def vecRuns (s : State) (c : Nat) (P : State → Prop) : Prop :=
  ∃ t u, exec (.vectorEntryStart c) s = .next t ∧ exec (.vectorEntryComplete c) t = .next u ∧ (u.core c).vq = [] ∧
    u.hbm = s.hbm ∧ u.ground = s.ground ∧ P u

/-- The elements of VD after the entry: `g j` where element `j` is enabled, else what it was; no other register of the core changes. -/
def vecLanes (s : State) (c : Nat) (e : Ent) (f : FV) (w : Nat) (g : Nat → Nat) (u : State) : Prop :=
  (∀ j, j < 2048 / w → elem w (u.vregOf e f.vd.toNat) j = if laneOn e.mask w j then g j else elem w (s.vregOf e f.vd.toNat) j) ∧
  (∀ r, r ≠ s.vregIx e.strand f.vd.toNat → Tbl.get zVReg (u.core c).vregs r = Tbl.get zVReg (s.core c).vregs r) ∧
  ∀ m, m ≠ e.strand → u.strand m = s.strand m

/-- The integer of an element, and the element of an integer, wrapped or clamped to the type. -/
def laneInt (ty x : Nat) : Int := if ty % 2 = 0 then (BitVec.ofNat (tyW ty) x).toInt else x
def laneFit (ty : Nat) (sat : Bool) (v : Int) : Nat :=
  let w := tyW ty
  (BitVec.ofInt w (if sat then (if ty % 2 = 0 then max (-2 ^ (w - 1)) (min (2 ^ (w - 1) - 1) v) else max 0 (min (2 ^ w - 1) v)) else v)).toNat
/-- The carry-less product. -/
def carryless (w a b : Nat) : Nat := (List.range w).foldl (fun x i => if b.testBit i then x ^^^ (a * 2 ^ i) else x) 0

/-- The sources of an entry: element `j` of VA and of VB, a broadcast scalar in place of the one that R338 replaces. -/
def vecA (s : State) (e : Ent) (f : FV) (w j : Nat) : Nat := elem w (s.vregOf e f.va.toNat) j
def vecB (s : State) (e : Ent) (f : FV) (w j : Nat) : Nat :=
  if f.bc = .imm 0 then elem w (s.vregOf e f.vb.toNat) j else e.a.toNat % 2 ^ w
def vecU (s : State) (e : Ent) (f : FV) (w j : Nat) : Nat := if f.bc = .imm 0 then vecA s e f w j else e.a.toNat % 2 ^ w

/-- R342, R343: the integer element-wise vector instructions, started and completed, of every integer type. -/
def integerVectorResults : Prop :=
  ∀ (s : State) (c : Nat) (e : Ent) (f : FV),
    let ty := f.ty.toNat
    let w := tyW ty
    let sat := bits f.vc.toNat 4 4 == 1
    let A (j : Nat) : Nat := vecA s e f w j
    let B (j : Nat) : Nat := vecB s e f w j
    let U (j : Nat) : Nat := vecU s e f w j
    let gives (i : Instr) (op : Nat) (g : Nat → Nat) : Prop := e.ins = i → vecSound s op f e → vecRuns s c (vecLanes s c e f w g)
    aloneVec s c e → ty < 8 →
    gives (.vadd f) 0x40 (fun j => laneFit ty sat (laneInt ty (A j) + laneInt ty (B j))) ∧
    gives (.vsub f) 0x41 (fun j => laneFit ty sat (laneInt ty (A j) - laneInt ty (B j))) ∧
    gives (.vmul f) 0x42 (fun j => laneFit ty sat (laneInt ty (A j) * laneInt ty (B j))) ∧
    gives (.vmin f) 0x45 (fun j => if laneInt ty (A j) ≤ laneInt ty (B j) then A j else B j) ∧
    gives (.vmax f) 0x46 (fun j => if laneInt ty (B j) ≤ laneInt ty (A j) then A j else B j) ∧
    gives (.vabs f) 0x47 (fun j => laneFit ty sat (laneInt ty (U j)).natAbs) ∧
    gives (.vneg f) 0x48 (fun j => laneFit ty sat (-laneInt ty (U j))) ∧
    gives (.vshl f) 0x51 (fun j => A j * 2 ^ (B j % w) % 2 ^ w) ∧
    gives (.vshr f) 0x52 (fun j => A j / 2 ^ (B j % w)) ∧
    gives (.vsar f) 0x53 (fun j => (BitVec.ofInt w ((BitVec.ofNat w (A j)).toInt / 2 ^ (B j % w))).toNat) ∧
    gives (.vclmul f) 0x5B (fun j => (if bits f.vc.toNat 4 4 = 0 then carryless w (A j) (B j) else carryless w (A j) (B j) / 2 ^ w) % 2 ^ w) ∧
    gives (.vpopc f) 0x5C (fun j => (List.range w).countP fun k => (U j).testBit k) ∧
    gives (.viota f) 0x66 (fun j => (e.a.toNat + j) % 2 ^ w) ∧
    gives (.vmulh f) 0x68 (fun j => laneFit ty false (laneInt ty (A j) * laneInt ty (B j) / 2 ^ w))

/-- R342, R346, R349: the vector instructions that move or combine bits, of every type: they raise no flag, and VSEL writes every
element. -/
def vectorMoveResults : Prop :=
  ∀ (s : State) (c : Nat) (e : Ent) (f : FV),
    let ty := f.ty.toNat
    let w := tyW ty
    let A (j : Nat) : Nat := vecA s e f w j
    let B (j : Nat) : Nat := vecB s e f w j
    let U (j : Nat) : Nat := vecU s e f w j
    let quiet (u : State) : Prop := ∀ t k, (u.strand e.strand).ctlReg t k = (s.strand e.strand).ctlReg t k
    let gives (i : Instr) (op : Nat) (g : Nat → Nat) : Prop :=
      e.ins = i → vecSound s op f e → vecRuns s c fun u => vecLanes s c e f w g u ∧ quiet u
    aloneVec s c e → ty ≤ 13 →
    gives (.vand f) 0x4E (fun j => A j &&& B j) ∧ gives (.vor f) 0x4F (fun j => A j ||| B j) ∧
    gives (.vxor f) 0x50 (fun j => A j ^^^ B j) ∧ gives (.vmov f) 0x5D U ∧ gives (.vbcast f) 0x58 (fun _ => e.a.toNat % 2 ^ w) ∧
    gives (.vperm f) 0x57 (fun j => if B j < 2048 / w then A (B j) else 0) ∧
    gives (.vinsr f) 0x5F (fun j => if j = f.vb.toNat then e.a.toNat % 2 ^ w else elem w (s.vregOf e f.vd.toNat) j) ∧
    (e.ins = .vsel f → vecSound s 0x55 f e → vecRuns s c fun u => quiet u ∧
      ∀ j, j < 2048 / w → elem w (u.vregOf e f.vd.toNat) j = if laneOn e.mask w j then A j else B j) ∧
    (e.ins = .vextr f → vecSound s 0x5E f e → vecRuns s c fun u => quiet u ∧ (u.core c).vregs = (s.core c).vregs ∧
      ∀ k, (u.strand e.strand).s (tagOf e.slot e.gen) k = if k = f.bc.dest ∧ k ≠ 0 ∧ laneOn e.mask w f.vb.toNat = true then
          (if ty < 8 ∧ ty % 2 = 0 then (BitVec.ofNat w (A f.vb.toNat)).signExtend 64 else BitVec.ofNat 64 (A f.vb.toNat))
        else (s.strand e.strand).s (tagOf e.slot e.gen) k)

/-- R345, R347, R348, R350, R351 on integer types: VCMP sets the enabled bits of its predicate, VCVT converts part by part, VREDUCE and
VSCAN add the enabled elements, VDOT adds dot products into 32-bit lanes. -/
def integerVectorReductions : Prop :=
  ∀ (s : State) (c : Nat) (e : Ent) (f : FV),
    let ty := f.ty.toNat
    let w := tyW ty
    let opx := bits f.vc.toNat 4 4
    let A (j : Nat) : Nat := vecA s e f w j
    let B (j : Nat) : Nat := vecB s e f w j
    let on (j : Nat) : Bool := laneOn e.mask w j
    aloneVec s c e → ty < 8 →
    (e.ins = .vcmp f → vecSound s 0x54 f e → f.vd ≠ 0 →
      let holds (j : Nat) : Bool :=
        let x := laneInt ty (A j)
        let y := laneInt ty (B j)
        if opx = 0 then x = y else if opx = 1 then x ≠ y else if opx = 2 then x < y else if opx = 3 then x ≤ y else if opx = 4 then y < x else y ≤ x
      vecRuns s c fun u => (u.core c).vregs = (s.core c).vregs ∧ ∀ k, k < 64 →
        ((u.strand e.strand).p (tagOf e.slot e.gen) f.vd.toNat).getLsbD k =
          if w = 64 then (if e.mask.getLsbD (k / 2 * 2) then holds (k / 2) else ((s.strand e.strand).p (tagOf e.slot e.gen) f.vd.toNat).getLsbD k)
          else if e.mask.getLsbD k then (List.range (32 / w)).all fun q => holds (k * (32 / w) + q)
          else ((s.strand e.strand).p (tagOf e.slot e.gen) f.vd.toNat).getLsbD k) ∧
    (e.ins = .vcvt f → vecSound s 0x56 f e →
      let src := bits f.vb.toNat 0 4
      let ws := tyW src
      let part := bits f.vb.toNat 4 3
      let m := 2048 / max ws w
      src < 8 → vecRuns s c (vecLanes s c e f w fun j =>
        if w < ws then
          (if part * m ≤ j ∧ j < part * m + m then laneFit ty (opx == 1) (laneInt src (elem ws (s.vregOf e f.va.toNat) (j - part * m)))
            else elem w (s.vregOf e f.vd.toNat) j)
        else laneFit ty (opx == 1) (laneInt src (elem ws (s.vregOf e f.va.toNat) (part * m + j))))) ∧
    (e.ins = .vreduce f → vecSound s 0x59 f e → opx = 0 → vecRuns s c fun u => ∀ j, j < 2048 / w →
      elem w (u.vregOf e f.vd.toNat) j = if j = 0 then ((List.range (2048 / w)).filter on).foldl (fun x k => x + A k) 0 % 2 ^ w
        else elem w (s.vregOf e f.vd.toNat) j) ∧
    (e.ins = .vscan f → vecSound s 0x5A f e → opx = 0 → vecRuns s c (vecLanes s c e f w fun j =>
      ((List.range (j + 1)).filter on).foldl (fun x k => x + A k) 0 % 2 ^ w)) ∧
    (e.ins = .vdot f → vecSound s 0x67 f e → vecRuns s c (vecLanes s c e f 32 fun j =>
      let lane := if ty % 2 = 0 then 4 else 5
      laneFit lane (opx == 1) ((List.range (32 / w)).foldl (fun x k => x + laneInt ty (A (32 / w * j + k)) * laneInt ty (B (32 / w * j + k)))
        (laneInt lane (elem 32 (s.vregOf e f.vd.toNat) j)))))

/-- The value of a number. -/
def ratOf (x : FVal) : ℚ :=
  match x with
  | .num n m e => (if n then -1 else 1) * m * (2 : ℚ) ^ e
  | _ => 0
/-- The order of the values that are no NaN, the infinities at its ends. -/
def valueLess (x y : FVal) : Prop :=
  match x, y with
  | .nan _, _ => False
  | _, .nan _ => False
  | .inf a, .inf b => a = true ∧ b = false
  | .inf a, _ => a = true
  | _, .inf b => b = false
  | _, _ => ratOf x < ratOf y

/-- R134: the integer that a mode rounds `v` to. -/
def roundsTo (rm : Nat) (v : ℚ) (k : Int) : Prop :=
  match rm with
  | 0 => |v - k| ≤ 1 / 2 ∧ (|v - k| = 1 / 2 → k % 2 = 0)
  | 1 => |(k : ℚ)| ≤ |v| ∧ |v - k| < 1
  | 2 => v ≤ k ∧ (k : ℚ) < v + 1
  | 3 => (k : ℚ) ≤ v ∧ v < k + 1
  | _ => |v - k| ≤ 1 / 2 ∧ (|v - k| = 1 / 2 → |v| ≤ |(k : ℚ)|)

/-- R343: -0 below +0, and else the order of the values. -/
def liesBelow (x y : FVal) : Prop := valueLess x y ∨ (x.isZero = true ∧ y.isZero = true ∧ x.neg? = true ∧ y.neg? = false)

/-- R343: which element VMIN and VMAX give, and that VROUND gives the integral value of its mode and never NX; NV for a signalling NaN. -/
def minMaxAndRoundValues : Prop :=
  ∀ (ty rm a b : Nat), 8 ≤ ty → ty ≤ 11 → rm ≤ 4 → a < 2 ^ tyW ty → b < 2 ^ tyW ty →
    let F := tyFmt ty
    let x := F.decode a
    let y := F.decode b
    let nv := if x.isSnan = true ∨ y.isSnan = true then 1 else 0
    let both (r : Nat × Nat) : Prop := fpPick F false a b = r ∧ fpPick F true a b = r
    let r := vroundE ty rm a
    (x.isNan = true → y.isNan = true → both (F.nan, nv)) ∧
    (x.isNan = true → y.isNan = false → both (b, nv)) ∧ (x.isNan = false → y.isNan = true → both (a, nv)) ∧
    (x.isNan = false → y.isNan = false →
      (liesBelow x y → fpPick F false a b = (a, 0) ∧ fpPick F true a b = (b, 0)) ∧
      (liesBelow y x → fpPick F false a b = (b, 0) ∧ fpPick F true a b = (a, 0)) ∧
      (¬liesBelow x y → ¬liesBelow y x → both (a, 0))) ∧
    (x.isNan = true → r = (F.nan, if x.isSnan = true then 1 else 0)) ∧
    (x.isNan = false → (∃ k : Int, ratOf x = k) ∨ (∃ n, x = .inf n) → r = (a, 0)) ∧
    (∀ n m e, x = .num n m e → r.2 = 0 ∧ ∃ k : Int, roundsTo rm (ratOf x) k ∧ (F.decode r.1).isNan = false ∧ (∀ i, F.decode r.1 ≠ .inf i) ∧
      ratOf (F.decode r.1) = k)

/-- R340, R342 to R344, R346 to R351 on floating types: each enabled element takes the element operation of its values under the control
byte's rounding mode or FPC.RM, and FPC takes the flags of all enabled elements at completion. -/
def floatLaneResults : Prop :=
  ∀ (s : State) (c : Nat) (e : Ent) (f : FV),
    let ty := f.ty.toNat
    let w := tyW ty
    let F := tyFmt ty
    let rm := if bit f.vc.toNat 3 then bits f.vc.toNat 0 3 else e.rm
    let A (j : Nat) : FVal := F.decode (vecA s e f w j)
    let B (j : Nat) : FVal := F.decode (vecB s e f w j)
    let U (j : Nat) : FVal := F.decode (vecU s e f w j)
    let flags (u : State) (g : Nat → Nat) : Prop := ∀ k, k < 64 →
      ((u.strand e.strand).ctlReg (tagOf e.slot e.gen) nFPC).getLsbD k = (((s.strand e.strand).ctlReg (tagOf e.slot e.gen) nFPC).getLsbD k ||
        (decide (k < 5) && (List.range (2048 / w)).any fun j => laneOn e.mask w j && (g j).testBit k))
    let gives (i : Instr) (op : Nat) (g : Nat → Nat × Nat) : Prop :=
      e.ins = i → vecSound s op f e → vecRuns s c fun u => vecLanes s c e f w (fun j => (g j).1) u ∧ flags u fun j => (g j).2
    aloneVec s c e → (s.strand e.strand).ctlBad (tagOf e.slot e.gen) nFPC = false → 8 ≤ ty → ty ≤ 13 →
    gives (.vadd f) 0x40 (fun j => F.add rm (A j) (B j)) ∧ gives (.vsub f) 0x41 (fun j => F.add rm (A j) (B j).flip) ∧
    gives (.vmul f) 0x42 (fun j => F.mul rm (A j) (B j)) ∧
    gives (.vfma f) 0x43 (fun j => F.fma e.rm (A j) (B j) (F.decode (elem w (s.vregOf e f.vc.toNat) j))) ∧
    gives (.vfms f) 0x44 (fun j => F.fma e.rm (A j) (B j) (F.decode (elem w (s.vregOf e f.vc.toNat) j)).flip) ∧
    gives (.vmin f) 0x45 (fun j => fpPick F false (vecA s e f w j) (vecB s e f w j)) ∧
    gives (.vmax f) 0x46 (fun j => fpPick F true (vecA s e f w j) (vecB s e f w j)) ∧
    gives (.vabs f) 0x47 (fun j => (if (U j).isNan then F.nan else vecU s e f w j % 2 ^ (w - 1), 0)) ∧
    gives (.vneg f) 0x48 (fun j => (if (U j).isNan then F.nan else vecU s e f w j ^^^ 2 ^ (w - 1), 0)) ∧
    gives (.vrcp f) 0x49 (fun j => F.rcp rm (U j)) ∧ gives (.vrsq f) 0x4A (fun j => F.rsqrt rm (U j)) ∧
    gives (.vsqrt f) 0x4B (fun j => F.sqrt rm (U j)) ∧ gives (.vexp2 f) 0x4C (fun j => F.exp2 rm (U j)) ∧
    gives (.vlog2 f) 0x4D (fun j => F.log2 rm (U j)) ∧ gives (.vround f) 0x69 (fun j => vroundE ty rm (vecU s e f w j)) ∧
    gives (.vclass f) 0x6A (fun j => ((match U j with
      | .inf true => 0 | .inf false => 7 | .nan true => 8 | .nan false => 9
      | .num true m _ => if m = 0 then 3 else if m < 2 ^ F.fb then 2 else 1
      | .num false m _ => if m = 0 then 4 else if m < 2 ^ F.fb then 5 else 6), 0))

/-- R81, R340, R345, R347, R348, R350, R351 on every type: where VCMP, VCVT, VREDUCE, VSCAN and VDOT put the comparisons, conversions, tree
reductions, running results and dot products of their elements, and that FPC takes their flags. -/
def vectorReductionsOfEveryType : Prop :=
  ∀ (s : State) (c : Nat) (e : Ent) (f : FV),
    let ty := f.ty.toNat
    let w := tyW ty
    let opx := bits f.vc.toNat 4 4
    let rm := if bit f.vc.toNat 3 then bits f.vc.toNat 0 3 else e.rm
    let g := tagOf e.slot e.gen
    let old := s.vregOf e f.vd.toNat
    let on (j : Nat) : Bool := laneOn e.mask w j
    let src := bits f.vb.toNat 0 4
    let ws := tyW src
    let k := bits f.vb.toNat 4 3 * (2048 / max ws w)
    let conv (j : Nat) : Nat × Nat :=
      if w < ws then (if k ≤ j ∧ j < k + 2048 / ws then vcvtE ty src rm opx (elem ws (s.vregOf e f.va.toNat) (j - k)) else (elem w old j, 0))
      else vcvtE ty src rm opx (elem ws (s.vregOf e f.va.toNat) (k + j))
    let dot (j : Nat) : Nat × Nat := vdotE ty rm (opx == 1) (elem 32 old j)
      ((List.range (32 / w)).map fun q => (vecA s e f w (32 / w * j + q), vecB s e f w (32 / w * j + q)))
    let raised (u : State) (l : List Nat) : Prop :=
      (u.strand e.strand).ctlReg g nFPC = l.foldl fpcRaise ((s.strand e.strand).ctlReg g nFPC)
    aloneVec s c e → (s.strand e.strand).ctlBad (tagOf e.slot e.gen) nFPC = false → ty ≤ 13 →
    (e.ins = .vcvt f → vecSound s 0x56 f e → src ≤ 13 → vecRuns s c fun u => vecLanes s c e f w (fun j => (conv j).1) u ∧
      raised u (((List.range (2048 / w)).filter on).map fun j => (conv j).2)) ∧
    (e.ins = .vdot f → vecSound s 0x67 f e → vecRuns s c fun u => vecLanes s c e f 32 (fun j => (dot j).1) u ∧
      raised u ((lanes e.mask 32).map fun j => (dot j).2)) ∧
    (e.ins = .vreduce f → vecSound s 0x59 f e → vecRuns s c fun u => raised u [(vreduceE ty rm opx e.mask (s.vregOf e f.va.toNat)).2] ∧
      ∀ j, j < 2048 / w → elem w (u.vregOf e f.vd.toNat) j =
        if j = 0 then (vreduceE ty rm opx e.mask (s.vregOf e f.va.toNat)).1 % 2 ^ w else elem w old j) ∧
    (e.ins = .vscan f → vecSound s 0x5A f e → vecRuns s c fun u =>
      let l := scanE ty rm opx (s.vregOf e f.va.toNat) none (lanes e.mask w)
      raised u (l.map fun x => x.2.2) ∧ l.map (·.1) = lanes e.mask w ∧
        (∀ x ∈ l, elem w (u.vregOf e f.vd.toNat) x.1 = x.2.1 % 2 ^ w) ∧
        ∀ j, j < 2048 / w → on j = false → elem w (u.vregOf e f.vd.toNat) j = elem w old j) ∧
    (e.ins = .vcmp f → vecSound s 0x54 f e → vecRuns s c fun u => (u.core c).vregs = (s.core c).vregs ∧
      raised u (((List.range (2048 / w)).filter on).map fun j => (vcmpE ty opx (vecA s e f w j) (vecB s e f w j)).2) ∧
      (f.vd ≠ 0 → ∀ k, k < 64 →
        let holds (j : Nat) : Bool := (vcmpE ty opx (vecA s e f w j) (vecB s e f w j)).1
        let was := ((s.strand e.strand).p g f.vd.toNat).getLsbD k
        ((u.strand e.strand).p g f.vd.toNat).getLsbD k =
          if w = 64 then (if e.mask.getLsbD (k / 2 * 2) then holds (k / 2) else was)
          else if e.mask.getLsbD k then (List.range (32 / w)).all fun q => holds (k * (32 / w) + q) else was))

/-- R345: what a comparison of two floating elements holds: -0 equals +0, and a NaN meets `.ne` and `.uno` alone; NV for a signalling NaN, and
for any NaN where the condition orders. -/
def floatsCompare : Prop :=
  ∀ (ty cc a b : Nat), 8 ≤ ty → ty ≤ 11 → cc < 8 →
    let x := (tyFmt ty).decode a
    let y := (tyFmt ty).decode b
    let sound := x.isNan = false ∧ y.isNan = false
    let r := vcmpE ty cc a b
    (r.1 = true ↔ match cc with
      | 0 => sound ∧ ¬valueLess x y ∧ ¬valueLess y x
      | 1 => ¬(sound ∧ ¬valueLess x y ∧ ¬valueLess y x)
      | 2 => valueLess x y
      | 3 => sound ∧ ¬valueLess y x
      | 4 => valueLess y x
      | 5 => sound ∧ ¬valueLess x y
      | 6 => ¬sound
      | _ => sound) ∧
    r.2 = if x.isSnan = true ∨ y.isSnan = true ∨ (2 ≤ cc ∧ cc ≤ 5 ∧ (x.isNan = true ∨ y.isNan = true)) then 1 else 0

/-- A value with its sign, a natural mantissa and an exponent. -/
def asNum (v : ℚ) (m : Nat) (e : Int) : Prop := |v| = m * (2 : ℚ) ^ e

/-- R137, R138: the conversion of a value to a floating format: the one rounding of a number, an overflow the largest finite value under
saturation; an infinity likewise, with NX alone, and else an infinity or the NaN of E4M3; a NaN the canonical one. -/
def convertsFloat (f : Fmt) (rm : Nat) (sat : Prop) [Decidable sat] (v : FVal) (r : Nat × Nat) : Prop :=
  let largest (n : Bool) : Nat := f.signBit n + f.maxFin
  match v with
  | .nan g => r = (f.nan, if g = true then 1 else 0)
  | .inf n => r = if sat then (largest n, 16) else if f = fmtE4 then (0x7F, 16) else (f.signBit n + f.infBits, 0)
  | .num n _ _ => ∀ m e, asNum (ratOf v) m e →
    let q := f.round rm false n m e
    (q.2.testBit 2 = false → r = q) ∧ (q.2.testBit 2 = true → r = (if sat then largest n else q.1, 20))
/-- R139: the conversion of a value to an integer type of `w` bits: the integer of the mode, held to the bounds with NV. -/
def convertsInt (w : Nat) (signed : Bool) (rm : Nat) (v : FVal) (r : Nat × Nat) : Prop :=
  let lo : Int := if signed then -2 ^ (w - 1) else 0
  let hi : Int := if signed then 2 ^ (w - 1) - 1 else 2 ^ w - 1
  let asBits (k : Int) : Nat := (BitVec.ofInt w k).toNat
  match v with
  | .nan _ => r = (0, 1)
  | .inf n => r = (asBits (if n = true then lo else hi), 1)
  | .num _ _ _ => ∃ k : Int, roundsTo rm (ratOf v) k ∧
    r = if k < lo then (asBits lo, 1) else if hi < k then (asBits hi, 1) else (asBits k, if (k : ℚ) = ratOf v then 0 else 16)

/-- R348, R137 to R139: what a conversion of an element gives: between floating types the one rounding of the value, saturated under `.sat`, or
into the 8-bit types unless `.nsat`; exact into a wider type; the value itself, a NaN made canonical, to its own type (an infinity too, log entry
124); from an integer type the one rounding; to an integer type from a floating one the integer of the mode. -/
def conversionValues : Prop :=
  ∀ (dst src rm satm a : Nat), dst ≤ 13 → src ≤ 13 → rm ≤ 4 → a < 2 ^ tyW src → satmOk dst src satm = true →
    let F := tyFmt dst
    let v := (tyFmt src).decode a
    let r := vcvtE dst src rm satm a
    let sat : Prop := if 12 ≤ dst then satm ≠ 2 else satm = 1
    (8 ≤ dst → 8 ≤ src → dst ≠ src → convertsFloat F rm sat v r ∧
      (v.isNan = false → (∀ n, v ≠ .inf n) → tyW src < tyW dst → r.2 = 0 ∧ ratOf (F.decode r.1) = ratOf v)) ∧
    (8 ≤ dst → dst = src → r = match v with | .nan g => (F.nan, if g = true then 1 else 0) | _ => (a, 0)) ∧
    (8 ≤ dst → src < 8 → convertsFloat F rm sat (.num (decide (laneInt src a < 0)) (laneInt src a).natAbs 0) r) ∧
    (dst < 8 → 8 ≤ src → convertsInt (tyW dst) (dst % 2 == 0) rm v r)

/-- R350: what VREDUCE and VSCAN combine two elements with, and what they give when no element is enabled. -/
def combines (ty rm opx a b : Nat) : Nat × Nat :=
  let F := tyFmt ty
  if ty < 8 then (match opx with
    | 0 => laneFit ty false (laneInt ty a + laneInt ty b)
    | 1 => if laneInt ty a ≤ laneInt ty b then a else b
    | 2 => if laneInt ty b ≤ laneInt ty a then a else b
    | 3 => a &&& b
    | 4 => a ||| b
    | _ => a ^^^ b, 0)
  else match opx with
    | 0 => F.add rm (F.decode a) (F.decode b)
    | 1 => fpPick F false a b
    | _ => fpPick F true a b
def whenNone (ty opx : Nat) : Nat :=
  let w := tyW ty
  match opx with
  | 1 => if 8 ≤ ty then (tyFmt ty).infBits else if ty % 2 = 0 then 2 ^ (w - 1) - 1 else 2 ^ w - 1
  | 2 => if 8 ≤ ty then 2 ^ (w - 1) + (tyFmt ty).infBits else if ty % 2 = 0 then 2 ^ (w - 1) else 0
  | 3 => 2 ^ w - 1
  | _ => 0
/-- A floating value made canonical if it is a NaN. -/
def canonical (ty x : Nat) : Nat := if 8 ≤ ty ∧ ((tyFmt ty).decode x).isNan = true then (tyFmt ty).nan else x
/-- R350: entry `i` after `k` rounds of the tree over elements that may be absent, and the flags raised below it. -/
def treeAt (g : Nat → Nat → Nat × Nat) (t : Nat → Option Nat) : Nat → Nat → Option Nat × Nat
  | 0, i => (t i, 0)
  | k + 1, i =>
    let x := treeAt g t k (2 * i)
    let y := treeAt g t k (2 * i + 1)
    match x.1, y.1 with
    | some a, some b => (some (g a b).1, x.2 ||| y.2 ||| (g a b).2)
    | some a, none => (some a, x.2 ||| y.2)
    | none, z => (z, x.2 ||| y.2)
/-- R350: the running result of the scan over the first `k` elements. -/
def scanUpTo (g : Nat → Nat → Nat × Nat) (t : Nat → Option Nat) : Nat → Option Nat
  | 0 => none
  | k + 1 => match scanUpTo g t k, t k with
    | some a, some x => some (g a x).1
    | some a, none => some a
    | none, z => z

/-- R350: the values of the tree and of the scan, for every operation, type and mask. -/
def reductionValues : Prop :=
  ∀ (ty rm opx : Nat) (mask : W64) (v : VReg), ty ≤ 11 → opx ≤ (if ty < 8 then 5 else 2) →
    let w := tyW ty
    let n := 2048 / w
    let g := combines ty rm opx
    let t (j : Nat) : Option Nat := if j < n ∧ mask.getLsbD (w * j / 32) = true then some (elem w v j) else none
    let r := vreduceE ty rm opx mask v
    let top := treeAt g t n.log2 0
    (top.1 = none → r = (whenNone ty opx, 0)) ∧
    (∀ x, top.1 = some x → r.1 = canonical ty x ∧
      r.2 = top.2 ||| (if 8 ≤ ty ∧ ((tyFmt ty).decode x).isSnan = true then 1 else 0)) ∧
    ∀ y ∈ scanE ty rm opx v none (lanes mask w), ∃ x, scanUpTo g t (y.1 + 1) = some x ∧ y.2.1 = canonical ty x

/-- R351: the dot product of floating elements beside a lane of FP32: the exact sum rounded once; a NaN operand gives the canonical NaN;
infinity times 0 and infinities of opposite sign give it with NV, and else an infinite term an infinity. -/
def dotValues : Prop :=
  ∀ (ty rm d : Nat) (xs : List (Nat × Nat)), ty ∈ [8, 9, 12, 13] → rm ≤ 4 → d < 2 ^ 32 → (∀ p ∈ xs, p.1 < 2 ^ tyW ty ∧ p.2 < 2 ^ tyW ty) →
    let F := tyFmt ty
    let z := fmt32.decode d
    let r := vdotE ty rm false d xs
    let infinite (x : FVal) : Prop := ∃ n, x = .inf n
    let nan := z.isNan = true ∨ ∃ p ∈ xs, (F.decode p.1).isNan = true ∨ (F.decode p.2).isNan = true
    let signals := z.isSnan = true ∨ ∃ p ∈ xs, (F.decode p.1).isSnan = true ∨ (F.decode p.2).isSnan = true
    let infTerm (n : Bool) : Prop := z = .inf n ∨ ∃ p ∈ xs, (infinite (F.decode p.1) ∨ infinite (F.decode p.2)) ∧
      (F.decode p.1).isZero = false ∧ (F.decode p.2).isZero = false ∧ ((F.decode p.1).neg? != (F.decode p.2).neg?) = n
    let invalid := (∃ p ∈ xs, (infinite (F.decode p.1) ∧ (F.decode p.2).isZero = true) ∨ ((F.decode p.1).isZero = true ∧ infinite (F.decode p.2))) ∨
      (infTerm true ∧ infTerm false)
    let sum := ratOf z + (xs.map fun p => ratOf (F.decode p.1) * ratOf (F.decode p.2)).sum
    (nan → r.1 = fmt32.nan ∧ (signals → r.2 = 1)) ∧
    (¬nan → (invalid → r = (fmt32.nan, 1)) ∧
      (¬invalid → (infTerm false → r = (0x7F800000, 0)) ∧ (infTerm true → r = (0xFF800000, 0)) ∧
        (¬infTerm false → ¬infTerm true → (sum = 0 → r.1 % 2 ^ 31 = 0 ∧ r.2 = 0) ∧
          (sum ≠ 0 → ∀ m e, asNum sum m e → r = fmt32.round rm false (decide (sum < 0)) m e))))

/-- Whether an encoding is a number of the format. -/
def isNum (f : Fmt) (x : Nat) : Prop := ∃ n m e, f.decode x = .num n m e

/-- R134, R136: the one rounding that every floating operation shares. A result that does not overflow is a number of the format with the
sign of the exact value, nearest to it as the mode says; NX is set exactly when they differ. -/
def Obligations.RoundingIsCorrect : Prop :=
  ∀ (f : Fmt) (rm m : Nat) (neg : Bool) (e : Int),
    f ∈ [fmt64, fmt32, fmt16, fmtBf, fmtE4, fmtE5, fmt128] → rm ≤ 4 → 0 < m →
    let r := f.round rm false neg m e
    let v := ratOf (.num neg m e)
    let w := ratOf (f.decode r.1)
    r.2.testBit 2 = false →
    isNum f r.1 ∧ r.1.testBit (f.width - 1) = neg ∧ (r.2.testBit 4 = true ↔ w ≠ v) ∧
    (rm = 0 → ∀ x, isNum f x → |v - w| ≤ |v - ratOf (f.decode x)| ∧ (|v - w| = |v - ratOf (f.decode x)| → ratOf (f.decode x) ≠ w → r.1 % 2 = 0)) ∧
    (rm = 1 → |w| ≤ |v| ∧ ∀ x, isNum f x → |ratOf (f.decode x)| ≤ |v| → |ratOf (f.decode x)| ≤ |w|) ∧
    (rm = 2 → v ≤ w ∧ ∀ x, isNum f x → v ≤ ratOf (f.decode x) → w ≤ ratOf (f.decode x)) ∧
    (rm = 3 → w ≤ v ∧ ∀ x, isNum f x → ratOf (f.decode x) ≤ v → ratOf (f.decode x) ≤ w) ∧
    (rm = 4 → ∀ x, isNum f x → |v - w| ≤ |v - ratOf (f.decode x)| ∧ (|v - w| = |v - ratOf (f.decode x)| → |ratOf (f.decode x)| ≤ |w|))

/-- R131, R134, R136, R342 to R344: on numbers the sum, the product and the fused result of the floating element operations are the exact
value rounded once, an exact zero +0 but for like zeros and under RDN; 1/x, √x and 1/√x are the rounding of a truncation of the exact value to 128 bits or more
that keeps, one place lower, whether anything was cut off; 2^x of an integer and log₂ of a power of two are the rounding of the exact value. -/
def Obligations.FloatOperationsRoundOnce : Prop :=
  ∀ (f : Fmt) (rm : Nat) (a b c : Bool) (i j k : Nat) (p q r : Int),
    f ∈ [fmt64, fmt32, fmt16, fmtBf, fmt128] → rm ≤ 4 → i < 2 ^ 128 →
    let x : FVal := .num a i p
    let y : FVal := .num b j q
    let z : FVal := .num c k r
    let once (v : ℚ) (t : Nat × Nat) : Prop := ∀ m e, asNum v m e → t = f.round rm false (decide (v < 0)) m e
    let cut (neg : Bool) (t : Nat × Nat) (g : ℚ → ℚ) (v : ℚ) : Prop :=
      ∃ (m s : Nat) (e : Int), 2 ^ 127 ≤ m ∧ s ≤ 1 ∧ t = f.round rm false neg (4 * m + s) (e - 2) ∧
        g (m * 2 ^ e) ≤ v ∧ v < g ((m + 1) * 2 ^ e) ∧ (s = 0 ↔ g (m * 2 ^ e) = v)
    (ratOf x + ratOf y ≠ 0 → once (ratOf x + ratOf y) (f.add rm x y)) ∧
    (ratOf x + ratOf y = 0 → f.add rm x y = (f.signBit (if i = 0 ∧ j = 0 ∧ a = b then a else rm == 3), 0)) ∧
    (i * j ≠ 0 → once (ratOf x * ratOf y) (f.mul rm x y)) ∧ (i * j = 0 → f.mul rm x y = (f.signBit (a != b), 0)) ∧
    (ratOf x * ratOf y + ratOf z ≠ 0 → once (ratOf x * ratOf y + ratOf z) (f.fma rm x y z)) ∧
    (ratOf x * ratOf y + ratOf z = 0 → f.fma rm x y z = (f.signBit (if i * j = 0 ∧ k = 0 ∧ (a != b) = c then c else rm == 3), 0)) ∧
    (i ≠ 0 → cut a (f.rcp rm x) (fun u => u * |ratOf x|) 1) ∧
    (i ≠ 0 → a = false → cut false (f.sqrt rm x) (fun u => u * u) (ratOf x) ∧ cut false (f.rsqrt rm x) (fun u => u * u * ratOf x) 1) ∧
    (∀ n : Int, ratOf x = n → f.exp2 rm x = f.round rm false false 1 n) ∧
    ∀ n : Int, ratOf x = 2 ^ n → f.log2 rm x = f.round rm false (decide (n < 0)) n.natAbs 0

/-- R341, R352 to R354, R356: the start of VLD, VST, VLDX, VSTX, VLDH and VSTH in every space that their checks admit. Each enabled element becomes
an access of its own, of the entry's class and in its place of the strand's order, at its element's place; a store's carries the
element's bytes. The place is that of the one range from the first element to the last, of the element's own index, or of its segment. -/
def vectorMemoryStarts : Prop :=
  ∀ (s : State) (c : Nat) (e : Ent) (f : FV) (a : Acc) (pl : Nat → Place),
    let n := e.strand
    let w := tyW f.ty.toNat
    let b := w / 8
    let es := lanes e.mask w
    let spc := bits f.vc.toNat 0 4
    let ea := e.a.toNat
    (s.core c).vq = [e] → coreOf n = c → e.started = none → e.poison = false → e.acc ≠ 0 → s.accOf e.acc = some a → a.done = false →
    a.task = none → a.core = c → es ≠ [] →
    let starts (load : Bool) : Prop :=
      ∃ t, exec (.vectorEntryStart c) s = .next t ∧ t.hbm = s.hbm ∧ t.ground = s.ground ∧ (t.core c).vregs = (s.core c).vregs ∧
        (t.core c).vq.map (·.started.map List.length) = [some es.length] ∧
        ∀ k (h : k < es.length), ∃ y ∈ t.flight, y.id = s.nextId + k ∧ y.ord = a.id ∧ y.strand = a.strand ∧ y.slot = a.slot ∧ y.gen = a.gen ∧
          y.cls = a.cls ∧ y.n = b ∧ y.done = false ∧ (2 ≤ spc → y.scope = 2) ∧
          if load then y.why = .vld a.id (s.vregIx n f.vd.toNat) (w * es[k]) w ∧ y.src = pl es[k]
          else y.why = .vst ∧ y.dst = pl es[k] ∧ y.data = leBytes b (elem w (s.vregOf e f.vd.toNat) es[k])
    let plain (st : Bool) : Prop := ea % b = 0 ∧
      ∃ x, s.resolve n st spc (ea + es.headD 0 * b) ((es.getLastD 0 - es.headD 0 + 1) * b) = .ok x ∧ ∀ j ∈ es, pl j = x.place.plus ((j - es.headD 0) * b)
    let indexed (st : Bool) : Prop := ∀ j ∈ es, let ad := ea + elem 32 (s.vregOf e f.vb.toNat) (w * j / 32)
      ad % b = 0 ∧ ∃ x, s.resolve n st spc ad b = .ok x ∧ pl j = x.place
    let segments (st : Bool) : Prop := spc = 0 ∧ ∃ d, descCheck e.a = .ok d ∧ (d.off + 16 * f.va.toNat) % 16 = 0 ∧ ∀ j ∈ es,
      let i := j * b / 16
      ∃ x, s.resolve n st 0 (rotAddr d.rot (d.off + 16 * f.va.toNat + 32 * d.rp * i) i) 16 = .ok x ∧ pl j = x.place.plus (j * b % 16)
    (e.ins = .vld f → vecSound s 0x60 f e → plain false → starts true) ∧ (e.ins = .vst f → vecSound s 0x61 f e → plain true → starts false) ∧
    (e.ins = .vldx f → vecSound s 0x62 f e → indexed false → starts true) ∧ (e.ins = .vstx f → vecSound s 0x63 f e → indexed true → starts false) ∧
    (e.ins = .vldh f → vecSound s 0x64 f e → segments false → starts true) ∧ (e.ins = .vsth f → vecSound s 0x65 f e → segments true → starts false)

/-- R341, R352, R353: the end of a vector load or store. Once every element of a load has its bytes `d`, VD's enabled elements take them and the
others stay; once every element of a store has performed, the entry is over. An element in its core's own slice performs at the end: a load
takes the bytes there, a store's bytes read back and no other byte changes (R353 item 5). -/
def vectorMemoryEnds : Prop :=
  ∀ (s : State) (c : Nat) (e : Ent) (f : FV) (ws : List Wr) (d : Nat → List Byte),
    let w := tyW f.ty.toNat
    let es := lanes e.mask w
    (s.core c).vq = [e] → coreOf e.strand = c → e.started = some ws → e.acc ≠ 0 → s.accOf e.acc = none →
    ((∃ lo v p, ws.head? = some (.load (s.vregIx e.strand f.vd.toNat) lo v p)) →
      (∀ y ∈ s.vecAccs e, y.done = true ∧ y.code = 0) →
      (s.vecAccs e).filterMap Acc.lane = es.map (fun j => (w * j, w, d j)) → (∀ j ∈ es, (d j).length = w / 8) → w ∈ [8, 16, 32, 64] →
      ∃ u, exec (.vectorEntryComplete c) s = .next u ∧ (u.core c).vq = [] ∧ u.hbm = s.hbm ∧ u.ground = s.ground ∧
        vecLanes s c e f w (fun j => ofLe (d j)) u) ∧
    ((∃ p b, ws.head? = some (.store p b)) → s.vecAccs e = [] →
      ∃ u, exec (.vectorEntryComplete c) s = .next u ∧ (u.core c).vq = [] ∧ u.hbm = s.hbm ∧ u.ground = s.ground ∧
        (u.core c).vregs = (s.core c).vregs) ∧
    (∀ y x k, s.vecAccs e = [y] → y.done = false → y.core = c → y.strand = e.strand → y.slot = e.slot → y.gen = e.gen → y.task = none → es = [k] → y.dst = .ground x → y.src = y.dst →
      y.dst.onCore c = true → y.n = w / 8 → s.placeFrozen y.dst = false → s.commitsAt y.dst y.n = [] → s.mayPerform y = true → w ∈ [8, 16, 32, 64] →
      (∀ i, i < y.n → s.cutAt y.slot y.gen y.dst i = false) →
      (∀ v p, ws.head? = some (.load (s.vregIx e.strand f.vd.toNat) (w * k) v p) → y.why = .vld e.acc (s.vregIx e.strand f.vd.toNat) (w * k) w →
        s.poisonAt y.slot y.gen y.src y.n = false →
        ∃ u, exec (.vectorEntryComplete c) s = .next u ∧ (u.core c).vq = [] ∧ u.hbm = s.hbm ∧ u.ground = s.ground ∧
          vecLanes s c e f w (fun _ => ofLe (s.bytesOf y.slot y.gen y.src y.n)) u) ∧
      (∀ p b, ws.head? = some (.store p b) → y.why = .vst → y.data.length = y.n →
        ∃ u, exec (.vectorEntryComplete c) s = .next u ∧ (u.core c).vq = [] ∧ u.hbm = s.hbm ∧ (u.core c).vregs = (s.core c).vregs ∧
          (∀ i (h : i < y.data.length), u.ground.byte false (tagOf e.slot e.gen) (x + i) = y.data[i]) ∧
          (∀ q, q < x ∨ x + y.n ≤ q → u.ground.byte false (tagOf e.slot e.gen) q = s.ground.byte false (tagOf e.slot e.gen) q)))

/-- R198, R341, R342: an entry that names a vector register outside its strand's allotment, or a type that its instruction does not
accept, leaves the queue and traps ILLEGAL_OPERAND, writing nothing; a source poisoned for its tenancy traps UNCORRECTABLE. -/
def vectorChecksTrap : Prop :=
  ∀ (s : State) (c : Nat) (e : Ent) (op : Nat) (f : FV),
    aloneVec s c e → e.acc = 0 → e.ins.form = .v op f →
    let gone := (s.mapCore c (·.dropVec 0)).paid e
    (((∃ r ∈ vReads op f ++ vWrites op f, resVreg (s.resOf e.strand) * 8 ≤ r) ∨ vTypeOk op f.ty.toNat = false) →
      exec (.vectorEntryStart c) s = .next (gone.entTrap e ⟨cOperand, 0, 0⟩)) ∧
    (op ∉ [0x60, 0x61, 0x62, 0x63, 0x64, 0x65] → s.vecCheck op e.strand f = .ok () → (e.srcBad = true ∨ ∃ r ∈ vReads op f, s.vregBad e r = true) →
      exec (.vectorEntryStart c) s = .next (gone.entTrap e ⟨cUncorrectable, 0, 0⟩))

/-- R217, R339 to R341, R352, R356: the issue of every vector instruction. -/
def Obligations.VectorInstructionsEnterTheQueue : Prop := vectorInstructionsIssue ∧ vectorMemoryIssues

/-- R342, R343, R346, R349: the vector instructions on integers and on bits. -/
def Obligations.IntegerAndMoveVectorResults : Prop := integerVectorResults ∧ vectorMoveResults

/-- R340, R342 to R344, R346 to R351 on floating types: where the results and flags of the elements go, and what VMIN, VMAX and VROUND give. -/
def Obligations.FloatVectorResults : Prop := floatLaneResults ∧ minMaxAndRoundValues

/-- R340, R345, R347, R348, R350, R351: comparisons, conversions, reductions, scans and dot products: where they go, and their values. -/
def Obligations.VectorReductions : Prop :=
  integerVectorReductions ∧ vectorReductionsOfEveryType ∧ floatsCompare ∧ conversionValues ∧ reductionValues ∧ dotValues

/-- R341, R352 to R354, R356: the vector loads and stores from their start to their end. -/
def Obligations.VectorMemoryPerforms : Prop := vectorMemoryStarts ∧ vectorMemoryEnds
/-! ### Pegs, bobbins and waits (R167, R318, R409 to R415) -/

/-- The strand may act on peg or bobbin `ix`: it runs no ordered task, its group holds the object, which is not poisoned for it. -/
def objectOpen (s : State) (bob : Bool) (ix : Nat) : Prop :=
  s.inTask s.cur = false ∧ (if bob then s.bobOk s.cur ix else s.pegOk s.cur ix) = true ∧ s.objPoison s.cur bob ix = false

/-- A wait instruction of the current strand is over: D took `v`, PC is past it, nothing stalls. -/
def waitOver (s : State) (i : Instr) (d : Nat) (v : W64) (t : State) : Prop :=
  let n := s.cur
  let g := s.tagOfStrand n
  (∀ j, (t.strand n).s g j = if j = d ∧ j ≠ 0 then v else (s.strand n).s g j) ∧ (t.strand n).getPc g = pastIt s i ∧
    (t.strand n).stall = 0 ∧ (t.core (coreOf n)).waiters = (s.core (coreOf n)).waiters ∧ t.hbm = s.hbm ∧ t.ground = s.ground

/-- A wait instruction joined the waiters of its core and holds its strand; PC and D stand. -/
def waitBegun (s : State) (bob : Bool) (ix kind : Nat) (cnt tmo : W64) (d : Nat) (t : State) : Prop :=
  let n := s.cur
  let g := s.tagOfStrand n
  (∃ w, (t.core (coreOf n)).waiters = (s.core (coreOf n)).waiters ++ [w] ∧ w.who = some n ∧ w.bob = bob ∧ w.ix = ix ∧ w.kind = kind ∧
    w.n = cnt ∧ w.d = d ∧ w.tag = g ∧ w.deadline = (if tmo = 0 then none else some (s.cycle + tmo.toNat))) ∧
  (∀ j, (t.strand n).s g j = (s.strand n).s g j) ∧ (t.strand n).getPc g = s.getPc n ∧ (t.strand n).stall = 1 ∧
  (t.core (coreOf n)).pegs = (s.core (coreOf n)).pegs ∧ (t.core (coreOf n)).bobs = (s.core (coreOf n)).bobs

/-- The count operand A: 0 stands for 1 (R411). -/
def counted (v : W64) : Nat := if v = 0 then 1 else v.toNat

/-- R409, R411: PEG.POST with nobody waiting adds to the posted count, saturating; PEG.WAIT and PEG.TAKE end at once by the tokens or the
latch, or join the waiters; PEG.TAKE takes what it asks; PEG.RD reads; PEG.ERR sets an empty latch; no other peg of the core changes. -/
def pegOperationsPart : Prop :=
  ∀ (s : State) (f : FY),
    let n := s.cur
    let c := coreOf n
    let g := s.tagOfStrand n
    let ix := f.ix.toNat
    let p := (s.core c).peg g ix
    let a := counted (s.val f.a)
    let others (t : State) : Prop := ∀ k q, k ≠ ix → (t.core c).peg q k = (s.core c).peg q k
    objectOpen s false ix →
    (s.ready f.pr (opdRegs [f.a]) [] = true → s.released n = true → (s.core c).waiters = [] →
      (a < 2 ^ 32 → ∃ t, exec (.pegPost f) s = .next t ∧ (t.core c).peg g ix = { p with posted := BitVec.ofNat 64 (min (p.posted.toNat + a) (2 ^ 64 - 1)) } ∧
        others t ∧ (t.strand n).getPc g = pastIt s (.pegPost f) ∧ t.hbm = s.hbm ∧ t.ground = s.ground) ∧
      (2 ^ 32 ≤ a → exec (.pegPost f) s = .next (s.trapNow n (.pegPost f) ⟨cOperand, 0, 0⟩))) ∧
    (s.ready f.pr (opdRegs [f.a]) [] = true → (s.core c).waiters = [] →
      (latchCode (s.val f.a) = true → ∃ t, exec (.pegErr f) s = .next t ∧ others t ∧ (t.strand n).getPc g = pastIt s (.pegErr f) ∧
        (t.core c).peg g ix = { p with latch := if p.latch = 0 then (s.val f.a).setWidth 8 else p.latch }) ∧
      (latchCode (s.val f.a) = false → exec (.pegErr f) s = .next (s.trapNow n (.pegErr f) ⟨cOperand, 0, 0⟩))) ∧
    (s.ready f.pr (opdRegs [f.a, f.b]) [f.d.dest] = true → (s.val f.b).toNat < 2 ^ 48 → a < 2 ^ 32 → s.acquires n = true →
      ∃ t u, exec (.pegWait f) s = .next t ∧ exec (.pegTake f) s = .next u ∧ others t ∧ others u ∧
        (p.latch ≠ 0 → waitOver s (.pegWait f) f.d.dest (p.latch.setWidth 64) t ∧ waitOver s (.pegTake f) f.d.dest (p.latch.setWidth 64) u ∧
          (u.core c).peg g ix = p) ∧
        (p.latch = 0 → p.taken.toNat + a ≤ p.posted.toNat → waitOver s (.pegWait f) f.d.dest 0 t ∧ waitOver s (.pegTake f) f.d.dest 0 u ∧
          (t.core c).peg g ix = p ∧ (u.core c).peg g ix = { p with taken := p.taken + BitVec.ofNat 64 a }) ∧
        (p.latch = 0 → p.posted.toNat < p.taken.toNat + a →
          waitBegun s false ix 0 (BitVec.ofNat 64 a) (s.val f.b) f.d.dest t ∧ waitBegun s false ix 1 (BitVec.ofNat 64 a) (s.val f.b) f.d.dest u)) ∧
    (s.ready f.pr [] [f.d.dest] = true → exec (.pegRd f) s = .next (s.wrote (.pegRd f) f.d.dest
      (if f.m = 0 then p.posted else if f.m = 1 then p.taken else if f.m = 2 then p.latch.setWidth 64 else p.posted - p.taken)))

/-- R218, R409, R411, R412: a post that lets the one waiter of the core go: its strand's D takes NONE, its PC passes the wait, and PEG.TAKE has
its tokens; an error code releases it with that code; and a wait whose time ran out in an earlier cycle has ended with WATCHDOG, whatever
comes after. -/
def postsReleaseWaiters : Prop :=
  ∀ (s : State) (f : FY) (w : Waiter) (m : Nat),
    let n := s.cur
    let c := coreOf n
    let g := s.tagOfStrand n
    let ix := f.ix.toNat
    let p := (s.core c).peg g ix
    let a := counted (s.val f.a)
    let code := (s.val f.a).setWidth 8
    let ended (t : State) (v : W64) : Prop := (t.core c).waiters = [] ∧ (t.strand m).stall = 0 ∧
      (t.strand m).getPc g = (s.strand m).getPc g + BitVec.ofNat 64 w.len ∧ (w.d ≠ 0 → (t.strand m).s g w.d = v)
    objectOpen s false ix → s.ready f.pr (opdRegs [f.a]) [] = true → (s.core c).waiters = [w] → w.who = some m → m ≠ n →
    w.bob = false → w.ix = ix → w.tag = g → w.kind ≤ 1 → p.latch = 0 →
    (s.released n = true → s.expired w.deadline = false → a < 2 ^ 32 → p.taken.toNat + w.n.toNat ≤ min (p.posted.toNat + a) (2 ^ 64 - 1) →
      ∃ t, exec (.pegPost f) s = .next t ∧ ended t 0 ∧
        (w.kind = 1 → ((t.core c).peg g ix).taken.toNat = p.taken.toNat + w.n.toNat) ∧ (w.kind = 0 → ((t.core c).peg g ix).taken = p.taken)) ∧
    (latchCode (s.val f.a) = true → code ≠ 0 → s.expired w.deadline = false →
      ∃ t, exec (.pegErr f) s = .next t ∧ ended t (code.setWidth 64) ∧ ((t.core c).peg g ix).latch = code) ∧
    (s.expired w.deadline = true →
      (s.released n = true → a < 2 ^ 32 → ∃ t, exec (.pegPost f) s = .next t ∧ ended t 0x32 ∧ ((t.core c).peg g ix).taken = p.taken) ∧
      (latchCode (s.val f.a) = true → code ≠ 0 → ∃ t, exec (.pegErr f) s = .next t ∧ ended t 0x32))

/-- R62, R63, R413, R414: BB.SET sets a geometry that fits, of an empty bobbin; BB.FILL and BB.FREE raise their counters and may not pass
the counter before them; BB.CLAIM, BB.TAKE and BB.TAKE.at end with the slot's offset, or with 2^63 and the latched code; BB.WAITF and
BB.WAITE end with the code alone; each joins the waiters while its condition does not hold; BB.RD reads. A count above COUNT and a
BB.TAKE.at below freed trap ILLEGAL_OPERAND, a nonzero reserved field of the geometry ILLEGAL_ENCODING. -/
def Obligations.BobbinOperations : Prop :=
  ∀ (s : State) (f : FY),
    let n := s.cur
    let c := coreOf n
    let g := s.tagOfStrand n
    let ix := f.ix.toNat
    let b := s.bob n ix
    let v := s.val f.a
    let a := counted v
    let slot (k : Nat) : W64 := BitVec.ofNat 64 (b.base.toNat + k % b.count.toNat * (64 * b.size.toNat))
    let latched : W64 := BitVec.ofNat 64 (2 ^ 63 + b.latch.toNat)
    let bobIs (t : State) (y : Bob) : Prop := (t.core c).bob g ix = y ∧ ∀ k q, k ≠ ix → (t.core c).bob q k = (s.core c).bob q k
    let waits (i : Instr) (kind : Nat) (cnt : W64) (on : Prop) (r fail : W64) (y : Bob) : Prop :=
      ∃ t, exec i s = .next t ∧ (b.latch ≠ 0 → waitOver s i f.d.dest fail t ∧ bobIs t b) ∧
        (b.latch = 0 → (on → waitOver s i f.d.dest r t ∧ bobIs t y) ∧ (¬on → waitBegun s true ix kind cnt (s.val f.b) f.d.dest t))
    objectOpen s true ix →
    (s.ready f.pr (opdRegs [f.a]) [] = true → (s.core c).waiters = [] →
      (bits v.toNat 56 8 = 0 → geomOk (s.spadOf n) (bits v.toNat 0 24) (bits v.toNat 24 16) (bits v.toNat 40 16) = true → b.claimed = b.freed →
        ∃ t, exec (.bbSet f) s = .next t ∧ bobIs t { b with base := v.extractLsb' 0 24, size := v.extractLsb' 24 16, count := v.extractLsb' 40 16 } ∧
          (t.strand n).getPc g = pastIt s (.bbSet f)) ∧
      (bits v.toNat 56 8 = 0 → geomOk (s.spadOf n) (bits v.toNat 0 24) (bits v.toNat 24 16) (bits v.toNat 40 16) = false ∨ b.claimed ≠ b.freed →
        exec (.bbSet f) s = .next (s.trapNow n (.bbSet f) ⟨cOperand, 0, 0⟩)) ∧
      (s.released n = true → a ≤ b.count.toNat → b.filled.toNat + a ≤ b.claimed.toNat →
        ∃ t, exec (.bbFill f) s = .next t ∧ bobIs t { b with filled := b.filled + BitVec.ofNat 64 a } ∧ (t.strand n).getPc g = pastIt s (.bbFill f)) ∧
      (s.released n = true → a ≤ b.count.toNat → b.freed.toNat + a ≤ b.filled.toNat →
        ∃ t, exec (.bbFree f) s = .next t ∧ bobIs t { b with freed := b.freed + BitVec.ofNat 64 a } ∧ (t.strand n).getPc g = pastIt s (.bbFree f)) ∧
      (b.claimed.toNat < b.filled.toNat + a → exec (.bbFill f) s = .next (s.trapNow n (.bbFill f) ⟨cOperand, 0, 0⟩)) ∧
      (b.filled.toNat < b.freed.toNat + a → exec (.bbFree f) s = .next (s.trapNow n (.bbFree f) ⟨cOperand, 0, 0⟩))) ∧
    (s.ready f.pr (opdRegs [f.a, f.b]) [f.d.dest] = true → (s.val f.b).toNat < 2 ^ 48 → s.acquires n = true →
      (a ≤ b.count.toNat →
        waits (.bbClaim f) 2 (BitVec.ofNat 64 a) (b.claimed.toNat + a ≤ b.freed.toNat + b.count.toNat) (slot b.claimed.toNat) latched
          { b with claimed := b.claimed + BitVec.ofNat 64 a } ∧
        waits (.bbTake f) 3 (BitVec.ofNat 64 a) (b.freed.toNat + a ≤ b.filled.toNat) (slot b.freed.toNat) latched b) ∧
      (b.count ≠ 0 → b.freed.toNat ≤ v.toNat → waits (.bbTakeAt f) 4 v (v.toNat < b.filled.toNat) (slot v.toNat) latched b) ∧
      waits (.bbWaitf f) 5 v (v.toNat ≤ b.filled.toNat) 0 (b.latch.setWidth 64) b ∧
      waits (.bbWaite f) 6 v (v.toNat ≤ b.freed.toNat) 0 (b.latch.setWidth 64) b) ∧
    (s.ready f.pr (opdRegs [f.a]) [] = true →
      (bits v.toNat 56 8 ≠ 0 → exec (.bbSet f) s = .next (s.trapNow n (.bbSet f) ⟨cEncoding, 0, 0⟩)) ∧
      (b.count.toNat < a → exec (.bbFill f) s = .next (s.trapNow n (.bbFill f) ⟨cOperand, 0, 0⟩) ∧
        exec (.bbFree f) s = .next (s.trapNow n (.bbFree f) ⟨cOperand, 0, 0⟩))) ∧
    (s.ready f.pr (opdRegs [f.a, f.b]) [f.d.dest] = true →
      (b.count.toNat < a → exec (.bbClaim f) s = .next (s.trapNow n (.bbClaim f) ⟨cOperand, 0, 0⟩) ∧
        exec (.bbTake f) s = .next (s.trapNow n (.bbTake f) ⟨cOperand, 0, 0⟩)) ∧
      (v.toNat < b.freed.toNat → exec (.bbTakeAt f) s = .next (s.trapNow n (.bbTakeAt f) ⟨cOperand, 0, 0⟩))) ∧
    (s.ready f.pr [] [f.d.dest] = true → exec (.bbRd f) s = .next (s.wrote (.bbRd f) f.d.dest
      (if f.m = 0 then b.claimed else if f.m = 1 then b.filled else if f.m = 2 then b.freed else if f.m = 3 then b.latch.setWidth 64
        else BitVec.ofNat 64 (b.base.toNat + b.size.toNat * 2 ^ 24 + b.count.toNat * 2 ^ 40))))

/-- R198, R421: every peg and bobbin instruction traps ILLEGAL_OPERAND on an object that the strand's group does not hold, and
SPEC_ILLEGAL in an ordered task, whatever its operands. -/
def objectChecksTrap : Prop :=
  ∀ (s : State) (i : Instr) (op : Nat) (f : FY),
    let n := s.cur
    let bob := decide (0xC6 ≤ op)
    i.form = .y op f → 0xC0 ≤ op → op ≤ 0xCF → s.ready f.pr (opdRegs [f.a, f.b]) [f.d.dest] = true →
    (s.inTask n = true → exec i s = .next (s.trapNow n i ⟨cSpecIllegal, 0, 0⟩)) ∧
    (s.inTask n = false → (if bob then s.bobOk n f.ix.toNat else s.pegOk n f.ix.toNat) = false →
      exec i s = .next (s.trapNow n i ⟨cOperand, 0, 0⟩))

/-- R318, R409, R416: a wait whose time is over ends with WATCHDOG, which BB.CLAIM, BB.TAKE and BB.TAKE.at give with bit 63; an expired
SWAIT as well; one whose time is not over stays; and a YIELD that is over holds its strand no more. -/
def Obligations.WaitsExpire : Prop :=
  ∀ (s : State) (n : Nat),
    let c := coreOf n
    (∀ (w : Waiter) (k : Nat), (s.core c).waiters = [w] → w.who = some n → w.deadline = some k →
      (∀ d, d < 4 → ∀ x ∈ (s.die d).syncWaits, x.strand ≠ n) →
      (k ≤ s.cycle → ∃ t, exec (.waitTimeout n) s = .next t ∧ (t.core c).waiters = [] ∧ (t.strand n).stall = 0 ∧
        (t.strand n).getPc w.tag = (s.strand n).getPc w.tag + BitVec.ofNat 64 w.len ∧
        (w.d ≠ 0 → (t.strand n).s w.tag w.d = if w.bob = true ∧ w.kind ≤ 4 then BitVec.ofNat 64 (2 ^ 63 + 0x32) else 0x32)) ∧
      (s.cycle < k → exec (.waitTimeout n) s = .next s)) ∧
    (∀ (w : SyncWait) (k d : Nat), d < 4 → (s.die d).syncWaits = [w] → w.strand = n → w.deadline = some k → k ≤ s.cycle →
      (∀ e, e < 4 → e ≠ d → ∀ x ∈ (s.die e).syncWaits, x.strand ≠ n) → (∀ x ∈ (s.core c).waiters, x.who ≠ some n) →
      ∃ t, exec (.waitTimeout n) s = .next t ∧ (t.die d).syncWaits = [] ∧ (t.strand n).swait = false ∧
        (w.d ≠ 0 → (t.strand n).s (tagOf w.slot w.gen) w.d = 0x32 ∧ (t.strand n).pend.contains w.d = false)) ∧
    ((s.strand n).yieldUntil ≤ s.cycle → ∃ t, exec (.yieldExpiry n) s = .next t ∧ (t.strand n).yieldUntil = 0 ∧
      (∀ g j, (t.strand n).s g j = (s.strand n).s g j) ∧ ∀ m, m ≠ n → t.strand m = s.strand m) ∧
    (s.cycle < (s.strand n).yieldUntil → exec (.yieldExpiry n) s = .next s)

/-- R218, R409, R411, R412: pegs, and the waits that a post ends. -/
def Obligations.PegOperations : Prop := pegOperationsPart ∧ postsReleaseWaiters

/-- R198, R341, R342, R421: registers and objects that a strand does not hold. -/
def Obligations.ResourceChecksTrap : Prop := objectChecksTrap ∧ vectorChecksTrap
/-! ### Matrix and tile instructions (R140 to R156, R357 to R386) -/

/-- The scalars that a matrix or tile instruction reads at its issue (R366). -/
def matIn (i : Instr) (f : FX) : List Nat :=
  match i with
  | .mma _ | .mmaz _ | .mldacc _ | .tquant _ | .tdeq _ | .ttrn _ | .tcomp _ | .tpack _ | .tunpk _ => [f.sa.toNat, f.sb.toNat]
  | .mdrain _ | .mdrainv _ | .mstacc _ | .mtplLd _ | .mtplDiff _ | .mtplRd _ | .tchk _ => [f.sa.toNat]
  | .mscale _ | .mscaleRebase _ => [f.sb.toNat]
  | _ => []
/-- The scalars that they receive at their completion (R366). -/
def matOut (i : Instr) (f : FX) : List Nat :=
  match i with
  | .mstacc _ | .mtplDiff _ | .mtplRd _ | .mstat _ | .tchk _ => [f.sb.toNat]
  | .tpack _ => [f.sa.toNat]
  | _ => []

/-- R357, R360, R366: outside an ordered task every matrix and tile instruction enters the core's queue of 32 with its scalars, a scalar that
it receives is not there until it completes, and nothing else changes but PC; a full queue holds it back; in a task it traps
SPEC_ILLEGAL, but for MTPL.RD, MSTAT and TCHK without pegs and without .clr. -/
def matrixInstructionsIssue : Prop :=
  ∀ (s : State) (i : Instr) (op : Nat) (f : FX),
    let n := s.cur
    let c := coreOf n
    let mild := f.wait = 0xFF ∧ f.post = 0xFF ∧ (i = .mtplRd f ∨ i = .tchk f ∨ (i = .mstat f ∧ f.m = 0))
    i.form = .x op f → s.ready f.pr (matIn i f) (matOut i f) = true → (i = .tdeq f → (s.strand n).ctlBad (s.tagOfStrand n) nFPC = false) →
    (s.inTask n = false ∨ mild → (s.core c).mq.length < 32 →
      ∃ t e, exec i s = .next t ∧ (t.core c).mq = (s.core c).mq ++ [e] ∧ e.ins = i ∧ e.strand = n ∧ e.slot = s.slotOf n ∧ e.gen = s.genOf n ∧
        e.a = s.val (.reg f.sa) ∧ e.b = s.val (.reg f.sb) ∧ e.tok = (f.wait == 0xFF) ∧ e.lat = 0 ∧ e.started = none ∧ e.poison = false ∧ e.srcBad = false ∧
        e.rm = fpcRm (s.getCtl n nFPC) ∧ (t.strand n).getPc (s.tagOfStrand n) = pastIt s i ∧
        (∀ k ∈ matOut i f, k ≠ 0 → (t.strand n).pend.contains k = true) ∧
        (∀ j, (t.strand n).s (s.tagOfStrand n) j = (s.strand n).s (s.tagOfStrand n) j) ∧
        (t.core c).banks = (s.core c).banks ∧ (t.core c).tplA = (s.core c).tplA ∧ (t.core c).tplS = (s.core c).tplS ∧
        t.hbm = s.hbm ∧ t.ground = s.ground ∧ t.groups = s.groups ∧ t.flight = s.flight ∧ ∀ m, m ≠ n → t.strand m = s.strand m) ∧
    (s.inTask n = false → 32 ≤ (s.core c).mq.length → exec i s = .next (s.block n)) ∧
    (s.inTask n = true → ¬mild → exec i s = .next (s.trapNow n i ⟨cSpecIllegal, 0, 0⟩))

/-- Matrix entry `e`, of the Form X fields `f`, stands alone and unstarted in the queue of core `c`, with its token, nothing of its strand
in flight, no write of a committed task on its way, no vector instruction before it that its registers wait for, and no peg to post. -/
def aloneMat (s : State) (c : Nat) (e : Ent) (f : FX) : Prop :=
  (s.core c).mq = [e] ∧ coreOf e.strand = c ∧ e.started = none ∧ e.poison = false ∧ e.srcBad = false ∧ e.tok = true ∧ e.lat = 0 ∧ e.fx = some f ∧
    f.post = 0xFF ∧ (∀ a ∈ s.flight, a.strand ≠ e.strand) ∧ s.drainHeld e = false ∧ (s.strand e.strand).task = e.task ∧
    s.cutAt e.slot e.gen (.ground (sliceAt c 0)) 0 = false ∧ s.flight.any Acc.isCommit = false

/-- The entry passes its checks (R360), starts and completes: `P` of the state then, with the queue empty, device and host memory as they were. -/
def matRuns (s : State) (c : Nat) (P : State → Prop) : Prop :=
  ∃ t u, exec (.matrixEntryStart c) s = .next t ∧ exec (.matrixEntryComplete c) t = .next u ∧ (u.core c).mq = [] ∧
    u.hbm = s.hbm ∧ u.host = s.host ∧ (∀ m, m ≠ (s.core c).mq.head?.elim 0 (·.strand) → u.strand m = s.strand m) ∧ P u

/-- R357 to R360: the engine's life of an entry. While an earlier access of its strand to its bytes, or an earlier vector instruction on its
registers, is to come, it does not start and takes no token; then it takes one of its peg as it starts, or waits for it, or ends with the
latched code; it starts when its checks pass and traps its strand with the code of the first that does not; its completion performs its
writes and posts its peg. -/
def matrixQueueLife : Prop :=
  ∀ (s : State) (c : Nat) (e : Ent) (f : FX),
    let g := tagOf e.slot e.gen
    let ix := f.wait.toNat
    let p := (s.core c).peg g ix
    let gone := (s.mapCore c (·.dropMat 0)).paid e
    (s.core c).mq = [e] → coreOf e.strand = c → e.fx = some f → e.poison = false →
    let free := s.matHeld e = false ∧ s.drainHeld e = false
    (e.started = none → ¬free → exec (.matrixEntryStart c) s = .next s) ∧
    (e.started = none → free → e.tok = false → (s.core c).waiters = [] → s.pegOk e.strand ix = true → s.objBad c g false ix = false →
      ∃ t, exec (.matrixEntryStart c) s = .next t ∧
        (p.latch ≠ 0 → (t.core c).mq = [] ∧ (t.core c).peg g ix = p ∧
          ∀ k gr, e.task = none → (s.strand e.strand).grp = some k → s.group k = some gr → gr.fail = none → p.latch ≠ cUncorrectable →
            ∃ u r, t.group k = some u ∧ u.fail = some r ∧ r.code = p.latch) ∧
        (p.latch = 0 → p.taken.toNat < p.posted.toNat →
          (t.core c).peg g ix = { p with taken := p.taken + 1 } ∧ ∀ x ∈ (t.core c).mq, x.tok = true ∧ x.lat = 0 ∧ x.started.isSome = true) ∧
        (p.latch = 0 → p.posted.toNat ≤ p.taken.toNat → (t.core c).mq = [e] ∧ ∃ w, (t.core c).waiters = [w] ∧ w.who = none ∧ w.ix = ix)) ∧
    (e.started = none → free → e.tok = false → s.pegOk e.strand ix = false →
      exec (.matrixEntryStart c) s = .next (gone.entTrap e ⟨cOperand, 0, 0⟩)) ∧
    (e.started = none → free → e.tok = true → e.lat ≠ 0 → exec (.matrixEntryStart c) s = .next (gone.entTrap e ⟨e.lat, 0, 0⟩)) ∧
    (aloneMat s c e f → (∀ w, s.matStart e = .ok w → exec (.matrixEntryStart c) s = .next (s.mapCore c (·.startMat 0 w))) ∧
      ∀ x, s.matStart e = .error x → exec (.matrixEntryStart c) s = .next (gone.entTrap e x)) ∧
    (e.started = some [] → f.post ≠ 0xFF → s.objBad c g false f.post.toNat = false → (s.core c).waiters = [] →
      ∃ t, exec (.matrixEntryComplete c) s = .next t ∧ (t.core c).mq = [] ∧
        (t.core c).peg g f.post.toNat = { (s.core c).peg g f.post.toNat with
          posted := BitVec.ofNat 64 (min (((s.core c).peg g f.post.toNat).posted.toNat + f.inc.toNat) (2 ^ 64 - 1)) })

/-- Element `n` of a bank as a signed integer (R152), and an integer held to 127 bits (R154). -/
def bankInt (b : Bank) (n : Nat) : Int := (Tbl.get (0 : BitVec 128) b.elems n).toInt
def held127 (v : Int) : Int := max (-(2 ^ 127 - 1)) (min (2 ^ 127 - 1) v)
def marked (b : Bank) (n : Nat) : Prop := Tbl.get (0 : BitVec 128) b.elems n = BitVec.ofNat 128 (2 ^ 127)

/-- R151: a binary128 element of a bank, what rounding a value to binary128 gives, and an element after additions in order, with their flags. -/
def bank128 (b : Bank) (n : Nat) : Nat := (Tbl.get (0 : BitVec 128) b.elems n).toNat
def to128 (v : FVal) : Nat × Nat :=
  match v with
  | .num n m e => fmt128.round 0 false n m e
  | .inf n => (fmt128.signBit n + fmt128.infBits, 0)
  | .nan _ => (fmt128.nan, 0)
def sums128 (c : Nat) (l : List FVal) : Nat × Nat :=
  l.foldl (fun x p => let r := fmt128.add 0 (fmt128.decode x.1) p; (r.1, x.2 ||| r.2)) (c, 0)
/-- The value times 2^k. -/
def timesTwo (v : FVal) (k : Int) : FVal := match v with | .num n m e => .num n m (e + k) | x => x
/-- R151: a bank whose elements are the first and whose OVF and INEXACT are raised by the second components of `g`. -/
def raised128 (b r : Bank) (g : Nat → Nat × Nat) : Prop :=
  (∀ n, n < 256 → bank128 r n = (g n).1) ∧ r.x = b.x ∧ (r.ovf = true ↔ b.ovf = true ∨ ∃ n, n < 256 ∧ (g n).2.testBit 2 = true) ∧
    (r.inexact = true ↔ b.inexact = true ∨ ∃ n, n < 256 ∧ (g n).2.testBit 4 = true)

/-- R155, R369 to R372: MZERO, MHAD, MSCALE, MSCALE.rebase and MSTAT, started and completed, on banks of both modes. Whatever they do to their
bank, no other bank and no byte of the slice changes. -/
def Obligations.BankOperations : Prop :=
  ∀ (s : State) (c : Nat) (e : Ent) (f : FX),
    let k := f.bank.toNat
    let b := s.bankOf e k
    let v := e.b.toInt
    let g := tagOf e.slot e.gen
    let others (u : State) : Prop := u.ground = s.ground ∧ ∀ j, j ≠ k → Tbl.get zBank (u.core c).banks j = Tbl.get zBank (s.core c).banks j
    let fails : Prop := exec (.matrixEntryStart c) s = .next (s.matTrap c 0 e ⟨cOperand, 0, 0⟩)
    aloneMat s c e f →
    (s.accOk e.strand k = false → (e.ins = .mzero f ∨ e.ins = .mhad f ∨ e.ins = .mscale f ∨ e.ins = .mscaleRebase f ∨ e.ins = .mstat f ∨
      e.ins = .mma f ∨ e.ins = .mmaz f ∨ e.ins = .mdrain f ∨ e.ins = .mdrainv f ∨ e.ins = .mldacc f ∨ e.ins = .mstacc f) → fails) ∧
    (s.accOk e.strand k = true → s.bankBad e k = false →
      (e.ins = .mzero f → matRuns s c fun u => others u ∧
        u.bankOf e k = if f.m = 0 then ⟨[], 0, false, false, false⟩ else { b with elems := [], ovf := false, inexact := false }) ∧
      (e.ins = .mstat f → matRuns s c fun u => others u ∧
        u.bankOf e k = (if f.m = 1 then { b with ovf := false, inexact := false } else b) ∧
        ∀ j, (u.strand e.strand).s g j = if j = f.sb.toNat ∧ j ≠ 0 then
            BitVec.ofNat 64 (b.anchor.toNat + (if b.x then 2 ^ 16 else 0) + (if b.ovf then 2 ^ 17 else 0) + if b.inexact then 2 ^ 18 else 0)
          else (s.strand e.strand).s g j) ∧
      (e.ins = .mscale f → b.x = true →
        (-32768 ≤ v → v ≤ 32767 → -32768 ≤ b.anchor.toInt + v → b.anchor.toInt + v ≤ 32767 →
          matRuns s c fun u => others u ∧ u.bankOf e k = { b with anchor := BitVec.ofInt 16 (b.anchor.toInt + v) }) ∧
        (v < -32768 ∨ 32767 < v ∨ b.anchor.toInt + v < -32768 ∨ 32767 < b.anchor.toInt + v → fails)) ∧
      (e.ins = .mscale f → b.x = false →
        (-32768 ≤ v → v ≤ 32767 → matRuns s c fun u => others u ∧ (u.bankOf e k).anchor = b.anchor ∧
          raised128 b (u.bankOf e k) fun n => to128 (timesTwo (fmt128.decode (bank128 b n)) v)) ∧
        (v < -32768 ∨ 32767 < v → fails)) ∧
      (e.ins = .mscaleRebase f →
        (b.x = true → -32768 ≤ v → v ≤ 32767 → v ≤ b.anchor.toInt → matRuns s c fun u => others u ∧
          let r := u.bankOf e k
          r.x = true ∧ r.anchor = BitVec.ofInt 16 v ∧ r.inexact = b.inexact ∧ ∀ j, j < 256 →
            (marked b j → marked r j) ∧ (¬marked b j → bankInt r j = held127 (bankInt b j * 2 ^ (b.anchor.toInt - v).toNat))) ∧
        (b.x = true → v ≤ 32767 → b.anchor.toInt < v → matRuns s c fun u => others u ∧
          let r := u.bankOf e k
          let t (j : Nat) : ℚ := bankInt b j / (2 : ℚ) ^ (v - b.anchor.toInt)
          r.x = true ∧ r.anchor = BitVec.ofInt 16 v ∧ r.ovf = b.ovf ∧
            (∀ j, j < 256 → (marked b j → marked r j) ∧ (¬marked b j → roundsTo 0 (t j) (bankInt r j))) ∧
            (r.inexact = true ↔ b.inexact = true ∨ ∃ j, j < 256 ∧ ¬marked b j ∧ (bankInt r j : ℚ) ≠ t j)) ∧
        (b.x = false ∨ v < -32768 ∨ 32767 < v → fails)) ∧
      (e.ins = .mhad f → b.x = true →
        (-32766 ≤ b.anchor.toInt → matRuns s c fun u => others u ∧
          let r := u.bankOf e k
          r.x = true ∧ r.anchor = BitVec.ofInt 16 (b.anchor.toInt - 2) ∧ ∀ i j, i < 16 → j < 16 → (∀ q, q < 16 → ¬marked b (16 * i + q)) →
            bankInt r (16 * i + j) = held127 ((List.range 16).foldl (fun a q =>
              a + (if popc 4 (q &&& j) % 2 = 1 then -(bankInt b (16 * i + q)) else bankInt b (16 * i + q))) 0)) ∧
        (b.anchor.toInt < -32766 → fails)) ∧
      (e.ins = .mhad f → b.x = false → matRuns s c fun u => others u ∧ (u.bankOf e k).anchor = b.anchor ∧
        let t (n : Nat) : Nat × Nat := sums128 0 ((List.range 16).map fun q =>
          let x := fmt128.decode (bank128 b (16 * (n / 16) + q))
          if popc 4 (q &&& (n % 16)) % 2 = 1 then x.flip else x)
        raised128 b (u.bankOf e k) fun n => let y := to128 (timesTwo (fmt128.decode (t n).1) (-2)); (y.1, (t n).2 ||| y.2)))

/-- The byte of the entry's slice at an offset, as its tenancy reads it. -/
def sliceByte (s : State) (e : Ent) (o : Nat) : Byte := (s.sliceBytes e [o]).headD 0

/-- R150, R153, R154, R365, R367 with operands I8: MMAZ makes the bank ACC.X with anchor 40 and the exact products, MMA adds them to an
ACC.X bank of anchor 40 without saturation; element (i, j) is the sum over k of A(i, k) × B(k, j), with ATRN and BTRN read transposed. -/
def integerMatrixProductsPart : Prop :=
  ∀ (s : State) (c : Nat) (e : Ent) (f : FX) (w : List Wr),
    let t := s.tplPlane e f.tpl.toNat false
    let k := f.bank.toNat
    let b := s.bankOf e k
    let at_ (v : W64) (trn : Bool) (q i j : Nat) : Int :=
      let d := descOf v
      let r := if trn then j else i
      (sliceByte s e (rotAddr d.rot (d.off + 32 * d.tp * q + 32 * d.rp * r + (if trn then i else j)) r)).toInt
    let sum (i j : Nat) : Int := (List.range (tplKt t)).foldl (fun a q => (List.range 16).foldl (fun a x =>
      a + at_ e.a (bit t 16) q i x * at_ e.b (bit t 17) q x j) a) 0
    aloneMat s c e f → s.matStart e = .ok w → f.patch = none → tplA t = 6 → tplB t = 6 → e.task = none →
    (e.ins = .mmaz f → matRuns s c fun u => u.ground = s.ground ∧
      let r := u.bankOf e k
      r.x = true ∧ r.anchor = 40 ∧ r.ovf = false ∧ r.inexact = false ∧ ∀ i j, i < 16 → j < 16 → bankInt r (16 * i + j) = sum i j) ∧
    (e.ins = .mma f → b.x = true → b.anchor = 40 → (∀ j, j < 256 → |bankInt b j| < 2 ^ 126) → matRuns s c fun u => u.ground = s.ground ∧
      let r := u.bankOf e k
      r.x = true ∧ r.anchor = 40 ∧ r.ovf = b.ovf ∧ r.inexact = b.inexact ∧
        ∀ i j, i < 16 → j < 16 → bankInt r (16 * i + j) = bankInt b (16 * i + j) + sum i j)

/-- R153: the low weight of an operand in format `k` whose tile 0 has exponent `x`. -/
def lowWeightOf (k x : Nat) : Int :=
  match k with
  | 4 => -9
  | 5 => -16
  | 8 => (max 1 (min 254 x) : Nat) - 128
  | 9 => (max 1 (min 254 x) : Nat) - 130
  | 10 => (max 1 (min 254 x) : Nat) - 133
  | _ => 0
/-- R151, R154: the exact product of two values. -/
def exactProduct (x y : FVal) : FVal :=
  match x, y with
  | .num a m e, .num b k g => .num (a != b) (m * k) (e + g)
  | _, _ => if x.isNan = true ∨ y.isNan = true ∨ x.isZero = true ∨ y.isZero = true then .nan false else .inf (x.neg? != y.neg?)

/-- R150, R151, R153, R154, R365, R367, R368 for every operand format. The bank of MMAZ is ACC.F with anchor 0 for wide operands and ACC.X with
the anchor of its two tiles 0 for narrow ones; MMA keeps the bank's mode and anchor. Each element of an ACC.F bank takes the
products in ascending depth, each addition rounded once to binary128; of an ACC.X bank it takes the sum of the products, each rounded to
the bank's unit, held to 127 bits, the NaN mark, or the bound of the infinite products; OVF and INEXACT are raised by what R151 and R154 say. -/
def matrixProductsOfEveryFormat : Prop :=
  ∀ (s : State) (c : Nat) (e : Ent) (f : FX) (w : List Wr),
    let t := s.tplPlane e f.tpl.toNat false
    let k := f.bank.toNat
    let b := s.bankOf e k
    let wide := tplA t < 4
    let wd (q : Nat) : Nat := [2, 4, 7].getD (q - 8) 7
    let size (q : Nat) : Nat := [8, 4, 2, 2, 1, 1, 1].getD q 1
    let record (q tile : Nat) (v : W64) : TRec :=
      let d := descOf v
      TRec.ofBytes (wd q) ((List.range (recBytes (wd q))).map fun o => sliceByte s e (d.off + 32 * d.tp * tile + o))
    let at_ (q : Nat) (v : W64) (trn : Bool) (tile i j : Nat) : FVal :=
      let d := descOf v
      let r := if trn then j else i
      let l := if trn then i else j
      let x := ofLe ((List.range (size q)).map fun o => sliceByte s e (rotAddr d.rot (d.off + 32 * d.tp * tile + 32 * d.rp * r + size q * l + o) r))
      if 8 ≤ q then (record q tile v).val (wd q) r l
      else if q = 6 then .num (decide (128 ≤ x)) (BitVec.ofNat 8 x).toInt.natAbs 0
      else ([fmt64, fmt32, fmt16, fmtBf, fmtE4, fmtE5].getD q fmtE5).decode x
    let ps (n : Nat) : List FVal := (List.range (16 * tplKt t)).map fun q =>
      exactProduct (at_ (tplA t) e.a (bit t 16) (q / 16) (n / 16) (q % 16)) (at_ (tplB t) e.b (bit t 17) (q / 16) (q % 16) (n % 16))
    let start : Bank := if e.ins = .mmaz f then
        { elems := [], x := !wide, ovf := false, inexact := false
          anchor := if wide then 0 else
            BitVec.ofInt 16 (lowWeightOf (tplA t) (record (tplA t) 0 e.a).e + lowWeightOf (tplB t) (record (tplB t) 0 e.b).e + 40) }
      else b
    aloneMat s c e f → s.matStart e = .ok w → f.patch = none → e.task = none → e.ins = .mmaz f ∨ e.ins = .mma f →
    start.x = !wide ∧ matRuns s c fun u => u.ground = s.ground ∧
      let r := u.bankOf e k
      r.x = start.x ∧ r.anchor = start.anchor ∧
      (wide → raised128 start r fun n => sums128 (bank128 start n) (ps n)) ∧
      (¬wide →
        let unit : ℚ := (2 : ℚ) ^ (start.anchor.toInt - 40)
        let mark (n : Nat) : Prop := marked start n ∨ (∃ p ∈ ps n, p.isNan = true) ∨ (.inf false ∈ ps n ∧ .inf true ∈ ps n)
        ∃ v : Nat → Nat → Int,
          let sum (n : Nat) : Int := bankInt start n + ((List.range (16 * tplKt t)).map (v n)).sum
          let finite (n : Nat) : Prop := ¬mark n ∧ ∀ g, .inf g ∉ ps n
          (∀ n, n < 256 → finite n → ∀ q, q < 16 * tplKt t → roundsTo 0 (ratOf ((ps n).getD q (.nan false)) / unit) (v n q)) ∧
          (∀ n, n < 256 → (mark n → marked r n) ∧ (finite n → bankInt r n = held127 (sum n)) ∧
            (¬mark n → .inf false ∈ ps n → bankInt r n = 2 ^ 127 - 1) ∧ (¬mark n → .inf true ∈ ps n → bankInt r n = -(2 ^ 127 - 1))) ∧
          (r.ovf = true ↔ start.ovf = true ∨ ∃ n, n < 256 ∧ ¬mark n ∧ ((∃ g, .inf g ∈ ps n) ∨ 2 ^ 127 - 1 < |sum n|)) ∧
          (r.inexact = true ↔ start.inexact = true ∨
            ∃ n q, n < 256 ∧ q < 16 * tplKt t ∧ finite n ∧ (v n q : ℚ) ≠ ratOf ((ps n).getD q (.nan false)) / unit))

/-- R150, R151, R153, R154, R365, R367, R368: the products of MMA and MMAZ: of I8 operands as plain integers, and of every format. -/
def Obligations.IntegerMatrixProducts : Prop := integerMatrixProductsPart ∧ matrixProductsOfEveryFormat

/-- R156, R373, R374: MDRAIN to I32 of an ACC.X bank of anchor 40 writes every element, clamped, to its place, or with .t to the transposed
one; MSTACC writes the raw elements and gives the state word; MLDACC takes both back; the bank of a drain stays. -/
def banksMoveToAndFromTheSlicePart : Prop :=
  ∀ (s : State) (c : Nat) (e : Ent) (f : FX) (w : List Wr),
    let d := descOf e.a
    let g := tagOf e.slot e.gen
    let k := f.bank.toNat
    let b := s.bankOf e k
    let t := s.tplPlane e f.tpl.toNat false
    let place (size i j q : Nat) : Nat := rotAddr d.rot (d.off + 32 * d.rp * i + size * j + q) i
    let open_ (width : Nat) : Prop := (tileAddrs d 0 width).Nodup ∧ ∀ a ∈ tileAddrs d 0 width, s.allowedAt e.slot e.gen (.ground (sliceAt c 0)) a = true
    let stays (u : State) (width : Nat) : Prop := ∀ a, a ∉ (tileAddrs d 0 width).map (sliceAt c) → u.ground.byte false g a = s.ground.byte false g a
    aloneMat s c e f → s.matStart e = .ok w →
    (e.ins = .mdrain f → f.patch = none → tplO t = 7 → bits t 32 16 = 0 → b.x = true → b.anchor = 40 → open_ 32 →
      (∀ n, n < 256 → ¬marked b n) → matRuns s c fun u => stays u 32 ∧ u.bankOf e k = b ∧
        ∀ i j q, i < 16 → j < 16 → q < 4 → u.ground.byte false g (sliceAt c (place 4 i j q)) =
          (BitVec.ofInt 32 (max (-2 ^ 31) (min (2 ^ 31 - 1) (bankInt b (if f.m = 1 then 16 * j + i else 16 * i + j))))).extractLsb' (8 * q) 8) ∧
    (e.ins = .mstacc f → open_ 128 → matRuns s c fun u => stays u 128 ∧ u.bankOf e k = b ∧
      (∀ i j q, i < 16 → j < 16 → q < 16 → u.ground.byte false g (sliceAt c (place 16 i j q)) =
        (Tbl.get (0 : BitVec 128) b.elems (16 * i + j)).extractLsb' (8 * q) 8) ∧
      (f.sb ≠ 0 → (u.strand e.strand).s g f.sb.toNat = b.word)) ∧
    (e.ins = .mldacc f → e.task = none → matRuns s c fun u => u.ground = s.ground ∧
      let r := u.bankOf e k
      r.word = e.b ∧ ∀ i j q, i < 16 → j < 16 → q < 16 →
        (Tbl.get (0 : BitVec 128) r.elems (16 * i + j)).extractLsb' (8 * q) 8 = sliceByte s e (place 16 i j q))

/-- R374: MDRAINV to I32 of an ACC.X bank of anchor 40 writes four whole vector registers: element 16i + j of the tile, clamped, is element
(16i + j) mod 64 of register N + (16i + j) / 64, of the transposed position with .t. -/
def banksDrainToVectors : Prop :=
  ∀ (s : State) (c : Nat) (e : Ent) (f : FX) (w : List Wr),
    let b := s.bankOf e f.bank.toNat
    let t := s.tplPlane e f.tpl.toNat false
    aloneMat s c e f → s.matStart e = .ok w → e.ins = .mdrainv f → f.patch = none → tplO t = 7 → bits t 32 16 = 0 → b.x = true → b.anchor = 40 →
    (∀ n, n < 256 → ¬marked b n) → matRuns s c fun u => u.bankOf e f.bank.toNat = b ∧ u.ground = s.ground ∧
      ∀ n, n < 256 → elem 32 (u.vregOf e (e.a.toNat + n / 64)) (n % 64) =
        (BitVec.ofInt 32 (max (-2 ^ 31) (min (2 ^ 31 - 1) (bankInt b (if f.m = 1 then 16 * (n % 16) + n / 16 else n))))).toNat

/-- R156, R374: MDRAIN and MDRAINV of banks of both modes to every output format: each element's value times 2^DSCALE converted once by the
template's mode and saturation, at its place or the transposed one; FPC takes the flags of all; the bank stays. -/
def drainsOfEveryFormat : Prop :=
  ∀ (s : State) (c : Nat) (e : Ent) (f : FX) (w : List Wr),
    let d := descOf e.a
    let g := tagOf e.slot e.gen
    let b := s.bankOf e f.bank.toNat
    let t := s.tplPlane e f.tpl.toNat false
    let o := tplO t
    let wd := [64, 32, 16, 16, 8, 8, 8, 32].getD o 8
    let sat : Prop := 4 ≤ o ∧ bit t 15 = false
    let value (n : Nat) : FVal :=
      if b.x = false then fmt128.decode (bank128 b n)
      else if bank128 b n = 2 ^ 127 then .nan false
      else .num (decide (bankInt b n < 0)) (bankInt b n).natAbs (b.anchor.toInt - 40)
    let from_ (n : Nat) : FVal := timesTwo (value (if f.m = 1 then 16 * (n % 16) + n / 16 else n)) (BitVec.ofNat 16 (bits t 32 16)).toInt
    let gives (n : Nat) (r : Nat × Nat) : Prop :=
      if 6 ≤ o then convertsInt wd true (tplOrm t) (from_ n) r
      else convertsFloat ([fmt64, fmt32, fmt16, fmtBf, fmtE4, fmtE5].getD o fmtE5) (tplOrm t) sat (from_ n) r
    let raised (u : State) (r : Nat → Nat × Nat) : Prop := (u.strand e.strand).ctlReg g nFPC =
      fpcRaise ((s.strand e.strand).ctlReg g nFPC) ((List.range 256).foldl (fun a n => a ||| (r n).2) 0)
    aloneMat s c e f → s.matStart e = .ok w → f.patch = none →
    (e.ins = .mdrain f → (tileAddrs d 0 wd).Nodup → (∀ a ∈ tileAddrs d 0 wd, s.allowedAt e.slot e.gen (.ground (sliceAt c 0)) a = true) →
      ∃ r, (∀ n, n < 256 → gives n (r n)) ∧ matRuns s c fun u => u.bankOf e f.bank.toNat = b ∧ raised u r ∧
        (∀ a, a ∉ (tileAddrs d 0 wd).map (sliceAt c) → u.ground.byte false g a = s.ground.byte false g a) ∧
        ∀ i j q, i < 16 → j < 16 → q < wd / 8 →
          u.ground.byte false g (sliceAt c (rotAddr d.rot (d.off + 32 * d.rp * i + wd / 8 * j + q) i)) = BitVec.ofNat 8 ((r (16 * i + j)).1 / 2 ^ (8 * q))) ∧
    (e.ins = .mdrainv f → ∃ r, (∀ n, n < 256 → gives n (r n)) ∧ matRuns s c fun u => u.bankOf e f.bank.toNat = b ∧ raised u r ∧
      u.ground = s.ground ∧ ∀ n, n < 256 → elem wd (u.vregOf e (e.a.toNat + n * wd / 2048)) (n % (2048 / wd)) = (r n).1 % 2 ^ wd)

/-- R375 to R378: MTPL.LD fills a standby plane, MTPL.SWAP exchanges planes, MTPL.RD returns a dword, MTPL.DIFF applies a difference whose
check holds and otherwise changes nothing and says TEMPLATE_CHECK. -/
def Obligations.TemplatePlanes : Prop :=
  ∀ (s : State) (c : Nat) (e : Ent) (f : FX) (w : List Wr),
    let n := f.tpl.toNat
    let g := tagOf e.slot e.gen
    let o := e.a.toNat
    let plane (x : State) (k : Nat) (sb : Bool) : Nat := x.tplPlane e k sb
    let bytes (a l : Nat) : Nat := ofLe (s.sliceBytes e ((List.range l).map (o + a + ·)))
    let rest (u : State) : Prop := u.ground = s.ground ∧ ∀ k b, k ≠ n → plane u k b = plane s k b
    aloneMat s c e f → s.matStart e = .ok w →
    (e.ins = .mtplLd f → matRuns s c fun u => rest u ∧ plane u n true = bytes 0 32 ∧ plane u n false = plane s n false) ∧
    (e.ins = .mtplSwap f → f.m = 0 → matRuns s c fun u => rest u ∧ plane u n true = plane s n false ∧ plane u n false = plane s n true) ∧
    (e.ins = .mtplSwap f → f.m = 1 → matRuns s c fun u => u.ground = s.ground ∧ ∀ k, s.tplOk e.strand k = true →
      plane u k true = plane s k false ∧ plane u k false = plane s k true) ∧
    (e.ins = .mtplRd f → matRuns s c fun u => rest u ∧ (∀ b, plane u n b = plane s n b) ∧
      (f.sb ≠ 0 → ((u.strand e.strand).s g f.sb.toNat).toNat = plane s n (decide (4 ≤ o)) / 2 ^ (64 * (o % 4)) % 2 ^ 64)) ∧
    (e.ins = .mtplDiff f →
      let v := plane s n false ^^^ bytes 0 32
      let good := bytes 32 4 = crc32c (leBytes 32 v) ∧ bytes 36 28 = 0
      matRuns s c fun u => rest u ∧ plane u n false = plane s n false ∧
        (good → plane u n true = v ∧ (f.sb ≠ 0 → (u.strand e.strand).s g f.sb.toNat = 0)) ∧
        (¬good → plane u n true = plane s n true ∧ (f.sb ≠ 0 → (u.strand e.strand).s g f.sb.toNat = 0x19)))

/-- The record at descriptor `d` as the entry reads it, of the magnitude width that its FMT byte gives. -/
def recordAt (s : State) (e : Ent) (d : Desc) (wd : Nat) (r : TRec) : Prop :=
  sxW (sliceByte s e d.off).toNat = some wd ∧ r = TRec.ofBytes wd (s.sliceBytes e ((List.range (recBytes wd)).map (d.off + ·)))

/-- R379 to R386: the tile instructions, started and completed. TTRN of a plain tile writes element (j, i) of the source at position (i, j); TQUANT
writes the bytes of the record that R149 makes of the source's 256 values, TDEQ the converted values of a record, TTRN.rec the record
transposed, TCOMP its own record rescaled by 2^d, TPACK the packed tile, with LEN and COUNT in SA, TUNPK the record that a packed tile expands to; each the flags of its
operation, and no other byte of the slice. TCHK writes its status word alone: the FMT byte, and TILE_MALFORMED with the subcode of the check that fails. -/
def tileInstructionsPart : Prop :=
  ∀ (s : State) (c : Nat) (e : Ent) (f : FX) (w : List Wr),
    let x := descOf e.a
    let y := descOf e.b
    let g := tagOf e.slot e.gen
    let m := f.m.toNat
    let size := 2 ^ (m - 1)
    let from_ (size i j q : Nat) : Nat := rotAddr x.rot (x.off + 32 * x.rp * i + size * j + q) i
    let to_ (size i j q : Nat) : Nat := rotAddr y.rot (y.off + 32 * y.rp * i + size * j + q) i
    let may (l : List Nat) : Prop := l.Nodup ∧ ∀ a ∈ l, s.allowedAt e.slot e.gen (.ground (sliceAt c 0)) a = true
    let span (o n : Nat) : List Nat := (List.range n).map (o + ·)
    let stays (u : State) (l : List Nat) : Prop := ∀ a, a ∉ l.map (sliceAt c) → u.ground.byte false g a = s.ground.byte false g a
    let holds (u : State) (o : Nat) (l : List Byte) : Prop :=
      (∀ k, k < l.length → u.ground.byte false g (sliceAt c (o + k)) = l.getD k 0) ∧ stays u (span o l.length)
    let raised (u : State) (n : Nat) : Prop := (u.strand e.strand).ctlReg g nFPC = fpcRaise ((s.strand e.strand).ctlReg g nFPC) n
    let scalar (u : State) (k v : Nat) : Prop := k ≠ 0 → (u.strand e.strand).s g k = BitVec.ofNat 64 v
    aloneMat s c e f → s.matStart e = .ok w → e.task = none →
    (e.ins = .ttrn f → m ≠ 0 → m ≤ 4 → may (tileAddrs y 0 (8 * size)) →
      matRuns s c fun u => stays u (tileAddrs y 0 (8 * size)) ∧ ∀ i j q, i < 16 → j < 16 → q < size →
        u.ground.byte false g (sliceAt c (to_ size i j q)) = sliceByte s e (from_ size j i q)) ∧
    (e.ins = .tquant f → m ≤ 2 →
      let wd := [2, 4, 7].getD m 2
      let r := quantize wd ((List.range 256).map fun n => fmt32.decode (ofLe ((List.range 4).map fun q => sliceByte s e (from_ 4 (n / 16) (n % 16) q))))
      may (span y.off (recBytes wd)) → matRuns s c fun u => holds u y.off (r.1.toBytes wd) ∧ raised u r.2) ∧
    (∀ wd r, recordAt s e x wd r →
      (e.ins = .tdeq f → m ≤ 2 →
        let o := [fmt32, fmt16, fmtBf].getD m fmt32
        let b := o.width / 8
        let v (i j : Nat) : Nat × Nat := o.convert e.rm false (r.val wd i j)
        may (tileAddrs y 0 (8 * b)) → matRuns s c fun u => stays u (tileAddrs y 0 (8 * b)) ∧
          (∀ i j q, i < 16 → j < 16 → q < b → u.ground.byte false g (sliceAt c (to_ b i j q)) = BitVec.ofNat 8 ((v i j).1 / 2 ^ (8 * q))) ∧
          raised u ((List.range 256).foldl (fun a n => a ||| (v (n / 16) (n % 16)).2) 0)) ∧
      (e.ins = .ttrn f → m = 0 → may (span y.off (recBytes wd)) → matRuns s c fun u => holds u y.off ((r.transpose wd).toBytes wd)) ∧
      (e.ins = .tcomp f → may (span x.off (recBytes wd)) → matRuns s c fun u =>
        holds u x.off ((rescale wd r e.b.toInt).1.toBytes wd) ∧ raised u (rescale wd r e.b.toInt).2) ∧
      (e.ins = .tpack f →
        let p := packRec wd r
        may (span y.off p.1.length) → matRuns s c fun u => holds u y.off p.1 ∧ scalar u f.sa.toNat (p.1.length / 32 + p.2 * 16)) ∧
      (e.ins = .tchk f → m % 2 = 0 →
        let sub := if badFormat r.fmt (modFmt (m / 2)) = true then 2 else r.bad wd
        matRuns s c fun u => u.ground = s.ground ∧ (u.core c).banks = (s.core c).banks ∧
          scalar u f.sb.toNat ((if sub = 0 then 0 else 0x18) + sub * 2 ^ 8 + r.fmt * 2 ^ 16))) ∧
    (let h := s.sliceBytes e (span x.off 48)
     let fmt := (sliceByte s e x.off).toNat
     let wd := (sxW fmt).getD 2
     let p := s.sliceBytes e (span x.off (32 * packedLen wd (packedCount h)))
     (e.ins = .tunpk f → may (span y.off (recBytes wd)) → matRuns s c fun u => holds u y.off ((expandPacked wd p).toBytes wd)) ∧
     (e.ins = .tchk f → m % 2 = 1 →
       let sub := if packedBad1 (modFmt (m / 2)) h ≠ 0 then packedBad1 (modFmt (m / 2)) h else packedBad2 wd p
       matRuns s c fun u => u.ground = s.ground ∧ (u.core c).banks = (s.core c).banks ∧
         scalar u f.sb.toNat ((if sub = 0 then 0 else 0x18) + sub * 2 ^ 8 + fmt * 2 ^ 16)) ∧
     (e.ins = .tchk f → m % 2 = 0 → sxW fmt = none → matRuns s c fun u => u.ground = s.ground ∧
       scalar u f.sb.toNat (0x18 + 2 * 2 ^ 8 + fmt * 2 ^ 16)))

/-- A record of magnitude width `w` as its bytes hold it. -/
def recordOf (w : Nat) (r : TRec) : Prop :=
  r.fmt = sxCode w ∧ r.e < 256 ∧ r.rowx < 2 ^ 32 ∧ r.colx < 2 ^ 32 ∧ r.crc < 2 ^ 16 ∧ r.z1 = 0 ∧ r.z2 = 0 ∧ r.pay < 2 ^ (8 * payBytes w)

/-- R140 to R148, R382, R383: a good record's bytes read back as it; its packed tile passes every check, has its LEN and expands to the same
256 values; its transpose is good and has them transposed, a second transpose the record's own; and a rescaling that its exponent can
hold multiplies every value by 2^d. -/
def Obligations.TileRecords : Prop :=
  ∀ (w : Nat) (r : TRec), w ∈ [2, 4, 7] → recordOf w r → r.bad w = 0 →
    let p := packRec w r
    TRec.ofBytes w (r.toBytes w) = r ∧
    p.1.length = 32 * packedLen w p.2 ∧ packedBad1 r.fmt (p.1.take 48) = 0 ∧ packedBad2 w p.1 = 0 ∧
    (∀ i j, i < 16 → j < 16 → (expandPacked w p.1).val w i j = r.val w i j) ∧
    (r.transpose w).bad w = 0 ∧ (∀ i j, i < 16 → j < 16 → (r.transpose w).val w i j = r.val w j i) ∧ (r.transpose w).transpose w = r ∧
    ∀ d : Int, r.e ≠ 0 → r.e ≠ 255 → 1 ≤ r.e + d → r.e + d ≤ 254 → (rescale w r d).2 = 0 ∧ ∀ i j, i < 16 → j < 16 →
      ratOf ((rescale w r d).1.val w i j) = ratOf (r.val w i j) * 2 ^ d

/-- R357, R358, R360, R366: the issue, wait, start, completion and post of the matrix and tile instructions. -/
def Obligations.MatrixInstructionsAndTheirQueue : Prop := matrixInstructionsIssue ∧ matrixQueueLife

/-- R156, R373, R374: MDRAIN, MDRAINV, MSTACC and MLDACC. -/
def Obligations.BanksMoveToAndFromTheSlice : Prop := banksMoveToAndFromTheSlicePart ∧ banksDrainToVectors ∧ drainsOfEveryFormat

/-- R149: the exponent of a value: of a finite one the largest power of two that its magnitude reaches, of an infinity 128. -/
def isExpo (x : FVal) (k : Int) : Prop :=
  match x with
  | .num _ _ _ => (2 : ℚ) ^ k ≤ |ratOf x| ∧ |ratOf x| < (2 : ℚ) ^ (k + 1)
  | .inf _ => k = 128
  | .nan _ => False
/-- R149: `p` is the largest of some numbers, limited to 0..3, and 0 where there is none. -/
def limited (p : Nat) (has : Int → Prop) : Prop := p ≤ 3 ∧ (∀ k, has k → k ≤ p ∨ p = 3) ∧ (p = 0 ∨ ∃ k, has k ∧ (p : Int) ≤ k)

/-- R149, R380: the quantizer: the tile's exponent, the rows' micro-exponents and then the columns', each element's magnitude rounded to
nearest even and held to w bits, the CRC, and NX for what changed; a NaN makes E 255 with NV, and a tile of zeros E 0. -/
def quantizerValues : Prop :=
  ∀ (w : Nat) (xs : List FVal), w ∈ [2, 4, 7] → xs.length = 256 →
    let x (n : Nat) : FVal := xs.getD n (.nan false)
    let r := (quantize w xs).1
    let fl := (quantize w xs).2
    let bare : Prop := r.rowx = 0 ∧ r.colx = 0 ∧ r.pay = 0
    (w, r.fmt) ∈ [(2, 0x31), (4, 0x35), (7, 0x38)] ∧ r.bad w = 0 ∧
    ((∃ v ∈ xs, v.isNan = true) → r.e = 255 ∧ bare ∧ fl = 1) ∧
    ((∀ v ∈ xs, v.isZero = true) → r.e = 0 ∧ bare ∧ fl = 0) ∧
    ((∀ v ∈ xs, v.isNan = false) → ∀ emax, (∃ v ∈ xs, isExpo v emax) → (∀ v ∈ xs, ∀ k, isExpo v k → k ≤ emax) → emax ≤ 128 →
      let b := max (emax - 6) (-126)
      let rho (i : Nat) : Nat := r.rowx / 4 ^ i % 4
      let kappa (j : Nat) : Nat := r.colx / 4 ^ j % 4
      let q (n : Nat) : Int := b - (w - 1) + rho (n / 16) + kappa (n % 16)
      let m (n : Nat) : Nat := r.field w n % 2 ^ w
      let minus (n : Nat) : Nat := r.field w n / 2 ^ w
      (r.e : Int) = b + 127 ∧
      (∀ i, i < 16 → limited (rho i) fun k => ∃ j, j < 16 ∧ isExpo (x (16 * i + j)) (k + b)) ∧
      (∀ j, j < 16 → limited (kappa j) fun k => ∃ i, i < 16 ∧ isExpo (x (16 * i + j)) (k + rho i + b)) ∧
      (∀ n, n < 256 →
        (∀ g, x n = .inf g → m n = 2 ^ w - 1 ∧ minus n = if g then 1 else 0) ∧
        (∀ g i p, x n = .num g i p → (∃ k : Int, roundsTo 0 (|ratOf (x n)| / (2 : ℚ) ^ q n) k ∧ (m n : Int) = min k (2 ^ w - 1)) ∧
          minus n = if ratOf (x n) < 0 ∧ 0 < m n then 1 else 0)) ∧
      (fl = 0 ∨ fl = 16) ∧ (fl = 16 ↔ ∃ n, n < 256 ∧ ((∃ g, x n = .inf g) ∨ (m n : ℚ) * (2 : ℚ) ^ q n ≠ |ratOf (x n)|)))

/-- R149, R379 to R386: the tile instructions, and what TQUANT's record holds. -/
def Obligations.TileInstructionsRun : Prop := tileInstructionsPart ∧ quantizerValues
/-! ### Copies and publishes (R168 to R173, R246, R292, R392 to R408) -/

/-- R292, R392, R427: a copy command enters its core's queue of 64, unaccepted, with the eight words that its registers hold; without a wait peg, or when its peg has a token to take, PC moves
past it; while its peg has none its strand stalls; RAW outside slot 0 traps PRIVILEGE, a command in an ordered task SPEC_ILLEGAL, a
peg that the group does not hold ILLEGAL_OPERAND; a full queue holds it back. Nothing is read and no byte moves yet. -/
def Obligations.CopyCommandsIssue : Prop :=
  ∀ (s : State) (i : Instr) (op : Nat) (f : FC),
    let n := s.cur
    let c := coreOf n
    let g := s.tagOfStrand n
    let ix := f.wait.toNat
    let p := (s.core c).peg g ix
    let q := (s.core c).cmdSeq
    let legal := f.raw = 0 ∨ s.slotOf n = 0
    let entered (t : State) (tok : Bool) : Prop :=
      (∃ k, (t.core c).cq = (s.core c).cq ++ [k] ∧ k.seq = q ∧ k.ins = i ∧ k.strand = n ∧ k.slot = s.slotOf n ∧ k.gen = s.genOf n ∧
        (∀ j, j < 8 → k.c j = ((s.strand n).s g (f.spec.toNat + j)).toNat) ∧ k.tok = tok ∧ k.lat = 0 ∧ k.accepted = false ∧ k.node = none) ∧
      t.hbm = s.hbm ∧ t.ground = s.ground ∧ t.host = s.host ∧ t.flight = s.flight ∧ t.groups = s.groups ∧
      (∀ j, (t.strand n).s g j = (s.strand n).s g j) ∧ ∀ m, m ≠ n → t.strand m = s.strand m
    i.form = .c op f → s.ready f.pr ((List.range 8).map (f.spec.toNat + ·)) [] = true →
    (legal → s.inTask n = false → (s.core c).cq.length < 64 →
      (ix = 0xFF → ∃ t, exec i s = .next t ∧ entered t true ∧ (t.strand n).getPc g = pastIt s i) ∧
      (ix ≠ 0xFF → s.pegOk n ix = true → s.objPoison n false ix = false → p.latch = 0 → (∀ k ∈ (s.core c).cq, k.seq ≠ q) →
        ∃ t, exec i s = .next t ∧
          (p.taken.toNat < p.posted.toNat → entered t true ∧ (t.core c).peg g ix = { p with taken := p.taken + 1 } ∧
            (t.strand n).getPc g = s.getPc n + 8 ∧ (t.strand n).stall = 0) ∧
          (p.posted.toNat ≤ p.taken.toNat → entered t false ∧ (t.core c).peg g ix = p ∧ (t.strand n).getPc g = s.getPc n ∧ (t.strand n).stall = 4))) ∧
    (¬legal → exec i s = .next (s.trapNow n i ⟨cPrivilege, 0, 0⟩)) ∧
    (legal → s.inTask n = true → exec i s = .next (s.trapNow n i ⟨cSpecIllegal, 0, 0⟩)) ∧
    (legal → s.inTask n = false → ix ≠ 0xFF → s.pegOk n ix = false → exec i s = .next (s.trapNow n i ⟨cOperand, 0, 0⟩)) ∧
    (legal → s.inTask n = false → ix = 0xFF → 64 ≤ (s.core c).cq.length → exec i s = .next (s.block n))

/-- R292, R316, R393: the acceptance of the first command whose wait is over and that no QPT before it holds: its eight words stay, and it
ends at once with the code of its first failing check; a latched peg drops it and traps its strand. -/
def copyIsAccepted : Prop :=
  ∀ (s : State) (c : Nat) (k : Copy),
    let q := s.capture c k
    (s.core c).cq.find? (fun k => !k.accepted && k.tok && !k.hold) = some k → k.poison = false → k.node = none → q.op ≠ 0xB2 →
    (k.lat = 0 → ∃ t k', exec (.copyAccept c) s = .next t ∧ t.copyOf c k.seq = some k' ∧ k'.accepted = true ∧ k'.open_ = k.open_ ∧ k'.next = k.next ∧
      t.hbm = s.hbm ∧ t.ground = s.ground ∧ t.flight = s.flight ∧
      (∀ j, k'.c j = k.c j) ∧
      (∀ e, s.copyCheck c q = .error e → k'.ended = true ∧ k'.code = e.code) ∧
      (s.copyCheck c q = .ok () → k'.ended = k.ended ∧ k'.code = k.code ∧ k'.boxes = q.boxCount)) ∧
    (k.lat ≠ 0 → ∃ u : State, (∀ j ∈ (u.core c).cq, j.seq ≠ k.seq) ∧ (u.strand k.strand).stall = 0 ∧
      exec (.copyAccept c) s = .next (u.trap k.strand k.lat 0 0 k.pc ((encodeWord k.ins).getD 0)))

/-- A command whose pieces or elements are written where they are read: neither RAW nor rotated. -/
def plainCopy (k : Copy) : Prop := k.op ∈ [0xA8, 0xA9, 0xAA, 0xAB, 0xAC, 0xAD, 0xB0, 0xB2] ∧ k.raw = 0 ∧ k.rot = 0

/-- R400, R401, R404 to R406: source, destination and bytes of item `e` of a command: a piece of a row (R396), an element with its index
word, or of a tile what is read first: its directory entry, its format or its record. -/
def copyItem (s : State) (c : Nat) (k : Copy) (e : Nat) : Nat × Nat × Nat :=
  let ix := ofLe (s.bytesOf k.slot k.gen (.ground (sliceAt c (k.c 4 + e * k.iw))) k.iw)
  let w : Nat := if k.fmt = 0x31 then 2 else if k.fmt = 0x35 then 4 else 7
  if k.op = 0xA9 then ((k.c 0 + ix) % 2 ^ 64, (k.c 1 + e * k.es) % 2 ^ 64, k.es)
  else if k.op = 0xAA then ((k.c 0 + e * k.es) % 2 ^ 64, (k.c 1 + ix) % 2 ^ 64, k.es)
  else if k.op = 0xAB then ((k.c 0 + e * k.es) % 2 ^ 64, (k.c 1 + e * k.es) % 2 ^ 64, k.es)
  else if k.dirMode then ((k.c 0 + 8 * e) % 2 ^ 64, 0, 8)
  else if k.tile then ((k.c 0 + e * k.c 4) % 2 ^ 64, 0, if k.fmt = 0 then 1 else 32 * (w + 1) + 32)
  else ((k.piece e).src, (k.piece e).dst, (k.piece e).n)

/-- R14, R16, R17, R75, R396: where `n` bytes at `ea` of a side of a command lie, in LOCAL, GROUND, HEAP and TWIN; none where the checks stop them. -/
def sidePlace (s : State) (c : Nat) (k : Copy) (wr : Bool) (spc ea n : Nat) : Option Place :=
  let p := s.spadOfCopy k
  let h := s.heapTriple c k.slot
  let e := s.twin (dieOfCore c) k.slot (bits (k.c 0) 32 10) (tagOf k.slot k.gen)
  match spc with
  | 0 => if ea < 2 ^ 21 ∧ p.1 ≤ ea ∧ ea + n ≤ p.1 + p.2 then some (.ground (c * Config.sliceBytes + ea)) else none
  | 1 => if s.spaceBad c k.slot 1 ea then none else (groundFlat ea n).map fun x => .ground x.2
  | 2 => if ea + n ≤ h.2.1 then some (.hbm (h.2.2 + ea)) else none
  | 4 =>
    let at_ (hd len : Nat) (q : Place) : Option Place := if ea < 2 ^ 42 ∧ ea / 2 ^ 32 = hd ∧ ea % 2 ^ 32 + n ≤ len then some (q.off (ea % 2 ^ 32)) else none
    if wr then match k.twinDst with
      | some (_, q, len) => at_ (bits (k.c 1) 32 10) len q
      | none => none
    else if e.loc = 1 then at_ (bits (k.c 0) 32 10) e.len (.hbm e.vis)
    else if e.loc = 2 then (groundFlat e.vis 1).bind fun x => at_ (bits (k.c 0) 32 10) e.len (.ground x.2)
    else none
  | _ => none

/-- R246, R396 to R406: the next box of a command starts with one access for each of its up to 64 pieces or elements, or for its tile, from
its source's place to its destination's; a fill carries its pattern, a multicast names its group's devices, and of a tile nothing is
written yet; a command ordered before it (R168) or a paused core holds it. -/
def boxStarts : Prop :=
  ∀ (s : State) (c : Nat) (k : Copy) (src dst : Nat → Place),
    let b := k.next
    let at_ (j : Nat) : Nat × Nat × Nat := copyItem s c k (if k.tile then b else 64 * b + j)
    let n := if k.tile then 1 else min 64 ((if k.linear then k.pieces else k.num) - 64 * b)
    let ixs : Place := .ground (c * Config.sliceBytes + (k.c 4 + 64 * b * k.iw))
    let t0 := tagOf k.slot k.gen
    let hd := bits (k.c 0) 32 10
    s.copyOf c k.seq = some k → plainCopy k ∨ (k.tile = true ∧ (k.fmt ∈ [0x31, 0x35, 0x38] ∨ (k.fmt = 0 ∧ k.dirMode = false)) ∧ k.raw = 0) →
    k.open_ = [] → k.poison = false →
    (s.mayStart c k = true →
      (k.op = 0xA9 ∨ k.op = 0xAA → s.commitsAt ixs (n * k.iw) = [] ∧ s.poisonAt k.slot k.gen ixs (n * k.iw) = false ∧
        ∀ j, j < n → (at_ j).1 % k.es = 0 ∧ (at_ j).2.1 % k.es = 0) →
      (k.ssp = 4 → k.op ≠ 0xB0 → k.op ≠ 0xB2 ∧ (s.die (dieOfCore c)).holds.contains (k.slot * 1024 + hd) = false ∧ s.twinBad (dieOfCore c) k.slot hd t0 = false) →
      (∀ j, j < n → (k.op ≠ 0xB0 → sidePlace s c k false k.ssp (at_ j).1 (at_ j).2.2 = some (src j)) ∧
        (k.cast = false → k.tile = false → sidePlace s c k true k.dsp (at_ j).2.1 (at_ j).2.2 = some (dst j)) ∧
        s.flying (c, k.seq, b, j) = false ∧ s.translating (c, k.seq, b, j) k.slot = false ∧ s.onRecord (c, k.seq, b, j) = false) →
      ∃ t l, exec (.copyBoxStart c k.seq) s = .next t ∧ t.flight = s.flight ++ l ∧ l.length = n ∧ t.hbm = s.hbm ∧ t.ground = s.ground ∧
        (∃ k', t.copyOf c k.seq = some k' ∧ k'.next = b + 1 ∧ k'.open_.map (·.num) = [b]) ∧
        ∀ j (hj : j < l.length), l[j].why = .piece c k.seq b j ∧ l[j].slot = k.slot ∧ l[j].gen = k.gen ∧ l[j].n = (at_ j).2.2 ∧
          l[j].rsegs = (if k.op = 0xB0 then [] else [(src j, (at_ j).2.2)]) ∧
          l[j].wsegs = (if k.tile then [] else if k.cast then k.dests.map fun d => (.peer d (at_ j).2.1, (at_ j).2.2) else [(dst j, (at_ j).2.2)]) ∧
          l[j].data = (if k.op = 0xB0 then (List.range (at_ j).2.2).map fun i => BitVec.ofNat 8 (k.c 4 / 256 ^ (((at_ j).1 + i) % 8)) else [])) ∧
    (s.mayStart c k = false → exec (.copyBoxStart c k.seq) s = .next s)

/-- R61: the arrival at which a copy access of core `c` reaches a place of this package. -/
def comesTo (c id : Nat) (x : Place) : Instr := if x.remoteOf c then .groundRemoteArrival id else .memoryAccessArrival id
/-- A place of this package that the copies of a command may reach now. -/
def openPlace (s : State) (c : Nat) (k : Copy) (n : Nat) (x : Place) : Prop :=
  x.ours = true ∧ s.placeFrozen x = false ∧ s.remoteOk k.slot c x = true ∧ s.commitsAt x n = []
/-- R114, R115: of the places in memory only a written one has changed: it gives the command's tenancy bytes `d`. -/
def placeWritten (s u : State) (g : Tag) (y : Place) (d : List Byte) : Prop :=
  (∀ i, i < d.length → u.byteAt g y i = d.getD i 0) ∧
  (∀ m, y = .hbm m → u.ground = s.ground ∧ ∀ z, z < m ∨ m + d.length ≤ z →
    (∀ i, i < d.length → (m + i) / 64 ≠ z / 64) ∨ (∀ i, i < d.length → s.holders none ((m + i) / 64 * 64) = []) → u.hbm.byte false g z = s.hbm.byte false g z) ∧
  (∀ m, y = .ground m → u.hbm = s.hbm ∧ ∀ z, z < m ∨ m + d.length ≤ z → u.ground.byte false g z = s.ground.byte false g z)

/-- R61, R65 to R67, R79, R114, R115, R164, R401: an access of a box between memories of this package is made in two arrivals: the bytes that
the core finds at the source then stand at the destination, and every byte of another granule reads as before, and so does every other
byte where no bay held the destination's granules; one that carries its bytes, a fill's or a tile's, takes one. CPY.R leaves at
the destination the element that it found there, combined with the source's. -/
def copyBytesMove : Prop :=
  ∀ (s : State) (a : Acc) (k : Copy) (b : Box) (p : Piece) (c j : Nat) (x y : Place),
    let g := tagOf k.slot k.gen
    let red := k.op = 0xAB ∧ p.op ≠ 2
    let ty := bits (k.c 2) 24 4
    s.accOf a.id = some a → a.why = .piece c k.seq b.num j → s.pieceOf (c, k.seq, b.num, j) = some (k, b, p) → a.task = none → a.slot = k.slot → a.gen = k.gen →
    k.raw = 0 → k.cast = false → a.code = 0 → a.done = false → s.pkg.peers.any (·.acc == some a.id) = false →
    a.wsegs = [(y, a.n)] → openPlace s c k a.n y → k.writeWaits (c, k.seq, b.num, j) p = false → (s.ctxOf k.slot).dirtyEn = false →
    (∀ i, i < a.n → s.coreOk c k.slot k.gen a.wunc true y i = true) →
    (¬red → a.rsegs = [] → a.data.length = a.n → (k.op = 0xAF → s.halfRead (y.grans a.n) = []) →
      ∃ u, exec (comesTo c a.id y) s = .next u ∧ u.accOf a.id = none ∧ placeWritten s u g y a.data) ∧
    (a.rsegs = [(x, a.n)] → a.data = [] → k.tile = false → openPlace s c k a.n x → s.coreBad c k.slot k.gen a.runc x a.n = false → (∀ h ∈ k.halves, h.old = none) →
      ∃ t u, exec (comesTo c a.id x) s = .next t ∧ t.hbm = s.hbm ∧ t.ground = s.ground ∧ exec (comesTo c a.id y) t = .next u ∧
        (¬red → u.accOf a.id = none ∧ placeWritten s u g y (s.coreBytes c k.slot k.gen a.runc x a.n)) ∧
        (red → s.redWaits a = false → a.n = tyBytes ty → t.coreBad c k.slot k.gen a.wunc y a.n = false →
          let old := ofLe (t.coreBytes c k.slot k.gen a.wunc y a.n)
          let new := ofLe (s.coreBytes c k.slot k.gen a.runc x a.n)
          u.accOf a.id = none ∧ placeWritten t u g y (leBytes a.n (match k.km % 8 with
            | 0 => if ty < 8 then (old + new) % 2 ^ (8 * a.n) else (vaddE ty 0 false old new).1
            | 1 => if ty < 8 then (if laneInt ty new < laneInt ty old then new else old) else (vminE ty old new).1
            | 2 => if ty < 8 then (if laneInt ty old < laneInt ty new then new else old) else (vmaxE ty old new).1
            | 3 => old &&& new
            | 4 => old ||| new
            | _ => old ^^^ new))))

/-- R144, R147, R148, R404, R405: CPY.T and CPY.TS of plain records of their format: a record that the box has read and that passes its
checks is to be written whole at its place, transposed where TRN says so; one that fails is not written, and its subcode and its
number are kept. The box's write then leaves with its bytes. -/
def tilesMove : Prop :=
  ∀ (s : State) (k : Copy) (b : Box) (p : Piece) (c w : Nat),
    let dst := (k.c 1 + b.num * k.c 5) % 2 ^ 64
    let n := 32 * (w + 1) + 32
    (w, k.fmt) ∈ [(2, 0x31), (4, 0x35), (7, 0x38)] → (k.op = 0xAE ∧ k.km ∈ [0, 2]) ∨ k.op = 0xAF → k.raw = 0 → s.copyOf c k.seq = some k →
    (∀ (a : Acc) (x : Place), s.accOf a.id = some a → a.why = .piece c k.seq b.num 0 → s.pieceOf (c, k.seq, b.num, 0) = some (k, b, p) → a.slot = k.slot → a.gen = k.gen →
      a.code = 0 → a.done = false → s.pkg.peers.any (·.acc == some a.id) = false → a.n = n → a.rsegs = [(x, n)] → a.wsegs = [] → a.data = [] → p.op = 1 → b.pieces = [p] →
      b.doneMask = 0 → openPlace s c k n x → s.coreBad c k.slot k.gen a.runc x n = false → (∀ h ∈ k.halves, h.old = none) →
      let d := s.coreBytes c k.slot k.gen a.runc x n
      let r := TRec.ofBytes w d
      let turned := bit k.km 1 = true ∧ k.op = 0xAE
      ∃ t, exec (comesTo c a.id x) s = .next t ∧ t.accOf a.id = none ∧ t.hbm = s.hbm ∧ t.ground = s.ground ∧
        (r.fmt = k.fmt → r.bad w = 0 → ∃ k' b', t.copyOf c k.seq = some k' ∧ k'.box b.num = some b' ∧ b'.doneMask = 1 ∧ b'.pieces = [p, ⟨0, dst, n, 2⟩] ∧ k'.tileBad = k.tileBad ∧
          (¬turned → b'.buf = d) ∧
          (turned → let q := TRec.ofBytes w b'.buf
            q.fmt = r.fmt ∧ q.e = r.e ∧ q.rowx = r.colx ∧ q.colx = r.rowx ∧ q.bad w = 0 ∧ ∀ i m, i < 16 → m < 16 → q.field w (16 * i + m) = r.field w (16 * m + i))) ∧
        (r.fmt ≠ k.fmt ∨ r.bad w ≠ 0 → ∃ k', t.copyOf c k.seq = some k' ∧ k'.box b.num = none ∧ k'.ended = k.ended ∧
          (k.tileBad = none → k'.tileBad = some b.num ∧ k'.tilePoison = false ∧ k'.sub = if r.fmt ≠ k.fmt then 2 else r.bad w))) ∧
    (∀ y : Place, k.accepted = true → k.poison = false → s.copyFree c k = true → k.open_ = [b] → b.pieces = [p, ⟨0, dst, n, 2⟩] → b.doneMask = 1 → b.buf.length = n →
      sidePlace s c k true k.dsp dst n = some y → y.ours = true →
      s.flying (c, k.seq, b.num, 1) = false → s.translating (c, k.seq, b.num, 1) k.slot = false → s.onRecord (c, k.seq, b.num, 1) = false →
      ∃ t a, exec (.copyBoxStart c k.seq) s = .next t ∧ a ∈ t.flight ∧ a.why = .piece c k.seq b.num 1 ∧ a.rsegs = [] ∧ a.wsegs = [(y, n)] ∧ a.data = b.buf ∧ a.slot = k.slot ∧ a.gen = k.gen)

/-- R168, R394, R395, R411, R415: a command that is over, with nothing it wrote still dirty in a bay or on its way to a peer, leaves its queue; its peg's latch takes a failing status and its count the command's
increment; the status record, where asked for, is in the scratchpad. -/
def copyCompletes : Prop :=
  ∀ (s : State) (c : Nat) (k : Copy) (op : Nat) (f : FC),
    let g := tagOf k.slot k.gen
    let ix := f.post.toNat
    let p := (s.core c).peg g ix
    let st := k.status
    s.copyOf c k.seq = some k → k.accepted = true → k.open_ = [] → s.unbacked k = [] → s.backing k = false → k.ended = true ∨ (k.boxes ≤ k.next ∧ (k.op = 0xB2 → k.bound = true)) →
    ((s.core c).cq.takeWhile (·.seq != k.seq)).any (fun j => j.ordered k) = false → k.quiet = false → k.op ≠ 0xAD → k.node = none →
    k.ins.form = .c op f → f.ct = 0 → (s.core c).waiters = [] →
    (ix = 0xFF ∨ (s.oldAtCore c k.slot k.gen = false ∧ s.objBad c g false ix = false) →
      ∃ t, exec (.copyComplete c k.seq) s = .next t ∧ (∀ j ∈ (t.core c).cq, j.seq ≠ k.seq) ∧ t.hbm = s.hbm ∧
        (ix = 0xFF → (t.core c).peg g = (s.core c).peg g) ∧
        (ix ≠ 0xFF → (t.core c).peg g ix = { p with
          posted := BitVec.ofNat 64 (min (p.posted.toNat + f.inc.toNat) (2 ^ 64 - 1))
          latch := if st = 0 ∨ st = cPartial ∨ p.latch ≠ 0 then p.latch else st }) ∧
        (k.sts = false → t.ground = s.ground) ∧
        (k.sts = true → (s.spadOfCopy k).1 ≤ k.soff → k.soff + 16 ≤ (s.spadOfCopy k).1 + (s.spadOfCopy k).2 →
          (∀ i, i < 16 → s.cutAt k.slot k.gen (.ground (sliceAt c k.soff)) i = false) →
          ∀ i, i < 16 → t.ground.byte false g (sliceAt c k.soff + i) = k.record.getD i 0))

/-- R168, R246, R292, R393 to R406: the life of a copy command in its engine. -/
def Obligations.CopyCommandsRun : Prop := copyIsAccepted ∧ boxStarts ∧ copyBytesMove ∧ tilesMove ∧ copyCompletes

/-- R172, R173, R408: at PACKAGE scope a publish waits for the four replicas to hold the handle's reads and acknowledge; then the home swaps,
each replica swaps at its COMMIT, and the PUB returns with the fourth acknowledgement. At DIE scope a replica swaps at its own step.
A swap exchanges the visible and shadow buffers and raises PUBSEQ. -/
def Obligations.PublishesSwapTwins : Prop :=
  ∀ (s : State) (p : Publish) (slot h d : Nat),
    let home := h % 4
    let g := tagOf p.slot p.gen
    let key := slot * 1024 + h
    let old (e : Nat) : Twin := s.twin e slot h g
    let swapped (t : State) (e : Nat) : Prop :=
      t.twin e slot h g = { old e with pubseq := (old e).pubseq + 1, pend := false, shd := (old e).vis, vis := (old e).shd }
    let now (t : State) (q : Publish) : Prop := (t.die home).pubs.find? (·.is slot h) = some q
    (s.die home).pubs.find? (·.is slot h) = some p → p.bind = none → d < 4 →
    (p.pkg = true → p.prepared.contains d = false →
      (p.started = true → s.pubStop p d = 0 → ∃ t, exec (.publishPrepare slot h d) s = .next t ∧ (t.die d).holds.contains key = true ∧
        now t { p with prepared := addOnce d p.prepared }) ∧
      (p.started = false → d = home → s.pubCheck p = 0 → ∃ t, exec (.publishPrepare slot h d) s = .next t ∧
        (t.die d).holds.contains key = true ∧ now t { p with started := true, prepared := addOnce d p.prepared })) ∧
    (p.prepared.contains d = true → p.acked.contains d = false →
      ((addOnce d p.acked).length < 4 → ∃ t, exec (.prepareAck slot h d) s = .next t ∧ now t { p with acked := addOnce d p.acked } ∧ ∀ e, t.twin e = s.twin e) ∧
      (4 ≤ (addOnce d p.acked).length → s.pubStop p home = 0 → ∃ t, exec (.prepareAck slot h d) s = .next t ∧ swapped t home ∧ (t.die home).holds.contains key = false ∧
        now t { p with acked := addOnce d p.acked, committed := true, swapped := [home] })) ∧
    (p.committed = true → p.swapped.contains d = false → s.pubStop p d = 0 → ∃ t, exec (.publishCommit slot h d) s = .next t ∧ swapped t d ∧
      (t.die d).holds.contains key = false ∧ now t { p with swapped := addOnce d p.swapped }) ∧
    (p.committed = true → p.swapped.contains d = true → p.done.contains d = false →
      ((addOnce d p.done).length < 4 → ∃ t, exec (.commitAck slot h d) s = .next t ∧ now t { p with done := addOnce d p.done }) ∧
      (4 ≤ (addOnce d p.done).length → ∀ n r len, p.strand = some (n, r, len) → p.pkg = true →
        ∃ t, exec (.commitAck slot h d) s = .next t ∧ (t.die home).pubs = (s.die home).pubs.erase p ∧ (t.strand n).stall = 0 ∧
          (t.strand n).getPc g = (s.strand n).getPc g + BitVec.ofNat 64 len ∧
          (r ≠ 0 → (t.strand n).s g r = BitVec.ofNat 64 ((old home).pubseq.toNat % 2 ^ 56 * 2 ^ 8)))) ∧
    (p.pkg = false → p.swapped.contains d = false → (p.started = true ∧ s.pubStop p d = 0) ∨ (p.started = false ∧ d = home ∧ s.pubCheck p = 0) → (∀ q ∈ (s.die home).pubs, q.is slot h = true → q = p) →
      ∃ t, exec (.twinSwap slot h d) s = .next t ∧ swapped t d ∧ (t.die d).holds.contains key = false)
/-! ### Peers and stations (R95, R97, R101, R107 to R109, R175, R330) -/

/-- R79, R95, R97, R107, R113, R121: a request of a peer that is new and in time is served once: for a lease that is ACTIVE under the lease bit and
the lease's tag, else through the window that admits it under its owner's current tag, else refused; a second arrival changes nothing; one that
the owner's advance must precede is held; and bytes of a poisoned source leave their granules poisoned. -/
def peerRequestsServed : Prop :=
  ∀ (s : State) (src slot pa n age ttag tag : Nat) (data : BitVec 512),
    let fresh := age ≤ linkTimeout ∧ ∀ e ∈ s.pkg.seen, e.1 = src → e.2.1 = ttag → e.2.2 + linkTimeout < s.cycle
    let what (wr bad : Bool) (t : Tag) : PeerWhat := .access pa wr n t none bad
    let ev (wr bad : Bool) (t : Tag) : Instr := .peerRequestArrival src slot (what wr bad t) data ttag age
    let d := (leBytes 64 data.toNat).take n
    let served (l : Bool) (t : Tag) : Prop := ∀ g : Tag,
      (∃ u, exec (ev false false g) s = .next u ∧ u.hbm = s.hbm ∧
        u.sent = s.sent ++ [.peerReply src ttag (if s.hbm.bad l t pa n then 3 else 0) (s.hbm.read l t pa n)]) ∧
      (s.isEviction src slot pa true = false → ∀ bad, ∃ u, exec (ev true bad g) s = .next u ∧ u.sent = s.sent ++ [.peerReply src ttag 0 []] ∧
        (∀ i (h : i < d.length), u.hbm.byte l t (pa + i) = d[i]) ∧ (bad = true → ∀ i, i < d.length → (u.hbm.gran (pa + i)).poison = true) ∧
        (∀ a, a < pa ∨ pa + n ≤ a → u.hbm.byte l t a = s.hbm.byte l t a) ∧ u.ground = s.ground)
    fresh → n ≤ 64 → s.frozen (dieOfPa pa) = false →
    (∀ x, s.leaseFor src slot pa = some x → x.st = 2 → served true x.ltag) ∧
    (∀ w, s.leaseFor src slot pa = none → s.windowFor src pa n true = some w → s.windowFor src pa n false = some w →
      (s.beforeCut w.owner pa n = false → served false (s.slotTag w.owner)) ∧
      (s.beforeCut w.owner pa n = true → ∀ g : Tag, ∃ u, exec (ev false false g) s = .next u ∧ u.hbm = s.hbm ∧ u.sent = s.sent ∧
        u.pkg.held = s.pkg.held ++ [(src, slot, what false false g, data, ttag)])) ∧
    (s.leaseFor src slot pa = none → s.windowFor src pa n false = none → ∀ g : Tag, ∃ u, exec (ev false false g) s = .next u ∧ u.hbm = s.hbm ∧
      u.sent = s.sent ++ [.peerReply src ttag 1 []]) ∧
    (∀ t, exec (ev true false (BitVec.ofNat 16 tag)) s = .next t → t.cycle = s.cycle →
      exec (ev true false (BitVec.ofNat 16 tag)) t = .next t)

/-- R95, R107, R109, R123, R168, R175: an answer ends the request that it is for: one that comes after the cut of its core is discarded, and
its command ends with GEN_RETIRED (log entry 75); data join the access's bytes, with UNCORRECTABLE when they are
poisoned; a refusal ends the command with PAGE_PERM, and no answer within 2 ms with PEER_LOST. An answered write-back of a sector is
over; one that nothing answers is told to every FENCE that waits for it and to the commands that wrote the sector. -/
def peerAnswersArrive : Prop :=
  ∀ (s : State) (r : PeerReq) (data : BitVec 512),
    let gone (t : State) : Prop := t.pkg.peers = s.pkg.peers.filter (·.id != r.id)
    let ends (t : State) (c q : Nat) (code : Code) : Prop := ∃ k, t.copyOf c q = some k ∧ k.ended = true ∧ k.code = code
    s.pkg.peers.find? (·.id == r.id) = some r → r.cmd = none →
    (∀ a c q b j k bx pc dev pa m l, r.wb = none → r.acc = some a.id → s.accOf a.id = some a → a.why = .piece c q b j →
      s.pieceOf (c, q, b, j) = some (k, bx, pc) →
      (s.oldAtCore a.core r.slot r.gen = true → k.ended = false →
        ∃ t, exec (.peerResponseArrival r.id 0 data) s = .next t ∧ gone t ∧ t.accOf a.id = none ∧ ends t c q cGenRetired) ∧
      (s.oldAtCore a.core r.slot r.gen = false → k.op ≠ 0xAB → r.fetch = false → a.rsegs = (.peer dev pa, m) :: l → a.wsegs ≠ [] → r.wr = false →
        (∃ t, exec (.peerResponseArrival r.id 0 data) s = .next t ∧ gone t ∧
          t.accOf a.id = some { a with rsegs := l, data := a.data ++ (leBytes 64 data.toNat).take r.n }) ∧
        (∃ t, exec (.peerResponseArrival r.id 3 data) s = .next t ∧ gone t ∧
          t.accOf a.id = some { a.meet k pc cUncorrectable with rsegs := l, data := a.data ++ (leBytes 64 data.toNat).take r.n })) ∧
      (k.ended = false → (s.oldAtCore a.core r.slot r.gen = false →
          ∃ t, exec (.peerResponseArrival r.id 1 data) s = .next t ∧ gone t ∧ t.accOf a.id = none ∧ ends t c q cPagePerm) ∧
        (r.sentAt + linkTimeout ≤ s.cycle →
          ∃ t, exec (.peerTimeout r.id) s = .next t ∧ gone t ∧ t.accOf a.id = none ∧ ends t c q cPeerLost))) ∧
    (∀ key kind, r.wb = some key →
      exec (.peerResponseArrival r.id kind data) s = .next (s.mapPkg fun p => { p with peers := p.peers.filter (·.id != r.id) }) ∧
      (r.sentAt + linkTimeout ≤ s.cycle → ∃ t, exec (.peerTimeout r.id) s = .next t ∧ gone t ∧
        (∀ n ∈ r.fences, (t.strand n).peerLost = true) ∧
        (∀ c q k, c < 192 → s.copyOf c q = some k → k.over = true → (find k.wrote key).isSome = true → k.ended = false → ends t c q cPeerLost))) ∧
    (s.cycle < r.sentAt + linkTimeout → exec (.peerTimeout r.id) s = .next s)

/-- R108, R109, R330: a flit's failed check after three failed replays of that flit retrains its station and raises the level, and at level
16 retires it; it is up again after the retraining; its level leaks; the first station up brings the device number; and an undeliverable packet clears
the station's bit for the peer and goes out on another station, or is lost where there is none. -/
def stationsRetrain : Prop :=
  ∀ (s : State) (k dev flit : Nat),
    let x := s.station k
    let n := Tbl.get 0 x.fails flit
    let cut : State := s.mapPkg fun p => { p with routes := Tbl.put 0xFFFF p.routes dev (Tbl.get 0xFFFF p.routes dev &&& ~~~(BitVec.ofNat 16 (2 ^ k))) }
    (k < 16 → x.st = 0 → (∀ r ∈ s.pkg.peers, r.station ≠ k) → ∃ t, exec (.flitCheckFail (16 * flit + k)) s = .next t ∧
      t.station k = (if n < 3 then { x with fails := Tbl.put 0 x.fails flit (n + 1) } else if 16 ≤ x.level then { x with st := 2, fails := [] }
        else { x with st := 1, fails := [], level := x.level + 1 }) ∧ ∀ j, j ≠ k → t.station j = s.station j) ∧
    (x.st = 1 → ∃ t, exec (.retrainComplete k) s = .next t ∧ t.station k = { x with st := 0, fails := [] }) ∧
    (0 < x.level → ∃ t, exec (.bucketLeak k) s = .next t ∧ t.station k = { x with level := x.level - 1 }) ∧
    (k < 16 → x.st = 3 → ∃ t, exec (.stationUp k dev) s = .next t ∧ t.station k = { x with st := 0 } ∧ t.pkg.everUp = true ∧
      t.pkg.devNo = if s.pkg.everUp then s.pkg.devNo else dev % 1024) ∧
    ((∀ r ∈ s.pkg.peers, r.dev ≠ dev ∨ r.station ≠ k) → exec (.packetUndeliverable k dev) s = .next cut) ∧
    ∀ r, s.pkg.peers = [r] → r.dev = dev → r.station = k → ∃ t, exec (.packetUndeliverable k dev) s = .next t ∧
        (∀ j, cut.stationFor r.dev r.pa = some j → t.pkg.peers = [{ r with station := j }] ∧ t.sent = s.sent ++ [r.msg]) ∧
        (cut.stationFor r.dev r.pa = none → t.pkg.peers = [])

/-- R95, R97, R107 to R109, R175, R330: what peers ask of the device, what they answer, and the stations between. -/
def Obligations.PeersAndStations : Prop := peerRequestsServed ∧ peerAnswersArrive ∧ stationsRetrain
/-! ### Translation, faults, ATS, invalidation (R19 to R45, R333, R432 to R434) -/

/-- Device memory as a walker of die `d` sees the granule of an entry, through its bay cache. -/
def walkerSees (s : State) (d a : Nat) : TMem := s.memSeen (walkCore d a) [a / 64]
/-- The 8 bytes of a table entry that a walk reads for (slot, gen), and whether it can read them. -/
def entryAt (s : State) (d slot gen a : Nat) : Nat := ofLe ((walkerSees s d a).read false (tagOf slot gen) a 8)
def entryFit (s : State) (d slot gen a : Nat) : Prop :=
  (walkerSees s d a).bad false (tagOf slot gen) a 8 = false ∧ s.frozen (dieOfPa a) = false ∧ s.coreOk (walkCore d a) slot gen [] false (.hbm a) 0 = true

/-- R20, R21: an entry that points to the table of level `l + 1` at `next`. -/
def isTable (v l next : Nat) : Prop :=
  bit v 0 = true ∧ bit v 1 = false ∧ bits v 2 6 = 0 ∧ bits v 48 16 = 0 ∧ bits v 8 40 * 256 = next ∧ next % (if l = 3 then 256 else 4096) = 0

/-- R19 to R22, R25, R26: a walk of slot 0 through three tables to a page leaf of MODE 0 that permits the access, A and D set, gives the leaf's
frame. -/
def walkFindsPage : Prop :=
  ∀ (s : State) (d gen va : Nat) (wr : Bool) (t2 t3 t4 : Nat),
    let t1 := (s.ctxOf 0).s1Root.toNat
    let a1 := t1 + 8 * bits va 39 16
    let a2 := t2 + 8 * bits va 30 9
    let a3 := t3 + 8 * bits va 21 9
    let a4 := t4 + 8 * bits va 16 5
    let v := entryAt s d 0 gen a4
    (s.die d).walkCache = [] → t1 ≠ 0 → (∀ a ∈ [a1, a2, a3, a4], s.ownerFor d (a / 0x80000000) = 0 ∧ entryFit s d 0 gen a) →
    isTable (entryAt s d 0 gen a1) 1 t2 → isTable (entryAt s d 0 gen a2) 2 t3 → isTable (entryAt s d 0 gen a3) 3 t4 →
    bit v 0 = true → bit v 1 = true → leafOk true 4 v = true → lfMode v = 0 → bit v (if wr then 3 else 2) = true → bit v 8 = true →
    (wr = true → bit v 9 = true) → s.ownerFor d (lfFrame v / 0x80000000) < 64 →
    ∃ t, (s.walk d 0 gen va wr ⟨[], [], []⟩).1 = .ok t ∧ (s.walk d 0 gen va wr ⟨[], [], []⟩).2.marks = [] ∧ t.size = 16 ∧ t.frame = lfFrame v ∧
      t.out va = lfFrame v + va % 65536 ∧ t.covers 0 gen va = true ∧ t.serves wr = true ∧ (t.host = false → t.place va = .hbm (lfFrame v + va % 65536))

/-- R20 to R22, R25: stage 2 of slot `k` translates intermediate address `x` through three tables in slot 0's blocks and page leaf `v`. -/
def stage2Page (s : State) (d k x v : Nat) : Prop :=
  ∃ t2 t3 t4,
    let a1 := (s.ctxOf k).s2Root.toNat + 8 * bits x 39 9
    let a2 := t2 + 8 * bits x 30 9
    let a3 := t3 + 8 * bits x 21 9
    let a4 := t4 + 8 * bits x 16 5
    (∀ a ∈ [a1, a2, a3, a4], s.ownerFor d (a / 0x80000000) = 0 ∧ entryFit s d 0 0 a) ∧
    isTable (entryAt s d 0 0 a1) 1 t2 ∧ isTable (entryAt s d 0 0 a2) 2 t3 ∧ isTable (entryAt s d 0 0 a3) 3 t4 ∧
    v = entryAt s d 0 0 a4 ∧ bit v 0 = true ∧ bit v 1 = true ∧ leafOk true 4 v = true

/-- R19 to R26: a walk of a slot from 1 to 63, whose stage-1 tables lie where stage-2 leaves of local, writable memory put them: the output is the
stage-2 leaf's and grants what both leaves grant. A stage-2 leaf that does not grant the access is a stage-2 PERMISSION fault; one in another's
block OWNER, a table there WALK_ERROR. -/
def guestWalkFindsPage : Prop :=
  ∀ (s : State) (d k gen va : Nat) (wr : Bool) (t2 t3 t4 v1 v2 v3 v4 f g : Nat),
    let need := if wr then 3 else 2
    let i1 := (s.ctxOf k).s1Root.toNat + 8 * bits va 39 16
    let i2 := t2 + 8 * bits va 30 9
    let i3 := t3 + 8 * bits va 21 9
    let i4 := t4 + 8 * bits va 16 5
    let pa (v i : Nat) : Nat := lfFrame v + i % 65536
    let e (v i : Nat) : Nat := entryAt s d k gen (pa v i)
    let sound (v i : Nat) : Prop := stage2Page s d k i v ∧ lfMode v = 0 ∧ lfHost v = false ∧ bit v 3 = true ∧ bit v 8 = true
    let ipa := lfFrame f + va % 65536
    let r := s.walk d k gen va wr ⟨[], [], []⟩
    1 ≤ k → k < 64 → (s.die d).walkCache = [] → (s.ctxOf k).s1Root ≠ 0 → sound v1 i1 →
    (s.ownerFor d (pa v1 i1 / 0x80000000) ≠ k → r.1 = .error ⟨true, wWalkError, 4, i1⟩) ∧
    ((∀ x ∈ [(v1, i1), (v2, i2), (v3, i3), (v4, i4)], sound x.1 x.2 ∧ s.ownerFor d (pa x.1 x.2 / 0x80000000) = k ∧ entryFit s d k gen (pa x.1 x.2)) →
      isTable (e v1 i1) 1 t2 → isTable (e v2 i2) 2 t3 → isTable (e v3 i3) 3 t4 → f = e v4 i4 → bit f 0 = true → bit f 1 = true → leafOk false 4 f = true →
      bit f need = true → bit f 8 = true → (wr = true → bit f 9 = true) → stage2Page s d k ipa g →
      let own := s.ownerFor d (pa g ipa / 0x80000000)
      (bit g need = false → r.1 = .error ⟨true, wPermission, 4, ipa⟩) ∧
      (bit g need = true → lfMode g = 0 → lfHost g = false → own ≠ k → r.1 = .error ⟨true, wOwner, 4, ipa⟩) ∧
      (bit g need = true → bit g 8 = true → (wr = true → bit g 9 = true) → lfMode g ≠ 0 ∨ lfHost g = true ∨ own = k →
        r.2.marks = [] ∧ ∃ t, r.1 = .ok t ∧ t.size = 16 ∧ t.out va = lfFrame g + va % 65536 ∧ t.covers k gen va = true ∧ t.serves wr = true ∧
          t.mode = lfMode g ∧ t.host = lfHost g ∧ t.peer = lfPeer g ∧ t.cache = (bit f 11 && bit g 11) ∧ t.rd = (bit f 2 && bit g 2) ∧ t.wr = (bit f 3 && bit g 3)))

/-- R28, R35, R41, R244, R433: the end of a walk: its translation is in the L2 TLB, or a fault record holds its accesses, but those of a command
that has ended (R244); the next walk takes its place. -/
def walksEnd : Prop :=
  ∀ (s : State) (d k : Nat) (w : Walk),
    (s.die d).walks[k]? = some w → (∀ a ∈ s.flight, a.why ≠ .commit d) →
    (∀ f, (s.walk d w.slot w.gen w.va w.wr ⟨[], [], []⟩).1 = .error f → f.cause ≠ wContained → ∃ t, exec (.tableWalk d k) s = .next t ∧
      (t.die d).walks = removeAt (s.die d).walks k ++ (s.die d).walkQ.take 1 ∧
      (∀ p ∈ w.waiters, dieOfCore p.1 = d → s.abandons p = true → ∀ r ∈ (t.die d).frecs, p ∉ r.waiters) ∧
      ∃ r ∈ (t.die d).frecs, r.slot = w.slot ∧ r.gen = w.gen ∧ r.stage2 = f.s2 ∧ r.addr / 65536 = f.addr / 65536 ∧ r.wr = w.wr ∧
        ∀ p ∈ w.waiters, s.abandons p = false → p ∈ r.waiters) ∧
    (∀ f p c b q, (s.walk d w.slot w.gen w.va w.wr ⟨[], [], []⟩).1 = .error f → f.cause = wContained → w.waiters = [p] → s.pieceOf p = some (c, b, q) →
      c.ended = false → ∃ t c', exec (.tableWalk d k) s = .next t ∧ t.copyOf p.1 p.2.1 = some c' ∧ c'.ended = true ∧ c'.code = cContained) ∧
    (∀ x, (s.walk d w.slot w.gen w.va w.wr ⟨[], [], []⟩).1 = .ok x → w.dropped = false →
      ∃ t, exec (.tableWalk d k) s = .next t ∧ x ∈ (t.die d).l2)

/-- R33 to R38, R432: a fault record goes to its ring when there is room; a response names a written record: RETRY frees it and its accesses
translate again, FAIL ends them with PAGE_PERM or PAGE_FAULT; one that names none is ignored. -/
def faultRings : Prop :=
  ∀ (s : State) (d k : Nat) (host : Bool) (r : FRec) (pi : BitVec 32) (x : Nat),
    let g := (s.fn k).faultRing host
    let y := (s.fn k).respRing host
    let told : State := s.mapFn k fun f => if host then { f with hResp := { f.hResp with pi := pi } } else { f with gResp := { f.gResp with pi := pi } }
    let taken (t : State) : Prop := ((t.fn k).respRing host).ci = y.ci + 1 ∧ (t.die d).frecs.length < (s.die d).frecs.length
    (r.slot = k → r.hostRing = host → r.written = false → r.ix < 1024 → (s.die d).frecs.find? (fun q => q.ix == r.ix && !q.written) = some r →
      (s.die d).frecs.find? (fun q => !q.written && q.slot == k && q.hostRing == host) = some r → g.on = true → (g.pi - g.ci).toNat < 2 ^ g.size →
      ∃ t, exec (.faultRecordWrite d r.ix) s = .next t ∧ ((t.fn k).faultRing host).pi = g.pi + 1 ∧ { r with written := true } ∈ (t.die d).frecs ∧
        ∀ i, i < 32 → Tbl.get 0 t.host (g.base.toNat + g.pi.toNat % 2 ^ g.size * 32 + i) = (r.bytes d (!(bit g.pi.toNat g.size))).getD i 0) ∧
    (k ≤ 63 → s.shut k = false → (host = true → s.shut 0 = false) → (told.nextResp k host = none ∨ ∃ z, told.nextResp k host = some z ∧ (told.respMeans k host z).isSome = true) →
      exec (.responseRingDoorbell k host pi) s = .next told) ∧
    (s.shut k = true ∨ (host = true ∧ s.shut 0 = true) → exec (.responseRingDoorbell k host pi) s = .next s) ∧
    (s.nextResp k host = some x → s.respMeans k host x = some (false, d, r) → ∃ t, exec (.faultResponseRetry k host) s = .next t ∧ taken t) ∧
    (s.nextResp k host = some x → s.respMeans k host x = none → ∃ t, exec (.faultResponseRetry k host) s = .next t ∧
      (t.fn k).ignored = (s.fn k).ignored + 1 ∧ ∀ e, (t.die e).frecs = (s.die e).frecs) ∧
    (∀ p c b q, s.nextResp k host = some x → s.respMeans k host x = some (true, d, r) → r.waiters = [p] → s.pieceOf p = some (c, b, q) → c.ended = false →
      ∃ t c', exec (.faultResponseFail k host) s = .next t ∧ taken t ∧ t.copyOf p.1 p.2.1 = some c' ∧ c'.ended = true ∧
        c'.code = if r.cause = 2 then cPagePerm else cPageFault)

/-- R30 to R32: the host grants a translation, refuses it (ATS_FAULT), or, with PRI, is asked for the page; an invalidation drops matching entries
and completes once every box that used them has issued its requests. -/
def hostTranslations : Prop :=
  ∀ (s : State) (k : Nat) (a : AtsWait) (va frame : BitVec 64) (n : Nat) (rd wr : Bool),
    let lo := va.toNat / 2 ^ n * 2 ^ n % 2 ^ 55
    let hit (x : Tlb) : Bool := x.host && bit x.va 55 && x.slot == k && decide (x.va % 2 ^ 55 < lo + 2 ^ n) && decide (lo < x.va % 2 ^ 55 + 2 ^ x.size)
    let pasid := (s.ctxOf k).pasid.toNat
    let failed (t : State) : Prop := ∀ p c b q, a.waiters = [p] → s.pieceOf p = some (c, b, q) → c.ended = false →
      ∃ c', t.copyOf p.1 p.2.1 = some c' ∧ c'.ended = true ∧ c'.code = cAtsFault
    ((s.fn k).atsWait.find? (fun b => b.va == va.toNat / 4096 * 4096 && (b.st == 0 || b.st == 3)) = some a →
      ((if a.wr then wr else rd) = true → ∀ p c, a.waiters = [p] → s.copyOf p.1 p.2.1 = some c →
        ∃ t x, exec (.atsTranslationCompletion k va frame n rd wr) s = .next t ∧ x ∈ (t.die (dieOfCore p.1)).l2 ∧ x.host = true ∧ x.slot = k ∧
          x.size = max 12 (min n 55) ∧ x.frame = frame.toNat / 2 ^ x.size * 2 ^ x.size ∧ x.rd = rd ∧ x.wr = wr) ∧
      ((if a.wr then wr else rd) = false → a.st = 3 ∨ (s.fn k).priEn = false →
        ∃ t, exec (.atsTranslationCompletion k va frame n rd wr) s = .next t ∧ failed t) ∧
      ((if a.wr then wr else rd) = false → a.st = 0 → (s.fn k).priEn = true → (s.fn k).pageReqs < Config.priAllocation k →
        ∃ t, exec (.atsTranslationCompletion k va frame n rd wr) s = .next t ∧ t.sent = s.sent ++ [.pageReq k pasid a.va a.wr true] ∧
          (t.fn k).pageReqs = (s.fn k).pageReqs + 1)) ∧
    ((s.fn k).atsWait.find? (fun b => b.va == va.toNat / 4096 * 4096 && b.st == 1) = some a → (∀ b ∈ (s.fn k).atsWait, b.st ≠ 2) →
      (∃ t, exec (.priPageResponse k va true) s = .next t ∧ t.sent = s.sent ++ [.ats k pasid (a.ea % 2 ^ 55)] ∧ (t.fn k).pageReqs = (s.fn k).pageReqs - 1) ∧
      ∃ t, exec (.priPageResponse k va false) s = .next t ∧ failed t) ∧
    (∃ t, exec (.atsInvalidationRequest k va n) s = .next t ∧ (t.fn k).atsInv = (s.fn k).atsInv ++ [(lo, s.hostBoxes k lo (lo + 2 ^ n))] ∧
      (∀ c, c < 192 → (t.core c).l1 = (s.core c).l1.filter fun x => !(hit x)) ∧ ∀ d, d < 4 → (t.die d).l2 = (s.die d).l2.filter fun x => !(hit x)) ∧
    (∀ x l, (s.fn k).atsInv = x :: l →
      ((∀ b ∈ x.2, s.hostSent b = true) → ∃ t, exec (.atsInvalidationCompletion k) s = .next t ∧
        (t.fn k).atsInv = l ∧ t.sent = s.sent ++ [.atsInvDone k]) ∧
      (∀ b ∈ x.2, s.hostSent b = false → exec (.atsInvalidationCompletion k) s = .next s))

/-- R41 to R43, R333: an invalidation is over when the L2 TLBs have dropped what it matches and the cores have acknowledged at a quiet point, or by
force after the watchdog's time, counted for every slot whose time ran out. -/
def invalidationsSettle : Prop :=
  ∀ (s : State) (x : Tlbi) (c d k : Nat),
    let due := x.postedAt + (s.ctxOf x.slot).tlbiWdog.toNat * 3000
    let forced (t : State) (l : List Nat) : Prop := ∀ q, (t.ctxOf q).tlbiForced = (s.ctxOf q).tlbiForced + if l.contains q then 1 else 0
    let waits := (s.core c).qptAt.isSome = true ∧ (s.midBox c = false ∨ (s.core c).qptAt = some due)
    let acked (t : State) : Prop := (t.core c).qpt = false ∧ (t.core c).qptAt = none ∧ (t.core c).qptBy = [] ∧ (∀ q ∈ (t.core c).cq, q.hold = false) ∧ (∀ y ∈ t.pkg.tlbis, y.cores.contains c = false) ∧
      ∀ e ∈ (t.core c).l1, ∀ y ∈ s.pkg.tlbis, y.cores.contains c = true → y.hits e = false
    (s.pkg.tlbis[k]? = some x → x.dies.contains d = true → ∃ t, exec (.tlbiL2Drop d k) s = .next t ∧
      (t.die d).l2 = (s.die d).l2.filter (fun e => !(x.hits e)) ∧ (∀ e ∈ (t.die d).walkCache, e.slot ≠ x.slot) ∧
      (∀ w ∈ (t.die d).walks, w.dropped = true) ∧
      (s.pkg.tlbis = [x] → x.dies = [d] → x.cores = [] → (t.ctxOf x.slot).tlbiDone = BitVec.ofNat 64 x.n ∧ t.pkg.tlbis = [])) ∧
    ((s.core c).qpt = true → s.midBox c = false → ∃ t, exec (.tlbiCoreAcknowledge c) s = .next t ∧ acked t ∧
      ((s.core c).forced.Nodup → forced t (s.core c).forced)) ∧
    ((s.core c).qpt = false → exec (.tlbiCoreAcknowledge c) s = .next s) ∧
    (s.pkg.tlbis[k]? = some x → x.cores.contains c = true →
      (s.cycle < due ∨ waits → exec (.tlbiWatchdogExpiry c k) s = .next s) ∧
      (due ≤ s.cycle → ¬waits →
        (s.midBox c = true → ∃ t, exec (.tlbiWatchdogExpiry c k) s = .next t ∧ (t.core c).qpt = true ∧
          (t.core c).forced = addOnce x.slot (s.core c).forced) ∧
        (s.midBox c = false → ∃ t, exec (.tlbiWatchdogExpiry c k) s = .next t ∧ acked t ∧
          ((s.core c).forced.Nodup → forced t (addOnce x.slot (s.core c).forced)))))

/-- R19 to R45, R333, R432 to R434: walks, fault records and responses, the host's translations, and invalidations. -/
def Obligations.TranslationAndInvalidation : Prop :=
  walkFindsPage ∧ guestWalkFindsPage ∧ walksEnd ∧ faultRings ∧ hostTranslations ∧ invalidationsSettle
/-! ### Ordered tasks and LAUNCH (R186, R194, R196, R219, R220, R233 to R241, R417 to R420) -/

/-- R186, R233, R241, R418, R419, R420: the task instructions of a strand; that CFR with D = A leaves CFR_SEQ there is log entry 30. -/
def taskInstructions : Prop :=
  ∀ (s : State) (f : FY),
    let n := s.cur
    let d := dieOf n
    let g := s.tagOfStrand n
    let k := f.ix.toNat
    let ts := s.val f.a
    let e := s.val f.b
    let arg (i : Nat) : W64 := if k = 0 then 0 else (s.strand n).s g (k + i)
    let ok := e.toNat % 4 = 0 ∧ e.toNat < 2 ^ 40 ∧ k < 63
    let seq := (s.die d).nextSeq
    let room := ((s.die d).tasks.filter (·.st == .ready)).length < 4096
    let past (t : State) (i : Instr) : Prop := (t.strand n).getPc g = pastIt s i
    let spawned (parent : Option Nat) : Prop := ∃ t x, exec (.tspawn f) s = .next t ∧ (t.die d).tasks = (s.die d).tasks ++ [x] ∧ x.seq = seq ∧
      x.ts = ts ∧ x.entry = e ∧ x.arg0 = arg 0 ∧ x.arg1 = arg 1 ∧ x.parent = parent ∧ x.st = .ready ∧ x.slot = s.slotOf n ∧ past t (.tspawn f) ∧
      (f.d.dest ≠ 0 → (t.strand n).s g f.d.dest = BitVec.ofNat 64 (seq * 2 ^ 8))
    (s.ready f.pr (opdRegs [f.a, f.b] ++ if k = 0 then [] else [k, k + 1]) [f.d.dest] = true →
      (¬ok → exec (.tspawn f) s = .next (s.trapNow n (.tspawn f) ⟨cOperand, 0, 0⟩)) ∧
      (ok → ¬room → (∀ u, s.taskOf n = some u → u.ts.toNat ≤ ts.toNat) → exec (.tspawn f) s = .next (s.wrote (.tspawn f) f.d.dest 0x34)) ∧
      (ok → room → (s.strand n).task = none → spawned none) ∧
      (∀ u, ok → s.taskOf n = some u →
        (u.ts.toNat ≤ ts.toNat → room → u.nonspec = true ∨ s.pillowRoom (coreOf n) u.seq false [2 ^ 64] = true → spawned (some u.seq)) ∧
        (ts.toNat < u.ts.toNat → exec (.tspawn f) s = .next (s.trapNow n (.tspawn f) ⟨cOperand, 0, 0⟩)))) ∧
    (s.ready f.pr [] [] = true →
      (s.taskOf n = none → exec (.tend f) s = .next (s.trapNow n (.tend f) ⟨cOperand, 0, 0⟩) ∧
        exec (.tabort f) s = .next (s.trapNow n (.tabort f) ⟨cOperand, 0, 0⟩)) ∧
      (∀ u, s.taskOf n = some u → (s.strandBusy n = false → ∃ t, exec (.tend f) s = .next t ∧ (t.strand n).task = none ∧ (t.strand n).st = .taskwait ∧
          (u.nonspec = false → (t.die d).task u.seq = some { u with st := .finished, strand := none }) ∧
          (u.nonspec = true → (t.die d).task u.seq = none)) ∧
        (u.strand = some n → ∃ t, exec (.tabort f) s = .next t ∧ (t.strand n).task = none ∧ (t.strand n).st = .taskwait ∧ (t.die d).task u.seq = none))) ∧
    (s.ready f.pr [] [f.d.dest, f.a.dest] = true → ∃ t, exec (.cfr f) s = .next t ∧ past t (.cfr f) ∧
      let o := (s.die d).oldest (s.slotOf n)
      (f.d.dest ≠ 0 → f.d.dest ≠ f.a.dest → (t.strand n).s g f.d.dest = match o with | some u => u.ts | none => BitVec.allOnes 64) ∧
      (f.a.dest ≠ 0 → (t.strand n).s g f.a.dest = match o with | some u => BitVec.ofNat 64 u.seq | none => BitVec.ofNat 64 (2 ^ 48 - 1))) ∧
    (s.ready f.pr [] [f.d.dest] = true → ∀ gr, s.groupOf n = some gr → exec (.tid f) s = .next (s.wrote (.tid f) f.d.dest
      (if f.m = 0 then BitVec.ofNat 64 (gr.idx % 2 ^ 24 + (4 * gr.cores.findIdx (· == coreOf n) + n % 4) % 1024 * 2 ^ 24) else match s.taskOf n with
        | some u => if f.m = 1 then u.ts else BitVec.ofNat 64 u.seq | none => BitVec.allOnes 64))) ∧
    (s.ready f.pr (opdRegs [f.a]) [f.d.dest] = true → ∀ gr, s.groupOf n = some gr →
      (ts.toNat ≤ 7 → exec (.narg f) s = .next (s.wrote (.narg f) f.d.dest (gr.w (8 + ts.toNat)))) ∧
      (7 < ts.toNat → exec (.narg f) s = .next (s.trapNow n (.narg f) ⟨cOperand, 0, 0⟩)))

/-- R187, R193, R196, R219, R220, R417: the packet of 256 bytes at `x`, read for strand `n`: a packet that its checks refuse makes D the code and
changes nothing else, as does one that lies at a frozen die, with CONTAINED (log entry 27); one that passes takes an entry of the die's store,
waiting for its predecessors or live, and makes D its reference. -/
def packetTaken (s t : State) (n slot gen : Nat) (x : Place) (v : W64) : Prop :=
  let d := dieOf n
  let p : BitVec 2048 := BitVec.ofNat 2048 (ofLe (s.coreBytes (coreOf n) slot gen [] x 256))
  let code := if s.placeFrozen x then cContained else if s.oldAtCore (d * 48) slot gen then cGenRetired else s.pktCheck slot d p
  t.ground = s.ground ∧
  (code ≠ 0 → (t.die d).store = (s.die d).store ∧ t.hbm = s.hbm ∧ v = code.setWidth 64) ∧
  (code = 0 → ∃ r : BitVec 32, refV r = true ∧ refDie r = d ∧ s.freeStore d = some (refIx r) ∧ (t.storeEnt r).pkt = p ∧
    (t.storeEnt r).slot = slot ∧ (t.storeEnt r).pred = pktPred p ∧ (t.storeEnt r).total = pktGroups p ∧
    (t.storeEnt r).st = (if pktPred p = 0 then .live else .pending) ∧ (t.storeEnt r).epoch.toNat = refEpoch r ∧
    (pktPred p ≠ 0 → t.hbm = s.hbm) ∧ v = BitVec.ofNat 64 (r.toNat * 2 ^ 32))

/-- R14, R417: LAUNCH: its checks, in the heap or with .local in the slice; with every earlier access of the strand performed it takes the packet
at once; else the strand goes on with D owed, and the packet is not read yet. -/
def launchTakesPacket : Prop :=
  ∀ (s : State) (f : FY) (x : Target),
    let n := s.cur
    let slot := s.slotOf n
    let gen := s.genOf n
    let a := (s.val f.a).toNat
    let c := coreOf n
    let g := s.tagOfStrand n
    let there := s.resolve n false (if f.m = 1 then 0 else 2) a 256 = .ok x
    let traps (e : Code) (ea : Nat) : Prop := exec (.launch f) s = .next (s.trapNow n (.launch f) ⟨e, 0, BitVec.ofNat 64 ea⟩)
    s.ready f.pr (opdRegs [f.a]) [f.d.dest] = true →
    (s.inTask n = true → traps cOperand 0) ∧
    (s.inTask n = false → f.m ≠ 1 → (s.heapTriple c slot).2.1 < a + 256 → traps cBound a) ∧
    (s.inTask n = false → f.m = 1 → 2 ^ 21 ≤ a ∨ a < (s.spadOf n).1 ∨ (s.spadOf n).1 + (s.spadOf n).2 < a + 256 → traps cBound a) ∧
    (s.inTask n = false → there → a % 256 ≠ 0 → traps cMisaligned a) ∧
    (n < 768 → s.inTask n = false → there → a % 256 = 0 →
      (s.performedTo n 4 = true → s.commitsAt x.place 256 = [] →
        (s.coreBad c slot gen [] x.place 256 = true → traps cUncorrectable a) ∧
        (s.coreBad c slot gen [] x.place 256 = false → ∃ t v, exec (.launch f) s = .next t ∧ (t.strand n).getPc g = pastIt s (.launch f) ∧
          packetTaken s t n slot gen x.place v ∧ (f.d.dest ≠ 0 → (t.strand n).s g f.d.dest = v))) ∧
      (s.performedTo n 4 = false → ∃ t b, exec (.launch f) s = .next t ∧ (t.strand n).getPc g = pastIt s (.launch f) ∧ t.flight = s.flight ++ [b] ∧
        b.why = .launch f.d.dest ∧ b.strand = n ∧ b.slot = slot ∧ b.gen = gen ∧ b.src = x.place ∧ b.n = 256 ∧ b.done = false ∧
        (f.d.dest ≠ 0 → f.d.dest ∈ (t.strand n).pend) ∧ (∀ d, (t.die d).store = (s.die d).store) ∧ t.hbm = s.hbm ∧ t.ground = s.ground))

/-- R417: a LAUNCH that waited takes its packet once every earlier access of its strand has performed, and D then returns; poison in the packet
traps the strand. -/
def launchArrives : Prop :=
  ∀ (s : State) (b : Acc) (d : Nat),
    let earlier := ∀ e ∈ s.flight.takeWhile (·.id != b.id), e.strand = b.strand → e.done = true
    s.accOf b.id = some b → b.why = .launch d →
    (b.done = false → earlier → s.commitsAt b.src 256 = [] →
      (s.coreBad (coreOf b.strand) b.slot b.gen [] b.src 256 = true → ∃ t a, exec (.memoryAccessArrival b.id) s = .next t ∧ t.accOf b.id = some a ∧
        a.done = true ∧ a.code = cUncorrectable ∧ ∀ e, (t.die e).store = (s.die e).store) ∧
      (b.strand < 768 → s.coreBad (coreOf b.strand) b.slot b.gen [] b.src 256 = false → ∃ t v, exec (.memoryAccessArrival b.id) s = .next t ∧
        packetTaken s t b.strand b.slot b.gen b.src v ∧ t.accOf b.id = some { b with done := true, code := 0, data := leBytes 8 v.toNat })) ∧
    (¬earlier → exec (.memoryAccessArrival b.id) s = .next s) ∧
    (b.done = true → b.code = 0 → ∃ t, exec (.accessResponseReturn b.id) s = .next t ∧ t.accOf b.id = none ∧ (t.strand b.strand).pend.contains d = false ∧
      (d ≠ 0 → (t.strand b.strand).s (tagOf b.slot b.gen) d = BitVec.ofNat 64 (ofLe b.data))) ∧
    (b.done = true → b.code ≠ 0 → exec (.accessResponseReturn b.id) s = .next ((s.dropAcc b.id).trapIn b.strand b.task b.code 0 b.ea b.pc b.ins))

/-- R215, R234, R237, R239, R240: the task unit starts the ready task of the smallest key on a waiting strand; the oldest task commits when it is
FINISHED, its buffered writes leaving for memory, where they perform granule by granule; goes on without speculation when it is STALLED; and delivers its fault when it is FAULTED. -/
def taskUnitRuns : Prop :=
  ∀ (s : State) (d slot : Nat) (u : Task),
    (s.die d).task u.seq = some u →
    (∀ n q, (s.die d).readyTask slot = some u → s.servingStrand d slot = some n → (s.die d).freePool = some q →
      ∃ t, exec (.taskStart d slot) s = .next t ∧
        (t.die d).task u.seq = some { u with st := .running, pool := some q, strand := some n, gid := (s.strand n).grp, ran := some (coreOf n) } ∧
        (t.strand n).st = .running ∧ (t.strand n).task = some u.seq ∧ (t.strand n).getPc (tagOf u.slot u.gen) = u.entry ∧
        (t.strand n).s (tagOf u.slot u.gen) 1 = u.arg0 ∧ (t.strand n).s (tagOf u.slot u.gen) 2 = u.arg1) ∧
    ((s.die d).oldest slot = some u → u.st = .finished →
      ∃ t, exec (.taskCommit d slot) s = .next t ∧ (t.die d).task u.seq = none ∧
        ∀ c, c / 48 = d → (∀ e ∈ (t.core c).pillow, e.task ≠ u.seq) ∧
          ∀ e ∈ (s.core c).pillow, e.task = u.seq → e.isArgs = false → ∃ id, e.commit d c id ∈ t.flight) ∧
    (∀ (e : Pillow) (c id o : Nat) (b : Byte), s.accOf id = some (e.commit d c id) → s.mayPerform (e.commit d c id) = true → s.commitsAt (e.commit d c id).dst 64 = [e.commit d c id] →
      s.placeFrozen (.hbm (e.gran * 64)) = false → e.ground = false → e.data = [(o, b)] → o < 64 → s.coreOk c e.slot e.gen [] true (.hbm (e.gran * 64)) o = true → (s.ctxOf e.slot).dirtyEn = false →
      ∃ t, exec (.memoryAccessArrival id) s = .next t ∧ t.accOf id = none ∧
        t.hbm.byte false (tagOf e.slot e.gen) (e.gran * 64 + o) = b) ∧
    ((s.die d).oldest slot = some u → u.st = .stalled →
      ∃ t, exec (.taskCommit d slot) s = .next t ∧ (t.die d).task u.seq = some { u with st := .running, nonspec := true }) ∧
    (∀ r g gr, (s.die d).oldest slot = some u → u.st = .faulted → u.fault = some r → u.gid = some g → s.group g = some gr →
      gr.fail = none → r.code ≠ cUncorrectable →
      ∃ t, exec (.taskCommit d slot) s = .next t ∧ t.group g = some { gr with fail := some r } ∧ ∀ v ∈ (t.die d).tasks, v.slot ≠ u.slot)

/-- R186, R194, R196, R215, R219, R220, R233 to R241, R417 to R420: ordered tasks, and LAUNCH. -/
def Obligations.TasksAndLaunch : Prop := taskInstructions ∧ launchTakesPacket ∧ launchArrives ∧ taskUnitRuns
/-! ### Launches, groups and host queues (R186, R192, R196 to R210, R219 to R232, R245) -/

/-- The one entry that a unit's queue holds, a token of a live launch with packet `p`, fits the unit with strands and registers `rs`. -/
def ready1 (s : State) (level u : Nat) (e : QEnt) (p : BitVec 2048) (rs : List (Nat × Nat)) : Prop :=
  level ≤ 4 ∧ u < 192 / levelCores level ∧ s.unitQueue level u = [e] ∧ e.resumed = none ∧ s.spent e = false ∧ s.pktOf e = some p ∧ s.fits u e = some rs

/-- R186, R199, R206, R209, R210, R229: a dispatch starts the launch's next group on the unit's cores: its strands run at the packet's entry or
at the loop record's prologue, parked but for the first of a core where PARK asks; a copy node's command enters the core's queue accepted; an
operand or a loop record that fails its check ends the group at once. -/
def groupsStart : Prop :=
  ∀ (s : State) (level u : Nat) (e : QEnt) (p : BitVec 2048) (rs : List (Nat × Nat)),
    let c := (unitCores level u).headD 0
    let gid := s.nextId
    let g := tagOf e.slot e.gen
    let oc := s.opndCode c e.slot e.gen p
    let began (t : State) (x : Group) : Prop :=
      t.group gid = some x ∧ x.slot = e.slot ∧ x.gen = e.gen ∧ x.ref = e.ref ∧ x.cores = unitCores level u ∧ x.strands = rs.map (·.1) ∧ x.pkt = p ∧
        x.idx = (s.storeEnt e.ref).next ∧ x.st = .running ∧ (t.storeEnt e.ref).next = (s.storeEnt e.ref).next + 1
    let first (n : Nat) : Prop := (rs.map (·.1)).find? (fun m => coreOf m == coreOf n) = some n
    let runs (t : State) (pc lph : W64) : Prop := ∀ n ∈ rs.map (·.1), (t.strand n).grp = some gid ∧ (t.strand n).ctlReg g nLPH = lph ∧
      (pktPark p = false ∨ first n → (t.strand n).getPc g = pc ∧ (t.strand n).st = .running) ∧
      (pktPark p = true → ¬first n → (t.strand n).pc = (s.strand n).pc ∧ (t.strand n).st = .parked)
    let calm := s.commitsAt (.hbm ((s.heapTriple c e.slot).2.2 + pktEntry p)) 32 = []
    ready1 s level u e p rs →
    (pktKind p ≠ 2 → pktLoop p = false → ∃ t x, exec (.groupDispatch level u) s = .next t ∧ began t x ∧ runs t (BitVec.ofNat 64 (pktEntry p)) 0 ∧
      (oc = 0 → x.fail = none) ∧ (oc ≠ 0 → ∃ r, x.fail = some r ∧ r.code = oc)) ∧
    (∀ pro ker epi trip, pktKind p ≠ 2 → pktLoop p = true → calm → oc = 0 → s.loopRec c e.slot e.gen p = .ok (pro, ker, epi, trip) →
      ∃ t x, exec (.groupDispatch level u) s = .next t ∧ began t x ∧ runs t pro 1 ∧ x.ker = ker ∧ x.epi = epi ∧ x.trip = trip ∧ x.fail = none) ∧
    (∀ k, pktKind p ≠ 2 → pktLoop p = true → calm → oc = 0 → s.loopRec c e.slot e.gen p = .error k → k ≠ 0 →
      ∃ t x r, exec (.groupDispatch level u) s = .next t ∧ began t x ∧ x.fail = some r ∧ r.code = k) ∧
    (pktKind p = 2 → pktLoop p = false → oc = 0 → (∀ j ∈ (s.core c).cq, j.seq ≠ (s.core c).cmdSeq) → ∃ t x k, exec (.groupDispatch level u) s = .next t ∧ began t x ∧ x.fail = none ∧
      (t.core c).cq = (s.core c).cq ++ [k] ∧ k.gid = gid ∧ k.node = some e.ref ∧ k.accepted = true ∧
        k.cs = (List.range 8).map fun i => pktW p (8 + i))

/-- R192: the object that a target of (slot, gen) names: nothing, a sync variable by its place, a peg or a bobbin by core and number. -/
def targetKey (s : State) (slot w : Nat) : Nat × Nat × Nat :=
  let c := tgtDie w * 48 + tgtCore w
  match tgtType w with
  | 0 => (0, 0, 0)
  | 1 => (match s.syncLocate (192 + tgtDie w) slot (tgtDie w) (w % 2 ^ 32) with | .sram d o => (1, d, o / 8) | .ovf _ a => (4, 0, a / 16))
  | 2 => (2, c, bits w 0 8)
  | _ => (3, c, bits w 0 5)
/-- A target whose object may take it: in the window, current, sound, its die not frozen, and no strand waiting at its peg or bobbin. -/
def targetOpen (s : State) (slot gen w : Nat) : Prop :=
  let c := tgtDie w * 48 + tgtCore w
  let l := s.syncLocate (192 + tgtDie w) slot (tgtDie w) (w % 2 ^ 32)
  tgtType w = 0 ∨ (s.frozen (tgtDie w) = false ∧
    (tgtType w = 1 → s.oldAtDie (tgtDie w) slot gen = false ∧ w % 2 ^ 32 + 8 ≤ (s.syncWindow (192 + tgtDie w) slot).1 ∧ s.syncOld slot gen l = false ∧
      s.syncBad l (tagOf slot gen) = false ∧ ∀ e a, l = .ovf e a → a % 16 = 0 ∧ s.frozen (dieOfPa a) = false ∧ (s.ctxOf slot).dirtyEn = false) ∧
    (2 ≤ tgtType w → s.oldAtCore c slot gen = false ∧ (s.core c).waiters = [] ∧
      s.objBad c (tagOf slot gen) (tgtType w == 3) (bits w 0 (if tgtType w = 3 then 5 else 8)) = false))
/-- R202, R203, R411, R414, R415: what a target does to its object: its increment, or with a code the latch. -/
def targetTook (s t : State) (slot gen w : Nat) (code : Code) : Prop :=
  let g := tagOf slot gen
  let c := tgtDie w * 48 + tgtCore w
  let latched (x : Code) (y : Code) : Code := if x = 0 then y else x
  match tgtType w with
  | 0 => True
  | 1 =>
    let l := s.syncLocate (192 + tgtDie w) slot (tgtDie w) (w % 2 ^ 32)
    let v := s.syncGet l g
    t.syncGet l g = if code = 0 then { v with v := v.v + BitVec.ofNat 64 (tgtInc w) } else { v with latch := latched v.latch code }
  | 2 =>
    let p := (s.core c).peg g (bits w 0 8)
    (t.core c).peg g (bits w 0 8) =
      if code = 0 then { p with posted := BitVec.ofNat 64 (min (p.posted.toNat + tgtInc w) (2 ^ 64 - 1)) } else { p with latch := latched p.latch code }
  | _ =>
    let b := (s.core c).bob g (bits w 0 5)
    (t.core c).bob g (bits w 0 5) =
      if code ≠ 0 then { b with latch := latched b.latch code }
      else if b.filled.toNat + tgtInc w ≤ b.claimed.toNat then { b with filled := b.filled + BitVec.ofNat 64 (tgtInc w) }
      else { b with latch := latched b.latch cOperand }

/-- R192, R202 to R204, R219, R245: the end of a group frees its strands, gives each of its two targets (sync variable, peg or bobbin) the
increment or its failing code, posts the trap
record of a failing one, and counts in its launch; the launch's last end sends a decrement to each successor and frees its entry. -/
def groupsEnd : Prop :=
  ∀ (s : State) (gid : Nat) (g : Group) (w1 w2 : Nat),
    let e := s.storeEnt g.ref
    s.group gid = some g → pktTargets g.pkt = [w1, w2] → targetOpen s g.slot g.gen w1 → targetOpen s g.slot g.gen w2 →
    (tgtType w2 = 0 ∨ targetKey s g.slot w1 ≠ targetKey s g.slot w2) →
    (s.canEnd gid g = false → exec (.groupEnd gid) s = .next s) ∧
    (s.canEnd gid g = true → ∃ t, exec (.groupEnd gid) s = .next t ∧ t.group gid = none ∧
      (g.st ≠ .saved → ∀ n ∈ g.strands, (s.strand n).grp = some gid → (t.strand n).grp = none ∧ (t.strand n).st = .free) ∧
      (g.fail = none → targetTook s t g.slot g.gen w1 0 ∧ targetTook s t g.slot g.gen w2 0) ∧
      (∀ r, g.fail = some r → r.latch ≠ 0 → targetTook s t g.slot g.gen w1 r.latch ∧ targetTook s t g.slot g.gen w2 r.latch) ∧
      (g.fail = none → e.st = .live → e.epoch.toNat = refEpoch g.ref → e.failed = 0 →
        (e.ended + 1 < e.total → (t.storeEnt g.ref).ended = e.ended + 1 ∧ (t.storeEnt g.ref).st = .live ∧ t.pkg.decs = s.pkg.decs) ∧
        (e.total ≤ e.ended + 1 → (t.storeEnt g.ref).st = .free ∧ (t.storeEnt g.ref).epoch = e.epoch ∧
          t.pkg.decs = s.pkg.decs ++ ((pktSucc e.pkt).filter refV).map fun x => (x, e.slot, e.gen))) ∧
      (∀ r, g.fail = some r → (s.fn 0).evBuf.length < 64 → ∃ l, (t.fn 0).evBuf = (s.fn 0).evBuf ++ trapBytes g.slot g.gen g.ref g.idx r :: l))

/-- R200, R204, R122: a decrement lowers the count of the pending launch that it names, and the one that brings it to zero makes the launch live;
one that names none, or that a cut has made old, is counted as stray, an old one also as dropped (log entry 75). -/
def decrementsArrive : Prop :=
  ∀ (s : State) (k slot gen : Nat) (r : BitVec 32),
    let old := s.oldAtCore (refDie r * 48) slot gen
    s.pkg.decs[k]? = some (r, slot, gen) →
    (∀ e, old = false → s.pendingEnt r slot gen = some e → ∃ t, exec (.succDecrement k) s = .next t ∧ t.pkg.decs = removeAt s.pkg.decs k ∧
      (t.storeEnt r).pred = e.pred - 1 ∧ (t.storeEnt r).st = if e.pred ≤ 1 then .live else .pending) ∧
    (old = true ∨ s.pendingEnt r slot gen = none → ∃ t, exec (.succDecrement k) s = .next t ∧ t.pkg.decs = removeAt s.pkg.decs k ∧
      (t.die (refDie r)).stray.toNat = min ((s.die (refDie r)).stray.toNat + 1) (2 ^ 32 - 1) ∧
      (t.ctxOf slot).genDrops.toNat = if old then min ((s.ctxOf slot).genDrops.toNat + 1) (2 ^ 32 - 1) else (s.ctxOf slot).genDrops.toNat)

/-- R186, R199 to R210, R219, R227, R229, R245: how groups start and end, and what their ends release. -/
def Obligations.GroupsStartAndEnd : Prop := groupsStart ∧ groupsEnd ∧ decrementsArrive

/-- How often an entry stands in the queues of the hierarchy and in the spill areas. -/
def queued (s : State) (e : QEnt) : Nat :=
  ((List.range 192).map fun c => (s.core c).queue.count e).sum +
  ((List.range 24).map fun b => (Tbl.get Bay.init (s.die (b / 6)).bays (b % 6)).queue.count e).sum +
  ((List.range 4).map fun d => (s.die d).queue.count e + (s.die d).spill.count e).sum

/-- R227, R228: whatever moves between the queues of the task hierarchy and their spill areas, no entry is lost and none is doubled; and a core
whose queue has room takes up to eight entries of its bay. -/
def queueMoves : Prop :=
  (∀ (s : State) (kind src dst : Nat), kind < 7 → ∃ t, exec (.queueBlockMove kind src dst) s = .next t ∧ (∀ e, queued t e = queued s e) ∧
    t.strands = s.strands ∧ t.groups = s.groups ∧ (kind ≠ 4 → t.hbm = s.hbm) ∧ t.ground = s.ground) ∧
  ∀ (s : State) (b c : Nat),
    let q := (Tbl.get Bay.init (s.die (b / 6)).bays (b % 6)).queue
    let l := takeBest (fun e => decide (e.level ≤ 1) && s.mayHold e [c]) 8 q
    c < 192 → bayOfCore c = b → (s.core c).queue.length < 8 → ∃ t, exec (.queueBlockMove 0 b c) s = .next t ∧ l.length ≤ 8 ∧
      (t.core c).queue = (s.core c).queue ++ l ∧ (Tbl.get Bay.init (t.die (b / 6)).bays (b % 6)).queue = without q l

/-- R221 to R223, R232, R438: the registers of a launch queue, and the fetch of the packet at its consumer index. -/
def queuePackets : Prop :=
  ∀ (s : State) (k q : Nat) (pi : BitVec 32) (v : W64),
    let x := s.lqOf k q
    let a := x.base.toNat + 256 * (x.ci.toNat % 2 ^ x.size)
    let p : BitVec 2048 := BitVec.ofNat 2048 (ofLe (s.ringBytes k x.loc a 256))
    let code := s.pktCheck k x.die p
    let w := v.toNat
    let rz := w / 2 ^ 16 = 0 ∧ bits w 8 4 = 0 ∧ bits w 1 3 = 0
    let size := bits w 4 4
    let after (t : State) (r : BitVec 128) : Prop := (t.lqOf k q).ci = x.ci + 1 ∧ (t.lqOf k q).full = false ∧ (t.lqOf k q).waiting = x.waiting ++ [r]
    k ≤ 63 → q ≤ 3 → s.shut k = false →
    (∃ t, exec (.launchQueueDoorbell k q pi) s = .next t ∧ t.lqOf k q = { x with pi := pi }) ∧
    (rz → x.td = false → bit w 15 = false → bit w 0 = false ∨ (4 ≤ size ∧ size ≤ 12) → ∃ t, exec (.launchQueueEnable k q v) s = .next t ∧
      t.lqOf k q = { x with en := bit w 0, size := size, loc := bit w 12, die := bits w 13 2, full := false }) ∧
    (¬rz ∨ x.td = true ∨ (bit w 0 = true ∧ (size < 4 ∨ 12 < size)) → ∃ t, exec (.launchQueueEnable k q v) s = .next t ∧ t.lqOf k q = x ∧
      (t.fn k).badAccess.toNat = min ((s.fn k).badAccess.toNat + 1) (2 ^ 32 - 1)) ∧
    (x.en = true → x.td = false → x.ci ≠ x.pi → x.room = true → s.frozen x.die = false → s.ringFrozen x.loc a = false → s.ringEarly k x.die = false →
      (x.loc = true ∨ s.poisonAt k (s.ctxOf k).gen.toNat (.hbm a) 256 = false) →
      ∃ t, exec (if x.full then .launchRetry k q else .packetFetch k q) s = .next t ∧
        (code = cFull → t.lqOf k q = { x with full := true } ∧ ∀ d, (t.die d).store = (s.die d).store) ∧
        (code = 0 → x.die < 4 → ∃ r : BitVec 32, after t (BitVec.ofNat 128 (1 + r.toNat * 2 ^ 32 + x.ci.toNat * 2 ^ 64)) ∧ refDie r = x.die ∧
          (t.storeEnt r).pkt = p ∧ (t.storeEnt r).q = some q ∧ (t.storeEnt r).st = if pktPred p = 0 then .live else .pending) ∧
        (code ≠ 0 → code ≠ cFull → after t (BitVec.ofNat 128 (2 + code.toNat * 2 ^ 8 + x.ci.toNat * 2 ^ 64)) ∧ ∀ d, (t.die d).store = (s.die d).store))

/-- R223, R224, R232, R254: completion records go to their ring under its turning PHASE bit; a teardown frees what is still pending, ends the groups
that its window leaves with TEARDOWN, and once they are gone says how many with a record of type 4, which clears TD. -/
def queueTeardown : Prop :=
  ∀ (s : State) (k q : Nat),
    let x := s.lqOf k q
    let a := x.cbase.toNat + 16 * (x.cpi.toNat % 2 ^ x.size)
    let g := tagOf k (s.ctxOf k).gen.toNat
    let byte (t : State) (i : Nat) : Byte := if x.loc then Tbl.get 0 t.host (a + i) else t.hbm.byte false g (a + i)
    let none_ := ∀ y ∈ s.groups, y.2.slot = k → y.2.q ≠ some q
    (∀ r l, x.waiting = r :: l → (x.cpi - x.cci).toNat < 2 ^ x.size → s.ringFrozen x.loc a = false → s.ringEarly k x.die = false →
      (x.loc = true ∨ (a + 16 ≤ Config.hbmBytes ∧ ∀ i, i < 16 → s.allowedAt k (s.ctxOf k).gen.toNat (.hbm a) i = true)) →
      ∃ t, exec (.completionRecordWrite k q) s = .next t ∧ (t.lqOf k q).cpi = x.cpi + 1 ∧ (t.lqOf k q).waiting = l ∧
        (∀ i, i < 16 → byte t i = (leBytes 16 (r.toNat + if bit x.cpi.toNat x.size then 0 else 2 ^ 120)).getD i 0) ∧
        (r.toNat % 256 = 4 → (t.lqOf k q).td = false ∧ (t.lqOf k q).en = false) ∧
        (r.toNat % 256 ≠ 4 → (t.lqOf k q).td = x.td ∧ (t.lqOf k q).en = x.en)) ∧
    (k ≤ 63 → q ≤ 3 → s.shut k = false → x.en = true → x.td = false → 4 ≤ x.size → x.size ≤ 12 → x.die < 4 →
      ∃ t, exec (.teardownStart k q) s = .next t ∧ (t.lqOf k q).td = true ∧ (t.lqOf k q).tdUntil = s.ref.toNat + (s.ctxOf k).tdWindow.toNat * 1000 ∧
        ∀ r, s.launchesOf k q = [r] → (s.storeEnt r).st = .pending → pktTargets (s.storeEnt r).pkt = [0, 0] → (pktSucc (s.storeEnt r).pkt).all (refV · == false) = true →
          (t.storeEnt r).st = .free) ∧
    (x.td = true → x.tdUntil ≤ s.ref.toNat → s.launchesOf k q = [] →
      (∀ gid gr, x.tdCount = none → s.groups = [(gid, gr)] → gr.slot = k → gr.q = some q → gr.fail = none → gr.cores ≠ [] →
        ∃ t r h, exec (.teardownWindowExpiry k q) s = .next t ∧ (t.lqOf k q).tdCount = some 1 ∧ t.group gid = some h ∧ h.fail = some r ∧ r.code = cTeardown) ∧
      (∀ n, x.tdCount = some n → none_ → (∀ r ∈ x.waiting, r.toNat % 256 ≠ 4) → ∃ t, exec (.teardownWindowExpiry k q) s = .next t ∧
        (t.lqOf k q).waiting = x.waiting ++ [BitVec.ofNat 128 (4 + cTeardown.toNat * 2 ^ 8 + n % 2 ^ 32 * 2 ^ 64)])) ∧
    (x.td = false ∨ s.ref.toNat < x.tdUntil → exec (.teardownWindowExpiry k q) s = .next s)

/-- R221 to R232, R438: the queues of the task hierarchy and those of the host. -/
def Obligations.QueuesKeepTheirEntries : Prop := queueMoves ∧ queuePackets ∧ queueTeardown
/-! ### Pre-emption (R212, R213, R230, R231, R247 to R252) -/

/-- R120, R248, R249: a core's choice: none while a strand of the group is stalled in GEN.ADV; else a drain when it ends in time; else a save when it is possible and no discard is permitted; else a discard
when it is permitted and no save possible; else none. -/
def coresChoose : Prop :=
  ∀ (s : State) (gid c : Nat) (g : Group),
    let advances := ∃ n ∈ g.strands, (s.strand n).stall = 3
    let inTime := ∃ d, s.drainIn g c = some d ∧ d ≤ s.preemptDl g.slot
    (advances → s.choose gid g c = 0) ∧
    (¬advances → (inTime → s.choose gid g c = 1) ∧
    (¬inTime → s.saveOk g = true → s.discardOk g = false → s.choose gid g c = 2) ∧
    (¬inTime → s.saveOk g = false → s.discardOk g = true → s.choose gid g c = 3) ∧
    (¬inTime → s.saveOk g = false → s.discardOk g = false → s.choose gid g c = 0) ∧
    (¬inTime → s.saveOk g = true → s.discardOk g = true → ∃ k, s.discardCost g c = some k ∧
      s.choose gid g c = if 2 * s.saveCost gid g c ≤ k then 2 else 3))

/-- R212, R230, R231, R249, R252: a core that waits for a more urgent group, or for one of a slot with time left, has the group on it asked; a core that
chooses a save stops its strands where they are, one that drains holds each at its safe point, and when the deadline has passed turns to
a save if one is possible then, and else drains on; a group that holds its cores too long ends with WATCHDOG. -/
def groupsAreAsked : Prop :=
  ∀ (s : State) (gid c : Nat) (g : Group),
    let held (t : State) : Prop := ∀ n ∈ g.on c, (s.strand n).st = .running → (t.strand n).st = .blocked ∧ (t.strand n).atSafe = true
    s.group gid = some g → g.st = .running → g.fail = none → g.cores = [c] →
    (pktKind g.pkt ≠ 2 → g.dbgSince = none → g.pre = none →
      ((s.charge c).wantsOut g c = true → ∃ t h, exec (.preemptRequest gid) s = .next t ∧ t.group gid = some h ∧ h.pre = some s.cycle ∧
        Tbl.get 0 h.choice c = s.choose gid g c ∧ (s.choose gid g c = 2 → held t)) ∧
      ((s.charge c).wantsOut g c = false → exec (.preemptRequest gid) s = .next (s.charge c))) ∧
    (∀ n, (s.strand n).grp = some gid → coreOf n = c → (s.strand n).st = .running → (s.strand n).atSafe = true →
      (g.pre = none → ∃ t, exec (.safePointArrival n) s = .next t ∧ (t.strand n).atSafe = false ∧ (t.strand n).st = .running) ∧
      (g.pre.isSome = true → g.dbgSince = none → Tbl.get 0 g.choice c = 1 ∨ Tbl.get 0 g.choice c = 4 → ∃ t, exec (.safePointArrival n) s = .next t ∧ (t.strand n).atSafe = true ∧
        (t.strand n).st = .blocked)) ∧
    (∀ k, g.pre = some k → g.dbgSince = none → Tbl.get 0 g.choice c = 1 →
      (k + s.preemptDl g.slot ≤ s.cycle → (∃ n ∈ g.on c, (s.strand n).atRest = false) →
        (s.saveOk g = true →
          ∃ t h, exec (.preemptDeadlineExpiry gid c) s = .next t ∧ t.group gid = some h ∧ Tbl.get 0 h.choice c = 2 ∧ held t) ∧
        (s.saveOk g = false →
          ∃ t h, exec (.preemptDeadlineExpiry gid c) s = .next t ∧ t.group gid = some h ∧ Tbl.get 0 h.choice c = 4 ∧ t.strands = s.strands)) ∧
      (s.cycle < k + s.preemptDl g.slot → exec (.preemptDeadlineExpiry gid c) s = .next s)) ∧
    (∀ k, g.pre = some k → g.dbgSince = none →
      (k + 4 * (s.ctxOf g.slot).schedSlice.toNat * 3000 ≤ s.cycle → ∃ t h r, exec (.preemptWatchdog gid) s = .next t ∧ t.group gid = some h ∧
        h.fail = some r ∧ r.code = cWatchdog) ∧
      (s.cycle < k + 4 * (s.ctxOf g.slot).schedSlice.toNat * 3000 → exec (.preemptWatchdog gid) s = .next s))

/-- R18, R250, R251: a save writes the strands' records into the lowest free frame, under the group's tag in its slot's heap as the core
translates it, frees its strands and queues the group; a restore gives each strand the PC and the scalars of its record, and its frame back. -/
def framesHoldStrands : Prop :=
  ∀ (s : State) (gid c f : Nat) (g : Group),
    let t0 := tagOf g.slot g.gen
    let base := s.frameAt c g.slot f
    let kind := Tbl.get 0 g.choice 0
    let bad (r : Nat × Nat) : Bool := s.coreBad c g.slot g.gen [] (.hbm (base + r.1)) r.2
    let word (j o : Nat) : W64 := BitVec.ofNat 64 (ofLe (s.coreBytes c g.slot g.gen [] (.hbm (base + 0x100 + 0x400 * j + o)) 8))
    (∀ a ∈ s.flight, a.why ≠ .commit (dieOfCore c)) → s.group gid = some g → g.fail = none → g.cores = [c] → (g.on c).length ≤ 4 → (g.on c).Nodup → (g.on c) = g.strands →
    (g.st = .running → g.pre.isSome = true → s.coreDone gid g c = true → s.frameRun g.slot 1 = some f → s.framesIn c g.slot f 1 = true → s.frameFrozen c g.slot f = false →
      (s.die (queueDie g.ref g.level)).queue.length < 4096 → (s.ctxOf g.slot).dirtyEn = false →
      (∀ i, i < frameBytes → s.coreOk c g.slot g.gen [] true (.hbm base) i = true) →
      ∃ t h, exec (.saveComplete gid) s = .next t ∧ t.group gid = some h ∧ h.st = .saved ∧ h.frame0 = some f ∧
        find (t.ctxOf g.slot).frames f = some gid ∧ (∀ n ∈ g.strands, (t.strand n).grp = none ∧ (t.strand n).st = .free) ∧
        ∀ n, g.strands.head? = some n → Tbl.get 0 g.choice c = 2 →
          ofLe (t.hbm.read false t0 (base + 0x100) 8) = ((s.strand n).getPc t0).toNat ∧
          ∀ i, i < 63 → ofLe (t.hbm.read false t0 (base + 0x100 + 112 + 8 * i) 8) = ((s.strand n).s t0 (i + 1)).toNat) ∧
    (g.st = .restoring → g.frame0 = some f → s.framesIn c g.slot f 1 = true → s.frameFrozen c g.slot f = false → g.copies = [] →
      (g.ranges kind (g.on c).length 0).all (fun r => !(bad r)) = true →
      ∃ t h, exec (.restore_ gid) s = .next t ∧ t.group gid = some h ∧ h.st = .running ∧ h.frame0 = none ∧
        ∀ j n, g.strands[j]? = some n → (t.strand n).getPc t0 = word j 0 ∧ (∀ i, i < 63 → (t.strand n).s t0 (i + 1) = word j (112 + 8 * i)) ∧
          (∀ i, i < 7 → (t.strand n).p t0 (i + 1) = word j (48 + 8 * i)))

/-- R212, R213, R230, R231, R247 to R252: how a running group is taken from its cores and comes back. -/
def Obligations.PreemptionKeepsStrands : Prop := coresChoose ∧ groupsAreAsked ∧ framesHoldStrands
/-! ### The generation sequencer and the administrator's registers (R12, R13, R18, R47, R51, R52, R72, R83, R93, R94, R103, R106, R120 to R123, R225, R258) -/

/-- R120 to R123, R225: a generation advance: refused outside the window; else the generation rises, the slot's peer windows and launch queues close, the
dies cut before the cores, a command with an access held on a fault record of a die ends with GEN_RETIRED at that die's cut (log entry 75), and the strand that asked goes on with the new generation when every unit has cut. -/
def generationsAdvance : Prop :=
  ∀ (s : State) (k n d len : Nat) (r : SeqRun),
    let x := s.ctxOf k
    let g := s.tagOfStrand n
    let answered (t : State) (v : Nat) : Prop := n < 768 → (t.strand n).stall = 0 ∧ (t.strand n).getPc g = s.getPc n + BitVec.ofNat 64 len ∧
      (d ≠ 0 → (t.strand n).s g d = BitVec.ofNat 64 v)
    (∀ l, s.pkg.seqRun = none → s.pkg.seqQ = .genAdv k n d len :: l →
      (511 < (x.gen - x.genLw).toNat → ∃ t, exec .genAdvAccept s = .next t ∧ t.pkg.seqQ = l ∧ t.pkg.seqRun = none ∧ (t.ctxOf k).gen = x.gen ∧
        answered t (cGenWindow.toNat + x.gen.toNat * 2 ^ 8)) ∧
      ((x.gen - x.genLw).toNat ≤ 511 → ∃ t, exec .genAdvAccept s = .next t ∧ t.pkg.seqQ = l ∧ (t.ctxOf k).gen = x.gen + 1 ∧
        (∀ j, j ≠ k → t.ctxOf j = s.ctxOf j) ∧ t.pkg.seqRun = some ⟨.genAdv k n d len, [0, 1, 2, 3], List.range 192⟩ ∧
        (∀ w, (s.window w).owner = k → (t.window w).v = false) ∧ (∀ q, (t.lqOf k q).en = false) ∧ t.hbm = s.hbm ∧ t.ground = s.ground)) ∧
    (s.pkg.seqRun = some r → r.req = .genAdv k n d len →
      (∀ e, r.dies.contains e = true → s.heldAt e k = [] → ∃ t, exec (.dieCut e) s = .next t ∧ t.pkg.seqRun = some { r with dies := r.dies.filter (· != e) } ∧
        (∀ y ∈ (t.die e).frecs, y.slot ≠ k) ∧ (∀ y ∈ (t.die e).walks, y.slot ≠ k) ∧ (∀ y ∈ (t.die e).syncWaits, y.slot ≠ k) ∧
        (∀ y ∈ (s.die e).syncWaits, y.slot = k → (t.strand y.strand).swait = false) ∧ (s.pkg.held = [] → t.hbm = s.hbm) ∧
        (r.dies = [e] → ∀ i, (s.borrow i).slot = k → (t.borrow i).st = 0)) ∧
      (∀ e p ea q op f, r.dies.contains e = true → s.heldAt e k = [(p, ea)] → s.copyOf p.1 p.2.1 = some q → q.slot = k → q.quiet = false → q.op ≠ 0xAD → q.node = none →
        q.ins.form = .c op f → f.ct = 0 → f.post ≠ 0xFF → r.cores.contains p.1 = true →
        let w := tagOf q.slot q.gen
        let ix := f.post.toNat
        s.objBad p.1 w false ix = false → ((s.core p.1).peg w ix).latch = 0 → (s.core p.1).waiters = [] →
        ∃ t u, exec (.dieCut e) s = .next t ∧ t.copyOf p.1 p.2.1 = some u ∧ u.quiet = true ∧ ((t.core p.1).peg w ix).latch = cGenRetired) ∧
      (∀ c, r.dies = [] → r.cores.contains c = true → ∃ t, exec (.coreCut c) s = .next t ∧
        t.pkg.seqRun.map (·.cores) = some (r.cores.filter (· != c)) ∧
        ∀ gid gr, s.groups = [(gid, gr)] → gr.slot = k → gr.st ≠ .saved → gr.cores = [c] → t.group gid = none ∧ ∀ m ∈ gr.on c, (t.strand m).grp = none) ∧
      (∀ c, r.dies ≠ [] → exec (.coreCut c) s = .next s) ∧
      (r.dies = [] → r.cores = [] → ∃ t, exec .sequencerChangeDone s = .next t ∧ t.pkg.seqRun = none ∧ answered t (x.gen.toNat * 2 ^ 8)) ∧
      (r.dies ≠ [] ∨ r.cores ≠ [] → exec .sequencerChangeDone s = .next s))

/-- R13, R18, R47, R72, R93, R258: the writes that the sequencer carries: a value that may not stand changes nothing; one that may stands at once, but
each unit uses the old one until its cut. -/
def registersChangeByCuts : Prop :=
  ∀ (s : State) (k u i : Nat) (v : W64),
    let x := s.ctxOf k
    let w := v.toNat
    let heap := (x.heapBase.toNat, x.heapLimit.toNat, x.heapOff.toNat)
    let sync := (x.syncLimit.toNat, x.sramBase.toNat, x.sramLen.toNat, x.ovfBase.toNat)
    k ≤ 63 → s.seqIdle = true →
    (∀ h, h ≤ 2 →
      let new := (if h = 0 then w else heap.1, if h = 1 then w else heap.2.1, if h = 2 then w else heap.2.2)
      let ok := w < 2 ^ (if h = 0 then 56 else 40) ∧ s.heapOk k new.1 new.2.1 new.2.2 = true
      (ok → ∃ t, exec (.heapWindowWrite h k v) s = .next t ∧ (∀ c, c < 192 → t.heapTriple c k = heap) ∧
        ((t.ctxOf k).heapBase.toNat, (t.ctxOf k).heapLimit.toNat, (t.ctxOf k).heapOff.toNat) = new ∧
        t.pkg.seqRun = some ⟨.heap k new.1 new.2.1 new.2.2, [], List.range 192⟩) ∧
      (¬ok → exec (.heapWindowWrite h k v) s = .next s)) ∧
    (∀ h, h ≤ 3 →
      let new := (if h = 0 then w else sync.1, if h = 1 then w else sync.2.1, if h = 2 then w else sync.2.2.1, if h = 3 then w else sync.2.2.2)
      let ok := w < 2 ^ (match h with | 0 => 32 | 1 => 23 | 2 => 23 | _ => 40) ∧ s.syncOk k new.1 new.2.1 new.2.2.1 new.2.2.2 = true
      (ok → ∃ t, exec (.syncWindowWrite h k v) s = .next t ∧ (∀ c, c < 196 → t.syncWindow c k = sync) ∧
        ((t.ctxOf k).syncLimit.toNat, (t.ctxOf k).sramBase.toNat, (t.ctxOf k).sramLen.toNat, (t.ctxOf k).ovfBase.toNat) = new) ∧
      (¬ok → exec (.syncWindowWrite h k v) s = .next s)) ∧
    (w < 2 → ∃ t, exec (.dirtySelWrite v) s = .next t ∧ t.pkg.dirtySel = (v == 1) ∧ t.pkg.dirtyShown = s.pkg.dirtyShown ∧
      ∀ d, d < 4 → t.dirtyHalf d = s.pkg.dirtyShown) ∧
    (2 ≤ w → exec (.dirtySelWrite v) s = .next s) ∧
    (i ≤ 7 → (w ≤ 0xD → ∃ t, exec (.perfSelWrite k i v) s = .next t ∧ Tbl.get (0 : BitVec 16) (t.ctxOf k).perfSel i = v.setWidth 16 ∧
        ∀ c, c < 192 → t.perfSelOf c k i = (Tbl.get (0 : BitVec 16) x.perfSel i).toNat) ∧
      (0xD < w → exec (.perfSelWrite k i v) s = .next s)) ∧
    (u < 248 → (w < 256 → s.ownerOk u w = true → ∃ t, exec (.ownerTableWrite u v) s = .next t ∧ t.owner u = w ∧ (∀ d, d < 4 → t.ownerFor d u = s.owner u) ∧
        ∀ b, b ≠ u → t.owner b = s.owner b) ∧
      (256 ≤ w ∨ s.ownerOk u w = false → exec (.ownerTableWrite u v) s = .next s))

/-- R18, R47, R72, R93, R258: a unit's cut: it uses the new values from then on, and the change is over when every unit has cut. -/
def unitsCut : Prop :=
  ∀ (s : State) (r : SeqRun) (u k : Nat),
    s.pkg.seqRun = some r →
    (u < 192 → r.cores.contains u = true →
      (∀ a b c, r.req = .heap k a b c → ∃ t, exec (.configChangeCut u) s = .next t ∧
        t.heapTriple u k = ((s.ctxOf k).heapBase.toNat, (s.ctxOf k).heapLimit.toNat, (s.ctxOf k).heapOff.toNat) ∧
        t.pkg.seqRun = some { r with cores := r.cores.filter (· != u) }) ∧
      (∀ i old, r.req = .perfSel k i old → ∃ t, exec (.configChangeCut u) s = .next t ∧ Tbl.get zCnt (t.core u).perf (k * 8 + i) = zCnt ∧
        t.perfSelOf u k i = (Tbl.get (0 : BitVec 16) (s.ctxOf k).perfSel i).toNat)) ∧
    ((u < 192 ∧ r.cores.contains u = true) ∨ (192 ≤ u ∧ r.dies.contains (u - 192) = true) → ∀ a b c e, r.req = .sync k a b c e →
      ∃ t, exec (.configChangeCut u) s = .next t ∧ t.syncWindow u k =
        ((s.ctxOf k).syncLimit.toNat, (s.ctxOf k).sramBase.toNat, (s.ctxOf k).sramLen.toNat, (s.ctxOf k).ovfBase.toNat)) ∧
    (∀ b v old d, r.req = .owner b v old → d < 4 → r.dies.contains d = true → ∃ t, exec (.configChangeCut (192 + d)) s = .next t ∧
      t.ownerFor d b = s.owner b) ∧
    (∀ d v, r.req = .dirtySel v → r.dies.contains d = true → ∃ t, exec (.configChangeCut (192 + d)) s = .next t ∧ t.dirtyHalf d = v) ∧
    (r.dies = [] → r.cores = [] → (∀ v, r.req = .dirtySel v → ∃ t, exec .sequencerChangeDone s = .next t ∧ t.pkg.dirtyShown = v ∧ t.pkg.seqRun = none))

/-- R51, R52, R83, R94, R105, R106: the other registers of the administrator: a new slope keeps TIME; TIME_OFF may not make it fall, and a write
that is checked uses the exemption of an advance up; ERR_MODE changes with
nothing in flight; a window opens on memory of its owner; a multicast group is installed whole. -/
def adminRegistersWrite : Prop :=
  ∀ (s : State) (k i : Nat) (v : W64) (x : BitVec 128) (y : BitVec 256),
    (k ≤ 63 → ∃ t, exec (.timeScaleWrite k v) s = .next t ∧ (t.ctxOf k).timeScale = v ∧ t.timeOf k = s.timeOf k) ∧
    (k ≤ 63 → (s.timeOf k).toNat ≤ (scaledTime s.ref (s.ctxOf k).timeScale + v).toNat → ∃ t, exec (.timeOffWrite k v) s = .next t ∧
      (t.ctxOf k).timeOff = v ∧ t.timeOf k = scaledTime s.ref (s.ctxOf k).timeScale + v) ∧
    (k ≤ 63 → (s.ctxOf k).timeExempt = false ∨ s.slotInFlight k = true ∨ (∃ q ∈ (s.fn k).lq, q.2.en = true) →
      (scaledTime s.ref (s.ctxOf k).timeScale + v).toNat < (s.timeOf k).toNat → ∃ t, exec (.timeOffWrite k v) s = .next t ∧
      t.ctxOf k = { s.ctxOf k with timeExempt := false } ∧ ∀ j, j ≠ k → t.ctxOf j = s.ctxOf j) ∧
    (v.toNat < 2 → s.anyInFlight = false → ∃ t, exec (.errModeWrite v) s = .next t ∧ t.pkg.errMode = (v == 1)) ∧
    (2 ≤ v.toNat ∨ s.anyInFlight = true → exec (.errModeWrite v) s = .next s) ∧
    (i < 64 →
      let w := windowOf x
      let ok := bits x.toNat 83 45 = 0 ∧ bits x.toNat 0 16 = 0 ∧ (w.v = true → s.ownsRange w.owner (w.base * 65536) (w.len * 65536) = true)
      (ok → ∃ t, exec (.peerWindowWrite i x) s = .next t ∧ t.window i = w ∧ ∀ j, j ≠ i → t.window j = s.window j) ∧
      (¬ok → exec (.peerWindowWrite i x) s = .next s)) ∧
    (i < 16384 →
      let ok := bits y.toNat 16 16 = 0 ∧ bits y.toNat 192 64 = 0 ∧ bits y.toNat 0 8 ≤ 16 ∧ bits y.toNat 8 8 ≤ 63
      (ok → ∃ t, exec (.multicastGroupWrite i y) s = .next t ∧ t.mcastOf (i / 4096) (i / 64 % 64) (i % 64) (s.slotTag (i / 64 % 64)) = y.toNat) ∧
      (¬ok → exec (.multicastGroupWrite i y) s = .next s))

/-- R12, R13, R18, R47, R51, R52, R72, R83, R93, R94, R103, R106, R120 to R123, R225, R258: what the sequencer and the administrator change, and when. -/
def Obligations.ChangesTakeEffectByCuts : Prop := generationsAdvance ∧ registersChangeByCuts ∧ unitsCut ∧ adminRegistersWrite
/-! ### Scrubbing, sweeping, refresh and channels (R55, R77 to R82, R85, R87, R89 to R91, R97, R125 to R127) -/

/-- R110, R439: the administrator is told of a device event, if its function's buffer has room. -/
def toldOf (s t : State) (code slot : Nat) : Prop :=
  (s.fn 0).evBuf.length < 64 →
    ∃ x y, (t.fn 0).evBuf = (s.fn 0).evBuf ++ [record [(1, 3), (1, code), (1, slot), (5, 0), (8, x), (8, s.ref.toNat), (8, y)]]

/-- R77, R79, R80, R125: a scrubber's visit to a 32-byte word of the ground, and so to its granule: a granule more than 511 generations old, or poisoned and not current, takes the zero
state; an uncorrectable error of the data poisons it; one of its tag gives it, poisoned, to the slot whose cores hold it (the lowest of several: log entry 101); every other granule stays. In
fixed-freeze mode the die freezes and the word is as it was. -/
def groundIsScrubbed : Prop :=
  ∀ (s : State) (a0 : Nat),
    let g := a0 / 2
    let e := s.ground.gran (g * 64)
    let c := g * 64 / Config.sliceBytes
    let old := decide (511 < s.age e.tag)
    let wiped (t : State) : Prop := t.ground.gran (g * 64) = Gran.zero ∧ ∀ a, a / 64 = g → t.ground.raw a = 0
    let rest (t : State) : Prop := ∀ a, a / 64 ≠ g → t.ground.gran a = s.ground.gran a ∧ t.ground.raw a = s.ground.raw a
    let kept (t : State) : Prop := ∀ a, a / 64 = g → t.ground.raw a = s.ground.raw a
    let same (t : State) : Prop := t.ground.gran (g * 64) = e ∧ kept t ∧ rest t
    c < 192 → e.lease = false →
    (∃ t, exec (.sliceScrubVisit 0 a0 0) s = .next t ∧
      (if old = true ∨ (e.poison = true ∧ s.age e.tag ≠ 0) then wiped t ∧ rest t else same t) ∧ t.pkg.visited.contains (.array 0 a0) = true) ∧
    (∃ t, exec (.sliceScrubVisit 0 a0 1) s = .next t ∧ (old = false → e.poison = false → same t) ∧
      ((s.die (dieOfCore c)).ceSlice ≠ BitVec.allOnes 32 → (t.die (dieOfCore c)).ceSlice = (s.die (dieOfCore c)).ceSlice + 1)) ∧
    (s.pkg.errMode = false →
      (∃ t, exec (.sliceScrubVisit 0 a0 2) s = .next t ∧ rest t ∧
        (if s.age e.tag = 0 then t.ground.gran (g * 64) = ⟨e.tag, false, true⟩ ∧ kept t else wiped t)) ∧
      (∃ t, exec (.sliceScrubVisit 0 a0 3) s = .next t ∧ rest t ∧
        (match s.coreOwner c with
          | some k => t.ground.gran (g * 64) = ⟨s.slotTag k, false, true⟩ ∧ kept t ∧ toldOf s t 0x60 k
          | none => wiped t ∧ toldOf s t 0x60 0))) ∧
    (s.pkg.errMode = true → ∀ err, err = 2 ∨ err = 3 →
      ∃ t, exec (.sliceScrubVisit 0 a0 err) s = .next t ∧ t.frozen (dieOfCore c) = true ∧ (old = false → e.poison = false → same t))

/-- R79, R85, R90, R97, R125: the memory scrubber's visit to a granule; beneath a dirty sector of a bay it changes only what HBM holds there. -/
def memoryIsScrubbed : Prop :=
  ∀ (s : State) (g : Nat),
    let e := s.hbm.gran (g * 64)
    let c := s.channelOf (g * 64)
    let key := c.1 * 32 + c.2
    let unc := Tbl.get 0 s.pkg.chanUnc key
    let wiped (t : State) : Prop := t.hbm.gran (g * 64) = Gran.zero ∧ ∀ a, a / 64 = g → t.hbm.raw a = 0
    let rest (t : State) : Prop := ∀ a, a / 64 ≠ g → t.hbm.gran a = s.hbm.gran a ∧ t.hbm.raw a = s.hbm.raw a
    let same (t : State) : Prop := t.hbm.gran (g * 64) = e ∧ (∀ a, a / 64 = g → t.hbm.raw a = s.hbm.raw a) ∧ rest t
    let seen (t : State) : Prop := t.pkg.visited.contains (.hbm g) = true
    g * 64 < Config.hbmBytes →
    (s.dirtyBay none (g * 64) ≠ none → ∃ t, exec (.hbmScrubVisit g 0) s = .next t ∧ t.hbm = s.hbm ∧ seen t) ∧
    (s.dirtyBay none (g * 64) = none →
    (e.lease = false → ∃ t, exec (.hbmScrubVisit g 0) s = .next t ∧
      (if 511 < s.age e.tag ∨ (e.poison = true ∧ s.age e.tag ≠ 0) then wiped t ∧ rest t else same t) ∧ seen t) ∧
    (e.lease = true → ∃ t, exec (.hbmScrubVisit g 0) s = .next t ∧
      (if s.leaseHolds g e.tag = true then same t else wiped t ∧ rest t)) ∧
    (∃ t, exec (.hbmScrubVisit g 1) s = .next t ∧ rest t ∧ t.pkg.chanUnc = s.pkg.chanUnc ∧
      (Tbl.get 0 s.pkg.chanCorr key ≠ BitVec.allOnes 32 → Tbl.get 0 t.pkg.chanCorr key = Tbl.get 0 s.pkg.chanCorr key + 1)) ∧
    (unc + 1 ≠ 64 → ∃ t, exec (.hbmScrubVisit g 2) s = .next t ∧ rest t ∧ Tbl.get 0 t.pkg.chanUnc key = unc + 1 ∧ t.pkg.stk = s.pkg.stk ∧
      (e.lease = false → s.age e.tag = 0 → t.hbm.gran (g * 64) = ⟨e.tag, false, true⟩)) ∧
    (unc + 1 = 64 → (s.stackOf c.1).st = 0 → ∃ t, exec (.hbmScrubVisit g 2) s = .next t ∧ t.stackOf c.1 = ⟨1, c.2, 0⟩))

/-- R90, R91: a stack retires one channel, whatever asks for it; a second failure poisons what has no surviving copy; the rebuild goes stripe by stripe. -/
def channelsRetire : Prop :=
  ∀ (s : State) (st ch : Nat) (v : W64),
    let x := s.stackOf st
    let retired (t : State) : Prop := t.stackOf st = ⟨1, ch, 0⟩ ∧ toldOf s t 0x52 0 ∧ t.hbm = s.hbm ∧ ∀ j, j ≠ st → t.stackOf j = s.stackOf j
    let failed (t : State) : Prop := t.stackOf st = ⟨3, x.retCh, x.rbPtr⟩ ∧ toldOf s t 0x53 0 ∧ t.hbm.bytes = s.hbm.bytes ∧
      ∀ g, g * 64 < Config.hbmBytes → s.dirtyBay none (g * 64) = none → t.hbm.gran (g * 64) =
        { s.hbm.gran (g * 64) with poison := (s.hbm.gran (g * 64)).poison || s.granLost st ch g }
    st < 8 → ch < 32 →
    (v = BitVec.ofNat 64 (st * 32 + ch) → x.st = 0 → ∃ t, exec (.chanRetireWrite v) s = .next t ∧ retired t) ∧
    (v = BitVec.ofNat 64 (st * 32 + ch) ∧ x.st ≠ 0 ∨ 256 ≤ v.toNat → exec (.chanRetireWrite v) s = .next s) ∧
    (x.st = 0 → ∃ t, exec (.channelTrainingFail st ch) s = .next t ∧ retired t) ∧
    (x.st = 0 → exec (.chanSecondFail st ch) s = .next s) ∧
    (x.st = 1 ∨ x.st = 2 → x.retCh ≠ ch → (∃ t, exec (.channelTrainingFail st ch) s = .next t ∧ failed t) ∧
      ∃ t, exec (.chanSecondFail st ch) s = .next t ∧ failed t) ∧
    (x.st = 1 → ∃ t, exec (.stripeRebuild st) s = .next t ∧ t.stackOf st = ⟨if x.rbPtr + 1 = 0x800000 then 2 else 1, x.retCh, x.rbPtr + 1⟩ ∧
      t.hbm = s.hbm) ∧
    (x.st ≠ 1 → exec (.stripeRebuild st) s = .next s)

/-- R55, R87: refresh debts rise at each boundary and fall with each refresh; a bank at 9 forces its pseudo-channel's burst, which lasts until no debt is
left. -/
def banksRefresh : Prop :=
  ∀ (s : State) (b st i w : Nat),
    let x := s.mbank b
    let here (b : Nat) : Prop := b / 256 % 4 < Config.pseudoChannels ∧ b % 256 < Config.memBanks
    exec (.bankStarvation b i w) s = .next s ∧
    (st < 8 → ∃ t, exec (.refreshWindowBoundary st) s = .next t ∧ (b / 2 ^ 15 ≠ st → t.mbank b = x) ∧
      (b / 2 ^ 15 = st → here b → (t.mbank b).debt = min 9 (x.debt + 1) ∧ (t.mbank b).track = x.track ∧
        (8 ≤ x.debt → (t.mbank b).burst = true) ∧
        ((∀ c, c / 256 = b / 256 → (s.mbank c).debt < 8) → (t.mbank b).burst = x.burst ∧ (t.mbank b).busy = x.busy))) ∧
    (x.debt ≠ 0 → x.busy = false → ∃ t, exec (.perBankRefresh b) s = .next t ∧ t.mbank b = { x with busy := true } ∧ ∀ c, c ≠ b → t.mbank c = s.mbank c) ∧
    (x.debt = 0 ∨ x.busy = true → exec (.perBankRefresh b) s = .next s) ∧
    (x.busy = false → exec (.refreshEnd b) s = .next s) ∧
    (x.busy = true → x.burst = false → ∃ t, exec (.refreshEnd b) s = .next t ∧ t.mbank b = { x with debt := x.debt - 1, busy := false } ∧
      ∀ c, c ≠ b → t.mbank c = s.mbank c) ∧
    (x.busy = true → x.burst = true → ∃ t, exec (.refreshEnd b) s = .next t ∧
      (∀ c, c / 256 = b / 256 → c % 256 < Config.memBanks → (t.mbank c).debt = (s.mbank c).debt - 1 ∧
        ((∀ e, e / 256 = b / 256 → (s.mbank e).debt ≤ 1) → (t.mbank c).burst = false ∧ (t.mbank c).busy = false) ∧
        (1 < (s.mbank c).debt → (t.mbank c).burst = (s.mbank c).burst ∧ (t.mbank c).busy = (s.mbank c).busy)) ∧
      ∀ c, c / 256 ≠ b / 256 → t.mbank c = s.mbank c)

/-- R89: the trackers of a bank: activations are counted by row, attributed by confidence; the least-counted gives way where all are taken; and one
that reaches DIST_LIMIT is mitigated and charged to the slot that it is then attributed to. -/
def activationsAreTracked : Prop :=
  ∀ (s : State) (b row slot r n o c : Nat) (p q : List Track),
    let x := s.mbank b
    let l := s.pkg.distLimit.toNat
    let own := if o = slot ∨ c ≤ 1 then slot else o
    let sure := if o = slot then min 15 (c + 1) else if c ≤ 1 then 1 else c - 1
    let limit (k conf : Nat) : Prop :=
      let m := Tbl.get 0 x.mitig k + 1
      ∃ t, exec (.rowActivation b row slot) s = .next t ∧ Tbl.get 0 (t.mbank b).mitig k = m ∧ (∀ j, j ≠ k → Tbl.get 0 (t.mbank b).mitig j = Tbl.get 0 x.mitig j) ∧
        (t.ctxOf k).bwCharge = (s.ctxOf k).bwCharge + 32768 ∧ (t.mbank b).track.find? (·.row == row) = some ⟨row, 0, k, conf⟩ ∧
        (m = s.pkg.distThrottle.toNat → (t.mbank b).throttled.contains k = true ∧ toldOf s t 0x51 k) ∧
        (m ≠ s.pkg.distThrottle.toNat → (t.mbank b).throttled = x.throttled)
    let gives (tr : List Track) : Prop :=
      ∃ t, exec (.rowActivation b row slot) s = .next t ∧ t.mbank b = { x with track := tr } ∧ ∀ j, j ≠ b → t.mbank j = s.mbank j
    (∀ e ∈ p, e.row ≠ row) →
    (x.track = p ++ [⟨row, n, o, c⟩] ++ q → (n + 1 < l → gives (p ++ [⟨row, n + 1, own, sure⟩] ++ q)) ∧ (l ≤ n + 1 → limit own sure)) ∧
    (x.track = p → p.length < 16 → (1 < l → gives (p ++ [⟨row, 1, slot, 1⟩])) ∧ (l ≤ 1 → limit slot 1)) ∧
    (x.track = p ++ [⟨r, n, o, c⟩] ++ q → r ≠ row → (∀ e ∈ p, n < e.count) → (∀ e ∈ q, n ≤ e.count ∧ e.row ≠ row) → x.track.length = 16 →
      (n + 1 < l → gives (p ++ [⟨row, n + 1, slot, 1⟩] ++ q)) ∧ (l ≤ n + 1 → limit slot 1)) ∧
    ∃ t, exec (.disturbIntervalReset b) s = .next t ∧ t.mbank b = { x with track := [], mitig := [], throttled := [] } ∧ ∀ j, j ≠ b → t.mbank j = s.mbank j

/-- R78, R81, R97, R125 to R127: the tag sweepers zero what is more than 511 generations old and nothing else; a pass ends when every element has
been visited, and then every slot's GEN_LW takes the generation recorded at its beginning. -/
def sweepsEndPasses : Prop :=
  ∀ (s : State) (n i : Nat) (e : Elem) (g : Tag) (p : Bool),
    (s.elemTag e = none ∨ (s.elemTag e = some (g, p) ∧ s.age g ≤ 511) → exec (.tagSweepVisit e) s = .next (s.seenAt (.elem (s.nameOf e)))) ∧
    (∀ x y, (s.seenAt x).pkg.visited.contains y = (y == x || s.pkg.visited.contains y)) ∧
    (s.elemTag (.scalar n i) = some (g, p) → 511 < s.age g → ∃ t, exec (.tagSweepVisit (.scalar n i)) s = .next t ∧
      Tbl.get zReg (t.strand n).sregs i = zReg ∧ (∀ j, j ≠ i → Tbl.get zReg (t.strand n).sregs j = Tbl.get zReg (s.strand n).sregs j) ∧
      ∀ m, m ≠ n → t.strand m = s.strand m) ∧
    (s.elemTag (.peg n i) = some (g, p) → 511 < s.age g → ∃ t, exec (.tagSweepVisit (.peg n i)) s = .next t ∧
      Tbl.get zPeg (t.core n).pegs i = zPeg ∧ ∀ j, j ≠ i → Tbl.get zPeg (t.core n).pegs j = Tbl.get zPeg (s.core n).pegs j) ∧
    (s.elemTag (.twin n i) = some (g, p) → 511 < s.age g → ∃ t, exec (.tagSweepVisit (.twin n i)) s = .next t ∧
      Tbl.get zTwin (t.die n).twins i = zTwin ∧ ∀ m, m ≠ n → t.die m = s.die m) ∧
    ((∀ x ∈ s.sites, x ∈ s.pkg.visited) → ∃ t, exec .sweepPassEnd s = .next t ∧ t.pkg.low = s.pkg.lgen ∧ t.pkg.chanUnc = [] ∧ t.pkg.visited = [] ∧
      (∀ d, d < 4 → (t.die d).ceSeen = []) ∧
      ∀ k, k < 64 → t.ctxOf k = { s.ctxOf k with genLw := Tbl.get 0 s.pkg.passGen k } ∧ Tbl.get 0 t.pkg.passGen k = (s.ctxOf k).gen) ∧
    ((∃ x ∈ s.sites, x ∉ s.pkg.visited) → exec .sweepPassEnd s = .next s)

/-- R55, R77 to R82, R85, R87, R89 to R91, R97, R125 to R127: what the device does to its storage on its own. -/
def Obligations.StorageIsKept : Prop :=
  groundIsScrubbed ∧ memoryIsScrubbed ∧ channelsRetire ∧ banksRefresh ∧ activationsAreTracked ∧ sweepsEndPasses

/-! ### The Krytyth lease protocol (R97 to R104) -/

/-- R98, R100, R101: slot 0 changes the STATE of an entry only as the table of R98 gives; any other write is refused, counted, and keeps the entry. A
grant takes an unowned block and the next lease tag, and is told to the borrower; a reclaim is told too. -/
def leaseEntriesAreWritten : Prop :=
  ∀ (s : State) (i : Nat) (v : BitVec 64) (w : BitVec 256),
    let x := s.lease i
    let y := s.borrow i
    let bdev := bits v.toNat 35 10
    let bslot := bits v.toNat 29 6
    let block := bits v.toNat 21 8
    let open_ := s.owner block = 0xFF ∧ (s.pkg.lgen - s.pkg.low).toNat < 65535
    let refused (t : State) : Prop := t.pkg = s.pkg ∧ ((s.fn 0).badAccess ≠ BitVec.allOnes 32 → (t.fn 0).badAccess = (s.fn 0).badAccess + 1)
    let given : Borrow := { y with
      l3b := bits w.toNat 156 36
      l3a := bits w.toNat 120 36
      ipa := bits w.toNat 103 17
      fbk := bits w.toNat 94 9
      ldev := bits w.toNat 60 10
      slot := bits w.toNat 54 6 }
    i < 256 → s.shut 0 = false →
    (bits v.toNat 61 3 = 0 →
      (x.st = 0 → bits v.toNat 11 10 = 0 → block < 248 → ∃ t, exec (.leaseEntrySet i v) s = .next t ∧
        t.lease i = { x with bdev := bdev, bslot := bslot, block := block } ∧ t.pkg.owner = s.pkg.owner ∧ ∀ j, j ≠ i → t.lease j = s.lease j) ∧
      (x.st ≠ 0 ∨ bits v.toNat 11 10 ≠ 0 ∨ 248 ≤ block → ∃ t, exec (.leaseEntrySet i v) s = .next t ∧ refused t)) ∧
    (bits v.toNat 61 3 = 1 →
      (x.st = 0 → bits v.toNat 11 10 = 0 → block < 248 → bslot ≠ 0 →
        (open_ → ∃ t, exec (.leaseOffer i v) s = .next t ∧ (t.lease i).st = 1 ∧ (t.lease i).ltag = s.pkg.lgen + 1 ∧ (t.lease i).bdev = bdev ∧
          (t.lease i).bslot = bslot ∧ (t.lease i).block = block ∧ (t.lease i).moved = 0 ∧ t.pkg.lgen = s.pkg.lgen + 1 ∧ t.owner block = 0xFE ∧
          t.sent = s.sent ++ [.krytyth bdev (kryt 1 i 0xFF bslot (s.pkg.lgen + 1) 0 block 0)]) ∧
        (¬open_ → ∃ t, exec (.leaseOffer i v) s = .next t ∧ (t.lease i).st = 0 ∧ t.pkg.lgen = s.pkg.lgen ∧ t.pkg.owner = s.pkg.owner ∧
          toldOf s t 0x57 0 ∧ t.sent = s.sent)) ∧
      (x.st ≠ 0 ∨ bits v.toNat 11 10 ≠ 0 ∨ 248 ≤ block ∨ bslot = 0 → ∃ t, exec (.leaseOffer i v) s = .next t ∧ refused t)) ∧
    (x.st = 2 → ∃ t, exec (.leaseReclaimStart i) s = .next t ∧
      t.lease i = { x with st := 3, since := s.cycle, moved := 0, flushed := false, copied := 0 } ∧
      t.sent = s.sent ++ [.krytyth x.bdev (kryt 4 i x.bidx x.bslot x.ltag 0 x.block 0)]) ∧
    (x.st ≠ 2 → exec (.leaseReclaimStart i) s = .next s) ∧
    (y.st = 0 → bits w.toNat 192 64 = 0 → bits w.toNat 0 40 = 0 →
      (bits w.toNat 51 3 = 0 → ∃ t, exec (.borrowEntrySet i w) s = .next t ∧ t.borrow i = { given with st := 0 } ∧ ∀ j, j ≠ i → t.borrow j = s.borrow j) ∧
      (bits w.toNat 51 3 = 1 →
        (given.slot ≠ 0 → s.owner given.fbk = given.slot → ∃ t, exec (.borrowWait i w) s = .next t ∧ t.borrow i = { given with st := 1 }) ∧
        (given.slot = 0 ∨ s.owner given.fbk ≠ given.slot → ∃ t, exec (.borrowWait i w) s = .next t ∧ refused t))) ∧
    (y.st = 1 → ∃ t, exec (.borrowWithdraw i) s = .next t ∧ t.borrow i = { y with st := 0 }) ∧
    (y.st ≠ 1 → exec (.borrowWithdraw i) s = .next s) ∧
    (y.st = 4 → ∃ t, exec (.borrowRelease i) s = .next t ∧ t.borrow i = { y with st := 0 }) ∧
    (y.st ≠ 4 → exec (.borrowRelease i) s = .next s)

/-- R99, R100: a GRANT makes the WAITING entry of its lender and slot ACTIVE and is answered ACCEPT, else REFUSE; ACCEPT makes the lease ACTIVE; REFUSE
frees it and its block. A malformed message is discarded and counted. -/
def leasesAreGranted : Prop :=
  ∀ (s : State) (src i lidx bidx slot block : Nat) (ltag : BitVec 16) (m : BitVec 128),
    let x := s.lease i
    let y := s.borrow i
    let waits := s.pkg.borrows.find? fun b => b.2.st == 1 && b.2.ldev == src && b.2.slot == slot
    i < 256 → lidx < 256 → bidx < 256 → slot < 64 → block < 256 →
    (waits = some (i, y) → ∃ t, exec (.grant src (kryt 1 lidx 0xFF slot ltag 0 block 0)) s = .next t ∧
      t.borrow i = { y with st := 2, ltag := ltag, lblock := block, lidx := lidx, moved := 0, flushed := false } ∧
      t.sent = s.sent ++ [.krytyth src (kryt 2 lidx i slot ltag 0 block 0)]) ∧
    (waits = none → ∃ t, exec (.grant src (kryt 1 lidx 0xFF slot ltag 0 block 0)) s = .next t ∧ t.pkg = s.pkg ∧
      t.sent = s.sent ++ [.krytyth src (kryt 3 lidx 0xFF slot ltag 1 block 0)]) ∧
    (x.st = 1 → x.bslot < 64 → x.block < 248 →
      (∃ t, exec (.accept x.bdev (kryt 2 i bidx x.bslot x.ltag 0 x.block 0)) s = .next t ∧ t.lease i = { x with st := 2, bidx := bidx } ∧
        t.pkg.owner = s.pkg.owner) ∧
      (s.pkg.held = [] → ∃ t, exec (.refuse x.bdev (kryt 3 i 0xFF x.bslot x.ltag 1 x.block 0)) s = .next t ∧ t.lease i = { x with st := 0 } ∧
        t.owner x.block = 0xFF ∧ toldOf s t 0x57 0)) ∧
    (x.st = 2 ∨ x.st = 3 → exec (.refuse x.bdev (kryt 3 i 0xFF x.bslot x.ltag 1 x.block 0)) s = .next s) ∧
    (kOk 1 m = false → ∃ t, exec (.grant src m) s = .next t ∧ t.pkg = { s.pkg with discarded := s.pkg.discarded + 1 } ∧ t.sent = s.sent)

/-- R101: the borrower of a reclaim: RECLAIM writes back and invalidates every sector of the lease; FLUSHED follows when the write-backs are answered;
each piece moved has its leaf rewritten to the fallback, and no TLB and no walk cache keeps it, before PIECE_ACK. -/
def borrowersGiveBack : Prop :=
  ∀ (s : State) (i piece : Nat),
    let y := s.borrow i
    let leaf := (if piece < 512 then y.l3a else y.l3b) * 4096 + piece % 512 * 8
    let old := ofLe (s.hbm.read false 0 leaf 8)
    let lo := y.lblock * 2 ^ 31 + piece * 2 ^ 21
    let busy := s.pkg.peers.any fun r => r.wb.isSome && r.dev == y.ldev && r.pa / 2 ^ 31 == y.lblock
    i < 256 → y.slot < 64 → y.lblock < 248 → y.fbk < 248 → y.lidx < 256 →
    (y.st = 2 → ∃ t, exec (.reclaim y.ldev (kryt 4 y.lidx i y.slot y.ltag 0 y.lblock 0)) s = .next t ∧
      t.borrow i = { y with st := 3, since := s.cycle, flushed := false } ∧
      ∀ b k l, b < 24 → (s.bay b).lines = [(k, l)] → k < 65536 → l.tag < 2 ^ 21 → l.peer = some y.ldev → l.addr k 0 / 2 ^ 31 = y.lblock →
        (l.s0.isSome || l.s1.isSome) = true → (t.bay b).lines = [] ∧
        ∀ a x, (a, x) ∈ l.sectors k → x.dirty = true → s.stationFor y.ldev a ≠ none →
          ∃ r ∈ t.pkg.peers, r.wb.isSome = true ∧ r.dev = y.ldev ∧ r.pa = a ∧ r.data = x.data ∧ r.poison = x.poison) ∧
    (y.st = 3 → y.flushed = false → busy = false → ∃ t, exec (.borrowerFlushDone i) s = .next t ∧ t.borrow i = { y with flushed := true } ∧
      t.sent = s.sent ++ [.krytyth y.ldev (kryt 5 y.lidx i y.slot y.ltag (s.ctxOf y.slot).gen.toNat y.lblock y.fbk)]) ∧
    (y.st ≠ 3 ∨ y.flushed = true ∨ busy = true → exec (.borrowerFlushDone i) s = .next s) ∧
    (y.st = 3 → piece < 1024 → s.placeFrozen (.hbm leaf) = false → ∃ t, exec (.pieceMoved y.ldev (kryt 6 y.lidx i y.slot y.ltag piece y.lblock 0)) s = .next t ∧
      t.borrow i = { y with moved := piece + 1 } ∧
      ofLe (t.hbm.read false 0 leaf 8) = old % 2 ^ 16 + (y.fbk * 2 ^ 31 + piece * 2 ^ 21) + bits old 48 4 * 2 ^ 48 ∧
      (∀ c, c < 192 → ∀ e ∈ (t.core c).l1, e.slot = y.slot → e.mode ≠ 0 → e.host = false → e.peer = y.ldev →
        lo + 2 ^ 21 ≤ e.frame ∨ e.frame + 2 ^ e.size ≤ lo) ∧
      (∀ d, d < 4 → ∀ e ∈ (t.die d).l2, e.slot = y.slot → e.mode ≠ 0 → e.host = false → e.peer = y.ldev →
        lo + 2 ^ 21 ≤ e.frame ∨ e.frame + 2 ^ e.size ≤ lo) ∧
      (∀ d, d < 4 → ∀ e ∈ (t.die d).walkCache, e.addr ≠ leaf) ∧
      t.sent = s.sent ++ [.krytyth y.ldev (kryt 7 y.lidx i y.slot y.ltag piece y.lblock 0)])

/-- R101: the lender of a reclaim: pieces are copied in order, at most four in flight, each granule whole: the lease's data, else zeros; the last answer
ends the lease. -/
def lendersTakeBack : Prop :=
  ∀ (s : State) (i bidx g f : Nat),
    let x := s.lease i
    let lo := x.block * 2 ^ 31 + x.copied * 2 ^ 21
    let into := x.fbk * 2 ^ 31 + x.copied * 2 ^ 21
    i < 256 → x.bslot < 64 → x.block < 248 → bidx < 256 → g < 65536 → f < 248 → x.st = 3 →
    (x.flushed = false → ∃ t, exec (.flushed x.bdev (kryt 5 i bidx x.bslot x.ltag g x.block f)) s = .next t ∧
      t.lease i = { x with flushed := true, bgen := g, fbk := f }) ∧
    (x.flushed = true → x.copied < 1024 → x.copied < x.moved + 4 → ∃ t cells bad, exec (.pieceCopyDone i) s = .next t ∧
      t.lease i = { x with copied := x.copied + 1 } ∧
      t.sent = s.sent ++ [.evict x.bdev x.bslot into (tagOf x.bslot x.bgen) cells bad,
        .krytyth x.bdev (kryt 6 i x.bidx x.bslot x.ltag x.copied x.block 0)] ∧
      ∀ o, o < 2 ^ 21 → Tbl.get 0 cells (into + o) = s.hbm.byte true x.ltag (lo + o)) ∧
    (x.flushed = false ∨ 1024 ≤ x.copied ∨ x.moved + 4 ≤ x.copied → exec (.pieceCopyDone i) s = .next s) ∧
    (x.moved < x.copied → s.pkg.held = [] →
      (x.moved + 1 < 1024 → ∃ t, exec (.pieceAck x.bdev (kryt 7 i bidx x.bslot x.ltag x.moved x.block 0)) s = .next t ∧
        t.lease i = { x with moved := x.moved + 1 } ∧ t.sent = s.sent) ∧
      (x.moved + 1 = 1024 → ∃ t, exec (.pieceAck x.bdev (kryt 7 i bidx x.bslot x.ltag x.moved x.block 0)) s = .next t ∧ (t.lease i).st = 0 ∧
        t.owner x.block = 0xFF ∧ t.sent = s.sent ++ [.krytyth x.bdev (kryt 8 i x.bidx x.bslot x.ltag 0 x.block 0)]))

/-- R101 to R104: how a lease ends: DONE frees the borrower's entry, or revokes it when the 4 ms were over, and the tier-demotion record goes to the
borrowing slot; RELEASE frees the lender's; each side ends a reclaim of 4 ms on its own. -/
def leasesEnd : Prop :=
  ∀ (s : State) (i bidx a : Nat),
    let x := s.lease i
    let y := s.borrow i
    let posted (t : State) (result : Nat) : Prop := (s.fn y.slot).evBuf.length < 64 →
      (t.fn y.slot).evBuf = (s.fn y.slot).evBuf ++ [record [(1, 0x41), (1, result), (2, y.moved), (2, y.ldev), (1, i), (1, 0),
        (8, y.ipa * 2 ^ 31), (8, s.ref.toNat), (8, 0)]]
    let freed (t : State) : Prop := (t.lease i).st = 0 ∧ t.owner x.block = 0xFF ∧ t.hbm = s.hbm
    i < 256 → bidx < 256 →
    (y.st = 3 → y.slot < 64 → y.lblock < 248 → y.lidx < 256 → a < 2 →
      (∃ t, exec (.done_ y.ldev (kryt 8 y.lidx i y.slot y.ltag a y.lblock 0)) s = .next t ∧
        t.borrow i = { y with st := if a = 0 then 0 else 4 } ∧ posted t a) ∧
      (s.cycle < y.since + reclaimLimit → exec (.borrowerReclaimTimeout i) s = .next s) ∧
      (y.since + reclaimLimit ≤ s.cycle → ∃ t, exec (.borrowerReclaimTimeout i) s = .next t ∧ t.borrow i = { y with st := 4 } ∧ posted t 1)) ∧
    (x.st = 2 ∨ x.st = 3 → x.bslot < 64 → x.block < 248 → s.pkg.held = [] →
      ∃ t, exec (.release_ x.bdev (kryt 9 i bidx x.bslot x.ltag 0 x.block 0)) s = .next t ∧ freed t ∧ t.sent = s.sent) ∧
    (x.st = 3 → s.cycle < x.since + reclaimLimit → exec (.lenderReclaimTimeout i) s = .next s) ∧
    (x.st = 3 → x.since + reclaimLimit ≤ s.cycle → s.pkg.held = [] → ∃ t, exec (.lenderReclaimTimeout i) s = .next t ∧ freed t ∧
      t.sent = s.sent ++ [.krytyth x.bdev (kryt 8 i x.bidx x.bslot x.ltag 1 x.block 0)] ∧ toldOf s t 0x58 0)

/-- R97 to R104: leases are written, granted, reclaimed piece by piece, and end. -/
def Obligations.LeasesFollowTheProtocol : Prop :=
  leaseEntriesAreWritten ∧ leasesAreGranted ∧ borrowersGiveBack ∧ lendersTakeBack ∧ leasesEnd

/-! ### The host's accesses, event rings, MSI-X, mailboxes and the debug ports (R176, R257, R320, R424, R432, R436 to R441, R449) -/

/-- R438: a refused host write at offset `off` changes nothing but the count and tells the function's event ring the code. -/
def hostRefused (s t : State) (k off : Nat) (code : Code) : Prop :=
  t.pkg = s.pkg ∧ t.hbm = s.hbm ∧ (t.fn k).lq = (s.fn k).lq ∧ (t.fn k).evBase = (s.fn k).evBase ∧ (t.fn k).bar2Win = (s.fn k).bar2Win ∧
  (t.fn k).staged = (s.fn k).staged ∧ ((s.fn k).badAccess ≠ BitVec.allOnes 32 → (t.fn k).badAccess = (s.fn k).badAccess + 1) ∧
  ((s.fn k).evBuf.length < 64 → (t.fn k).evBuf = (s.fn k).evBuf ++
    [record [(1, 3), (1, 0x61), (1, k), (5, 0), (8, off), (8, s.ref.toNat), (8, code.toNat)]])

/-- R436: an access that names no register is dropped and counted. -/
def hostDropped (s t : State) (k : Nat) : Prop :=
  ((s.fn k).badAccess ≠ BitVec.allOnes 32 → (t.fn k).badAccess = (s.fn k).badAccess + 1) ∧ (t.fn k).evBuf = (s.fn k).evBuf ∧ t.pkg = s.pkg ∧
  (t.fn k).lq = (s.fn k).lq ∧ t.hbm = s.hbm

/-- R436 to R438, R442: writes of registers through BAR 0, and through the PF's BAR 4 into the block of any slot; the words of a borrow entry
are staged, an RZ bit refused at its own word, which discards what is staged of that entry. -/
def registersAreWritten : Prop :=
  ∀ (s : State) (k q off size : Nat) (v : W64),
    k ≤ 63 → q < 4 → s.deaf k = false → s.deaf 0 = false → s.noImage = false →
    (∀ fn bar, (fn = k ∧ bar = 0) ∨ (fn = 0 ∧ bar = 4) →
      let at' (o : Nat) : Nat := if bar = 4 then k * 0x10000 + o else o
      (v.toNat % 256 = 0 → ∃ t, exec (.hostRegisterWrite fn bar (at' (0x40 * q)) 8 v) s = .next t ∧ (t.lqOf k q).base = v ∧
        (∀ j, j ≠ q → t.lqOf k j = s.lqOf k j) ∧ ∀ j, j ≠ k → t.fn j = s.fn j) ∧
      (v.toNat % 256 ≠ 0 → (bar = 0 ∨ k = 0) → ∃ t, exec (.hostRegisterWrite fn bar (at' (0x40 * q)) 8 v) s = .next t ∧
        hostRefused s t k (at' (0x40 * q)) cEncoding) ∧
      (∃ t, exec (.hostRegisterWrite fn bar (at' (0x40 * q + 0x18)) 4 v) s = .next t ∧ (t.lqOf k q).pi = v.setWidth 32) ∧
      (bits v.toNat 5 7 = 0 → ∃ t, exec (.hostRegisterWrite fn bar (at' 0x200) 8 v) s = .next t ∧
        (t.fn k).evBase = BitVec.ofNat 64 (v.toNat / 4096 * 4096) ∧ (t.fn k).evSize = v.toNat % 32) ∧
      (∃ t, exec (.hostRegisterWrite fn bar (at' 0x20C) 4 v) s = .next t ∧ (t.fn k).evCi = v.setWidth 32)) ∧
    (∃ t, exec (.hostRegisterWrite k 0 (0x40 * q + 0x1C) 4 v) s = .next t ∧ hostRefused s t k (0x40 * q + 0x1C) cPrivilege) ∧
    (∃ t, exec (.hostRegisterWrite k 0 0x128 4 v) s = .next t ∧ hostRefused s t k 0x128 cPrivilege) ∧
    ((size ≠ 4 ∧ size ≠ 8) ∨ off % size ≠ 0 → ∃ t, exec (.hostRegisterWrite k 0 off size v) s = .next t ∧ hostDropped s t k) ∧
    (∃ t, exec (.hostRegisterWrite k 0 (0x40 * q + 0x28) size v) s = .next t ∧ hostDropped s t k) ∧
    (k ≠ 0 → 0x10000 ≤ off → ∃ t, exec (.hostRegisterWrite k 0 off size v) s = .next t ∧ hostDropped s t k) ∧
    (∀ n, 1000 ≤ n → n ≤ 2800 → ∃ t, exec (.hostRegisterWrite 0 0 0x10028 8 (BitVec.ofNat 64 n)) s = .next t ∧ t.pkg.pwrLimit = BitVec.ofNat 12 n) ∧
    (v.toNat < 16 → ∃ t, exec (.bar2WinWrite k v) s = .next t ∧ (t.fn k).bar2Win = v.toNat ∧ ∀ j, j ≠ k → t.fn j = s.fn j) ∧
    (16 ≤ v.toNat → ∃ t, exec (.bar2WinWrite k v) s = .next t ∧ hostRefused s t k 0x508 cEncoding) ∧
    (∀ i w, i < 256 → w < 3 → s.deaf 0 = false →
      (w = 0 → v.toNat % 2 ^ 40 ≠ 0 → ∃ t, exec (.hostRegisterWrite 0 0 (0x30000 + 32 * i) 8 v) s = .next t ∧ t.pkg = s.pkg ∧
        ((s.fn 0).badAccess ≠ BitVec.allOnes 32 → (t.fn 0).badAccess = (s.fn 0).badAccess + 1) ∧
        (∀ g, (s.fn 0).staged = some g → g.table = 9 → (t.fn 0).staged = if g.entry = i then none else some g)) ∧
      ((w = 0 → v.toNat % 2 ^ 40 = 0) → ∃ t g, exec (.hostRegisterWrite 0 0 (0x30000 + 32 * i + 8 * w) 8 v) s = .next t ∧ t.pkg = s.pkg ∧
        (t.fn 0).staged = some g ∧ g.table = 9 ∧ g.entry = i ∧ bit g.mask w = true ∧ [g.w0, g.w1, g.w2][w]? = some v))

/-- R121, R424, R432, R437, R442: BAR 2 is a window on the slot's heap under its current tag; what lies beyond HEAP_LIMIT is refused whole; a write to a
function whose reset runs, or while no image runs, is dropped (a read then returns all ones: log entry 82); one under a new generation does not act before the cut of the die that holds its bytes. -/
def heapIsReachedThroughBar2 : Prop :=
  ∀ (s : State) (k off n : Nat) (data : BitVec 512),
    let x := (s.fn k).bar2Win * 2 ^ 36 + off
    let a := (s.ctxOf k).heapOff.toNat + x
    let g := s.slotTag k
    let inside := off + n ≤ 2 ^ 36 ∧ x + n ≤ (s.ctxOf k).heapLimit.toNat
    k ≤ 63 → n ≤ 64 →
    (s.noImage = true → ∃ t, exec (.hostMemoryRead k off n) s = .next t ∧ t.fns = s.fns ∧ t.sent = s.sent ++ [.hostRead (List.replicate n 0xFF)]) ∧
    (s.noImage = false →
    (inside →
      (s.shut k = false → s.frozen (dieOfPa a) = false → s.beforeCut k a n = true → exec (.hostHeapWrite k off n data) s = .next s) ∧
      (s.shut k = false → s.frozen (dieOfPa a) = false → s.beforeCut k a n = false → ∃ t, exec (.hostHeapWrite k off n data) s = .next t ∧
        t.hbm.read false g a n = (leBytes 64 data.toNat).take n ∧
        (∀ b, b < a ∨ a + n ≤ b → t.hbm.byte false g b = s.hbm.byte false g b) ∧ t.fns = s.fns ∧ t.ground = s.ground) ∧
      (s.frozen (dieOfPa a) = false →
        ∃ t, exec (.hostMemoryRead k off n) s = .next t ∧ t.hbm = s.hbm ∧ t.sent = s.sent ++ [.hostRead (s.hbm.read false g a n)]) ∧
      (s.frozen (dieOfPa a) = true → ∃ t d, exec (.hostMemoryRead k off n) s = .next t ∧ t.hbm = s.hbm ∧ t.sent = s.sent ++ [.hostRead d] ∧ d.length = n)) ∧
    (¬inside →
      (s.shut k = false → ∃ t, exec (.hostHeapWrite k off n data) s = .next t ∧ hostDropped s t k) ∧
      ∃ t, exec (.hostMemoryRead k off n) s = .next t ∧ hostDropped s t k ∧ t.sent = s.sent ++ [.hostRead (List.replicate n 0xFF)])) ∧
    (s.shut k = true → exec (.hostHeapWrite k off n data) s = .next s)

/-- R440: a vector is signalled: one message, or its pending bit while it is masked. -/
def signalled (s t : State) (k vec : Nat) : Prop :=
  if Tbl.get true (s.fn k).msixMask vec = true then t.sent = s.sent ∧ Tbl.get false (t.fn k).msixPend vec = true
  else t.sent = s.sent ++ [.msix k vec]

/-- R176, R439 to R441: records leave the buffer in order, the record before the index before the signal; a vector unmasked sends the one message it
missed; a mailbox sends at byte 56, and drops while it is BUSY, which its receiver clears. -/
def messagesAreDelivered : Prop :=
  ∀ (s : State) (k vec : Nat) (v : W64) (r : BitVec 512) (l : List (BitVec 512)),
    let f := s.fn k
    let a := f.evBase.toNat + f.evPi.toNat % 2 ^ f.evSize * 64
    let w := f.evWb.toNat
    let pend := Tbl.get false f.msixPend vec
    k ≤ 63 →
    (f.evBuf = r :: l → f.evRoom = true → ∃ t, exec (.eventRecordWrite k) s = .next t ∧ (t.fn k).evBuf = l ∧ (t.fn k).evPi = f.evPi + 1 ∧
      t.hostRead w 8 = leBytes 8 (f.evPi + 1).toNat ∧ (w + 8 ≤ a ∨ a + 64 ≤ w → t.hostRead a 64 = leBytes 64 r.toNat) ∧ signalled s t k 0) ∧
    (f.evBuf = [] ∨ f.evRoom = false → exec (.eventRecordWrite k) s = .next s) ∧
    (vec ≤ 7 → s.shut k = false → Tbl.get true f.msixMask vec = true → ∃ t, exec (.msixUnmask k vec) s = .next t ∧
      Tbl.get true (t.fn k).msixMask vec = false ∧ Tbl.get false (t.fn k).msixPend vec = false ∧
      t.sent = s.sent ++ (if pend then [.msix k vec] else [])) ∧
    (Tbl.get true f.msixMask vec = false → exec (.msixUnmask k vec) s = .next s) ∧
    (k ≠ 0 → s.shut k = false → s.shut 0 = false →
      (f.mbInBusy = false → ∃ t, exec (.mailboxSend k true v) s = .next t ∧ bits (t.fn k).mbIn.toNat 448 64 = v.toNat ∧
        bits (t.fn k).mbIn.toNat 0 448 = bits f.mbIn.toNat 0 448 ∧ (t.fn k).mbInBusy = true ∧ signalled s t k 6) ∧
      (f.mbInBusy = true → ∃ t, exec (.mailboxSend k true v) s = .next t ∧ t.fn k = { f with mbDrop := true } ∧ t.sent = s.sent) ∧
      (f.mbOutBusy = false → ∃ t, exec (.mailboxSend k false v) s = .next t ∧ bits (t.fn k).mbOut.toNat 448 64 = v.toNat ∧
        (t.fn k).mbOutBusy = true ∧ signalled s t 0 6) ∧
      (f.mbOutBusy = true → ∃ t, exec (.mailboxSend k false v) s = .next t ∧ t.fn k = { f with mbDrop := true } ∧ t.sent = s.sent) ∧
      (∃ t, exec (.mailboxBusyClear k true) s = .next t ∧ t.fn k = { f with mbInBusy := false }) ∧
      ∃ t, exec (.mailboxBusyClear k false) s = .next t ∧ t.fn k = { f with mbOutBusy := false }) ∧
    (s.shut k = true → (∀ b, exec (.mailboxSend k b v) s = .next s ∧ exec (.mailboxBusyClear k b) s = .next s) ∧ exec (.msixUnmask k vec) s = .next s) ∧
    (s.shut 0 = true → exec (.mailboxSend k true v) s = .next s ∧ exec (.mailboxBusyClear k false) s = .next s)

/-- R257, R320, R448, R449: the first requester has a core's port; a halt puts its strands into DEBUG, a resume lets them go on past their BRK, a step for one
instruction; DBG_DATA writes the register that DBG_SEL names of a strand in DEBUG. JTAG
(requester 64) writes its own window while its strap is high (log entry 43). -/
def coresAreDebugged : Prop :=
  ∀ (s : State) (k c : Nat) (mask : BitVec 4) (v : W64),
    let l := s.dbgStrands k c mask.toNat
    let f := s.fn k
    let n := 4 * f.dbgCore + bits f.dbgSel.toNat 0 2
    let cls := bits f.dbgSel.toNat 12 4
    let i := bits f.dbgSel.toNat 16 12
    let left (t : State) (step : Bool) : Prop := ∀ m ∈ l, (s.strand m).dbg = true → (t.strand m).dbg = false ∧ (t.strand m).oneStep = step ∧
      (t.strand m).brkLen = 0 ∧ (t.strand m).getPc (s.tagOfStrand m) = s.getPc m + BitVec.ofNat 64 (s.strand m).brkLen
    let others (t : State) : Prop := ∀ m, m ∉ l → t.strand m = s.strand m
    (s.shut k = false → s.mayDebug k c = true → ∃ t, exec (.debugAttach k c) s = .next t ∧ (t.core c).port = some ((s.core c).port.getD k)) ∧
    (s.shut k = true ∨ s.mayDebug k c = false → exec (.debugAttach k c) s = .next s) ∧
    ((s.core c).port = some k → s.shut k = false → s.mayDebug k c = true →
      (∃ t, exec (.debugHalt c mask) s = .next t ∧ (∀ m ∈ l, (t.strand m).dbg = true ∧ (t.strand m).st = (s.strand m).st ∧
        (t.strand m).pc = (s.strand m).pc) ∧ others t) ∧
      (∃ t, exec (.debugResume c mask) s = .next t ∧ left t false ∧ others t) ∧
      ∃ t, exec (.debugStep c mask) s = .next t ∧ left t true ∧ others t) ∧
    ((s.core c).port = none ∨ ((s.core c).port = some k ∧ (s.shut k = true ∨ s.mayDebug k c = false)) →
      exec (.debugHalt c mask) s = .next s ∧ exec (.debugResume c mask) s = .next s ∧ exec (.debugStep c mask) s = .next s) ∧
    (s.shut k = false → s.mayDebug k f.dbgCore = true → (s.core f.dbgCore).port = some k → s.dbgStrands k f.dbgCore (2 ^ (n % 4)) ≠ [] →
      ((s.strand n).dbg = false → exec (.debugDataWrite k v) s = .next s) ∧
      ((s.strand n).dbg = true →
        (cls = 0 → 0 < i → i < 64 → ∃ t, exec (.debugDataWrite k v) s = .next t ∧ (t.strand n).s (s.tagOfStrand n) i = v ∧
          ∀ j, j ≠ i → (t.strand n).s (s.tagOfStrand n) j = (s.strand n).s (s.tagOfStrand n) j) ∧
        (cls = 1 → 0 < i → i < 8 → ∃ t, exec (.debugDataWrite k v) s = .next t ∧ (t.strand n).p (s.tagOfStrand n) i = v) ∧
        (cls = 2 → ∃ t, exec (.debugDataWrite k v) s = .next t ∧ (t.strand n).getPc (s.tagOfStrand n) = v) ∧
        (cls = 0 ∧ 64 ≤ i ∨ cls = 1 ∧ 8 ≤ i ∨ cls = 3 ∧ 5 < i →
          (k ≠ 64 → ∃ t, exec (.debugDataWrite k v) s = .next t ∧ hostRefused s t k 0x420 cOperand) ∧ (k = 64 → exec (.debugDataWrite k v) s = .next s)))) ∧
    (s.shut 64 = false → s.pkg.debugStrap = true → v.toNat < 192 → ∃ t, exec (.hostRegisterWrite 64 0 0x400 8 v) s = .next t ∧ (t.fn 64).dbgCore = v.toNat ∧
      ∀ j, j ≠ 64 → t.fn j = s.fn j) ∧
    (s.pkg.debugStrap = false → exec (.hostRegisterWrite 64 0 0x400 8 v) s = .next s)

/-- R221, R257, R320, R436, R437, R441, R449: what a read of a register returns: its value, and the machine as it was; all ones and one more refused
access where nothing is listed; through the debug window the register of a strand in DEBUG, or zero. -/
def registersAreRead : Prop :=
  ∀ (s : State) (k q : Nat), k ≤ 63 → q ≤ 3 → s.noImage = false →
    let f := s.fn k
    let n := 4 * f.dbgCore + bits f.dbgSel.toNat 0 2
    let reads (o size v : Nat) : Prop := s.registerRead k 0 o size = (v, s)
    reads (0x40 * q + 0x18) 4 (s.lqOf k q).pi.toNat ∧ reads (0x40 * q + 0x1C) 4 (s.lqOf k q).ci.toNat ∧ reads 0x118 4 f.gResp.pi.toNat ∧
    reads 0x120 8 0 ∧ reads 0x208 4 f.evPi.toNat ∧ reads 0x500 4 f.badAccess.toNat ∧ reads 0x508 8 f.bar2Win ∧
    (k ≠ 0 → reads 0x380 8 ((if f.mbOutBusy then 1 else 0) + (if f.mbInBusy then 2 else 0) + (if f.mbDrop then 4 else 0))) ∧
    (∀ o ∈ [0x28, 0x104, 0x21C, 0x430, 0x510, 0x3008], s.registerRead k 0 o 4 = (2 ^ 32 - 1, s.badAccess k)) ∧
    s.registerRead k 0 0x18 8 = (2 ^ 64 - 1, s.badAccess k) ∧
    (s.mayDebug k f.dbgCore = false → reads 0x420 8 0) ∧
    (s.mayDebug k f.dbgCore = true → (s.core f.dbgCore).port = some k → s.dbgStrands k f.dbgCore (2 ^ (n % 4)) ≠ [] →
      ((s.strand n).dbg = false → reads 0x420 8 0) ∧
      ((s.strand n).dbg = true → reads 0x420 8 (s.dbgGet n f.dbgSel).toNat ∧ reads 0x428 8 (s.strand n).brkVal.toNat))

/-- R176, R257, R320, R424, R432, R436 to R442, R448, R449: what the host and the debugger do to the machine. -/
def Obligations.HostAccessesAndDebugging : Prop :=
  registersAreWritten ∧ registersAreRead ∧ heapIsReachedThroughBar2 ∧ messagesAreDelivered ∧ coresAreDebugged

/-! ### Resets, firmware, attestation, clock and power (R82, R129, R442 to R445, R447, R450) -/

/-- R442: a VF's reset clears its queues, rings and mailbox and masks its vectors, and leaves its groups, its generation and memory; a die's ends every group
with a core there and zeroes the die's tagged elements, clears a freeze of ERR_MODE but not a thermal one, and keeps memory, but for what its bay caches held
dirty and are emptied of. -/
def functionsAndDiesReset : Prop :=
  ∀ (s : State) (k : Nat) (mask : BitVec 4),
    let hit (d : Nat) : Bool := bit mask.toNat d
    let clean (d : Nat) : Prop := ∀ b l e, b ∈ (s.die d).bays → l ∈ b.2.lines → e ∈ l.2.sectors l.1 → l.2.peer = none → e.2.dirty = false
    (0 < k → k ≤ 63 → ∃ t, exec (.vfFunctionLevelReset k) s = .next t ∧ (∀ q, t.lqOf k q = LQueue.init) ∧
      (t.fn k).gFault = .init ∧ (t.fn k).gResp = .init ∧ (t.fn k).hFault = .init ∧ (t.fn k).hResp = .init ∧
      (t.fn k).evBase = 0 ∧ (t.fn k).evSize = 0 ∧ (t.fn k).evPi = 0 ∧ (t.fn k).mbIn = 0 ∧ (t.fn k).mbOut = 0 ∧
      (∀ vec, Tbl.get true (t.fn k).msixMask vec = true) ∧ t.deaf k = true ∧
      t.groups = s.groups ∧ t.ctx = s.ctx ∧ t.hbm = s.hbm ∧ ∀ j, j ≠ k → t.fn j = s.fn j) ∧
    (s.deaf 0 = true → exec (.dieReset mask) s = .next s) ∧
    (s.deaf 0 = false → (∀ d, (s.die d).tasks = [] ∧ (s.die d).syncWaits = [] ∧ (s.die d).pubs = []) → ∃ t, exec (.dieReset mask) s = .next t ∧
      ((∀ d, d < 4 → hit d = true → clean d) → t.hbm = s.hbm) ∧ (∀ d, d < 4 → hit d = true → (t.die d).bays = []) ∧ t.ctx = s.ctx ∧
      (∀ d, d < 4 → (if hit d = true then (t.die d).errFreeze = false ∧ (t.die d).thermFreeze = (s.die d).thermFreeze ∧ (t.die d).resetting = true ∧
          (t.die d).sync = [] ∧ (t.die d).twins = [] ∧ (t.die d).l2 = []
        else (t.die d).errFreeze = (s.die d).errFreeze ∧ (t.die d).sync = (s.die d).sync ∧ (t.die d).twins = (s.die d).twins)) ∧
      (∀ a, a < 192 * Config.sliceBytes → (if hit (dieOfCore (a / Config.sliceBytes)) = true then t.ground.gran (a / 64 * 64) = Gran.zero ∧ t.ground.raw a = 0
        else t.ground.raw a = s.ground.raw a)) ∧
      (∀ n i, n < 768 → hit (n / 192) = true → Tbl.get zReg (t.strand n).sregs i = zReg ∧ Tbl.get zReg (t.strand n).pregs i = zReg) ∧
      ∀ gid g c, s.group gid = some g → g.st ≠ .saved → g.cores.contains c = true → c < 192 → hit (dieOfCore c) = true →
        ∃ g', t.group gid = some g' ∧ g'.fail.isSome = true)

/-- R129, R442, R444, R450: a device reset and a cold one leave the machine as after reset, but for the flash, the black boxes, the reference counter and, in a
device reset, a thermal freeze; the bank that runs is the first that verifies, of which a bank written by FW_CMD since the last reset is tried first (log entry 117),
else the one that ran; the reset ends when the device chooses. -/
def deviceResets : Prop :=
  ∀ (s : State) (u : Nat),
    let p := s.pkg
    let bank := p.fwBank != p.fwNew
    let mine := verifyStep (p.flash bank)
    let other := verifyStep (p.flash (!bank))
    let fresh (t : State) : Prop := t.groups = [] ∧ t.strands = [] ∧ t.cores = [] ∧ t.ctx = State.reset.ctx ∧ t.hbm = State.reset.hbm ∧
      t.ground = State.reset.ground ∧ t.flight = [] ∧ t.host = s.host ∧ t.sent = s.sent ∧ t.ref = s.ref ∧ t.pkg.resetting = true ∧
      t.pkg.flash0 = p.flash0 ∧ t.pkg.flash1 = p.flash1 ∧ t.pkg.errMode = false
    let boots (t : State) : Prop := (mine = 0 → t.pkg.fwBank = bank ∧ t.noImage = false) ∧
      (mine ≠ 0 → other = 0 → t.pkg.fwBank = (!bank) ∧ t.noImage = false) ∧
      (0 < mine → mine < 256 → other ≠ 0 → t.noImage = true)
    (∃ t, exec .devReset s = .next t ∧ fresh t ∧ boots t ∧ ∀ d, d < 4 → (t.die d).thermFreeze = (s.die d).thermFreeze ∧ (t.die d).errFreeze = false) ∧
    (∃ t, exec .coldReset s = .next t ∧ fresh t ∧ boots t ∧ ∀ d, d < 4 → t.frozen d = false) ∧
    (∃ t, exec .powerLoss s = .next t ∧ t.groups = [] ∧ t.strands = [] ∧ t.hbm = State.reset.hbm ∧ t.host = s.host ∧ t.pkg.flash0 = p.flash0 ∧
      t.pkg.flash1 = p.flash1) ∧
    (∃ t, exec (.resetEnd 0 u) s = .next t ∧ (t.fn u).resetting = false) ∧
    (∃ t, exec (.resetEnd 1 u) s = .next t ∧ (t.die u).resetting = false) ∧
    (∀ kind, 2 ≤ kind → ∃ t, exec (.resetEnd kind u) s = .next t ∧ t.pkg.resetting = false)

/-- R82, R443 to R445, R447: an image goes to the bank that does not run; a report carries the nonce and the measurements; the clock moves by 100 MHz between 1,500 and
3,000, down over a limit of power or heat and up under both; a trip at 115 °C freezes every die. The sensors are the outside world's, read anew at each such
step (log entry 91). -/
def firmwareClockAndHeat : Prop :=
  ∀ (s : State) (v : W64) (up : Bool),
    let p := s.pkg
    let a := p.fwStage.toNat
    let n := if up = true then p.clock + 100 else p.clock - 100
    let above := p.pwrLimit.toNat < p.pwrNow.toNat ∨ ∃ d, d < 4 ∧ 105 < p.temp d
    let below := p.pwrNow.toNat * 100 < p.pwrLimit.toNat * 95 ∧ ∀ d, d < 4 → p.temp d * 100 < 105 * 95
    let len := ofLe (s.hbm.read false (s.slotTag 0) (a + 16) 8)
    (s.deaf 0 = false →
      (v = 1 → (∃ t, exec (.fwCmd v) s = .next t ∧ t.pkg.flash (!p.fwBank) = 1 + ofLe (s.hbm.read false (s.slotTag 0) a len) ∧
          t.pkg.flash p.fwBank = p.flash p.fwBank ∧ t.pkg.fwBank = p.fwBank ∧ t.pkg.fwNew = true) ∧
        (p.attBusy = false → ∃ t, exec (.attCmd v) s = .next t ∧ t.pkg = { p with attBusy := true }) ∧
        (p.attBusy = true → exec (.attCmd v) s = .next s)) ∧
      (v = 0 → exec (.fwCmd v) s = .next s ∧ exec (.attCmd v) s = .next s) ∧
      (1 < v.toNat → (∃ t, exec (.fwCmd v) s = .next t ∧ hostRefused s t 0 0x10018 cEncoding) ∧
        ∃ t, exec (.attCmd v) s = .next t ∧ hostRefused s t 0 0x10078 cEncoding)) ∧
    (p.attBusy = true → ∃ t, exec .attestationReportDone s = .next t ∧ t.pkg.attBusy = false ∧ bits t.pkg.attOut.toNat 0 8 = 1 ∧
      bits t.pkg.attOut.toNat 16 16 = 0x9416 ∧ bits t.pkg.attOut.toNat 128 512 = p.attNonce.toNat ∧ bits t.pkg.attOut.toNat 640 512 = p.meas0.toNat ∧
      bits t.pkg.attOut.toNat 1152 512 = p.meas1.toNat ∧ bits t.pkg.attOut.toNat 1664 512 = p.meas2.toNat ∧
      bits t.pkg.attOut.toNat 2176 512 = p.meas3.toNat ∧ bits t.pkg.attOut.toNat 2688 64 = s.ref.toNat ∧
      bits t.pkg.attOut.toNat 2752 64 = (if p.debugStrap = true then 1 else 0) + (if p.errMode = true then 2 else 0) ∧
      bits t.pkg.attOut.toNat 3728 368 = 0) ∧
    (p.attBusy = false → exec .attestationReportDone s = .next s) ∧
    (1500 ≤ n → n ≤ 3000 → (up = true → below) → (up = false → above) →
      ∃ t, exec (.clockStep up) s = .next t ∧ t.pkg = { p with clock := n, pwrNow := t.pkg.pwrNow, temps := t.pkg.temps } ∧ toldOf s t 0x5B 0) ∧
    (n < 1500 ∨ 3000 < n ∨ (up = true ∧ ¬below) ∨ (up = false ∧ ¬above) → ∃ t, exec (.clockStep up) s = .next t ∧ t.pkg.clock = p.clock ∧ t.fns = s.fns) ∧
    ((∃ d, d < 4 ∧ 115 ≤ p.temp d) → ∃ t, exec .thermalTrip s = .next t ∧ (∀ d, d < 4 → (t.die d).thermFreeze = true) ∧ t.hbm = s.hbm ∧
      ∀ gid g c, s.group gid = some g → g.st ≠ .saved → g.cores.contains c = true → c < 192 → ∃ g', t.group gid = some g' ∧ g'.fail.isSome = true) ∧
    ((∀ d, d < 4 → p.temp d < 115) → ∃ t, exec .thermalTrip s = .next t ∧ t.dies = s.dies ∧ t.groups = s.groups)

/-- R82, R129, R442 to R445, R447, R450: the resets, the image, the report, the clock and the trip. -/
def Obligations.ResetsFirmwareAndPower : Prop := functionsAndDiesReset ∧ deviceResets ∧ firmwareClockAndHeat
end

