-- ==== Sys2Proof/Laws/Tables.lean ====
section
/-! SUPPORT. Laws of the sparse tables: reading what was put, leaving every other key alone, keeping the one form. -/
namespace Sys2Proof

variable {α : Type} {d : α} {t : Tbl α} {k j : Nat} {v : α}

/-! ### Reads -/

@[simp] theorem Tbl.get_nil : Tbl.get d [] k = d := rfl

@[simp] theorem Tbl.get_ins_self : Tbl.get d (Tbl.ins t k v) k = v := by
  induction t with
  | nil => simp [Tbl.ins, Tbl.get]
  | cons e t ih =>
    obtain ⟨j, w⟩ := e
    simp only [Tbl.ins]
    split
    · simp [Tbl.get]
    · split
      · simp [Tbl.get]
      · simp only [Tbl.get]; rw [if_neg (by omega)]; exact ih

theorem Tbl.get_ins_ne (h : j ≠ k) : Tbl.get d (Tbl.ins t k v) j = Tbl.get d t j := by
  induction t with
  | nil => simp [Tbl.ins, Tbl.get, h]
  | cons e t ih =>
    obtain ⟨i, w⟩ := e
    simp only [Tbl.ins]
    split
    · subst k; simp [Tbl.get, h]
    · split
      · simp only [Tbl.get]; rw [if_neg h]
      · simp only [Tbl.get, ih]

@[simp] theorem Tbl.get_del_self : Tbl.get d (Tbl.del t k) k = d := by
  induction t with
  | nil => rfl
  | cons e t ih =>
    obtain ⟨j, w⟩ := e
    simp only [Tbl.del]
    split
    · exact ih
    · simp only [Tbl.get]; rw [if_neg ‹_›]; exact ih

theorem Tbl.get_del_ne (h : j ≠ k) : Tbl.get d (Tbl.del t k) j = Tbl.get d t j := by
  induction t with
  | nil => rfl
  | cons e t ih =>
    obtain ⟨i, w⟩ := e
    simp only [Tbl.del]
    split
    · subst k; simp only [Tbl.get, if_neg h, ih]
    · simp only [Tbl.get, ih]

section Put

variable [DecidableEq α]

/-- What was put is read. -/
@[simp] theorem Tbl.get_put_self : Tbl.get d (Tbl.put d t k v) k = v := by
  unfold Tbl.put
  split
  · subst v; exact Tbl.get_del_self
  · exact Tbl.get_ins_self

/-- A put leaves every other key alone. -/
theorem Tbl.get_put_ne (h : j ≠ k) : Tbl.get d (Tbl.put d t k v) j = Tbl.get d t j := by
  unfold Tbl.put
  split
  · exact Tbl.get_del_ne h
  · exact Tbl.get_ins_ne h

@[simp] theorem Tbl.get_upd_self {f : α → α} : Tbl.get d (Tbl.upd d t k f) k = f (Tbl.get d t k) := Tbl.get_put_self
theorem Tbl.get_upd_ne {f : α → α} (h : j ≠ k) : Tbl.get d (Tbl.upd d t k f) j = Tbl.get d t j := Tbl.get_put_ne h

/-- What an update does to every key. -/
theorem Tbl.get_upd {f : α → α} : Tbl.get d (Tbl.upd d t k f) j = if j = k then f (Tbl.get d t k) else Tbl.get d t j := by
  split
  · subst j; exact Tbl.get_upd_self
  · exact Tbl.get_upd_ne ‹_›

end Put

/-! ### The lookup of listed values -/

@[simp] theorem find_ins_self : Machine.find (Tbl.ins t k v) k = some v := by
  induction t with
  | nil => simp [Tbl.ins, Machine.find]
  | cons e t ih =>
    obtain ⟨j, w⟩ := e
    simp only [Tbl.ins]
    split
    · simp [Machine.find]
    · split
      · simp [Machine.find]
      · simp only [Machine.find]; rw [if_neg (by omega)]; exact ih

theorem find_ins_ne (h : j ≠ k) : Machine.find (Tbl.ins t k v) j = Machine.find t j := by
  induction t with
  | nil => simp [Tbl.ins, Machine.find, h]
  | cons e t ih =>
    obtain ⟨i, w⟩ := e
    simp only [Tbl.ins]
    split
    · subst k; simp [Machine.find, h]
    · split
      · simp only [Machine.find]; rw [if_neg h]
      · simp only [Machine.find, ih]

@[simp] theorem find_del_self : Machine.find (Tbl.del t k) k = none := by
  induction t with
  | nil => rfl
  | cons e t ih =>
    obtain ⟨j, w⟩ := e
    simp only [Tbl.del]
    split
    · exact ih
    · simp only [Machine.find]; rw [if_neg ‹_›]; exact ih

/-! ### The one form -/

/-- The keys of a table rise strictly from `lo` on. -/
def Tbl.rising : Nat → Tbl α → Prop
  | _, [] => True
  | lo, (j, _) :: t => lo ≤ j ∧ Tbl.rising (j + 1) t

/-- No entry of a table holds the default. -/
def Tbl.lean (d : α) (t : Tbl α) : Prop := ∀ e ∈ t, e.2 ≠ d

theorem Tbl.lean_cons {e : Nat × α} : Tbl.lean d (e :: t) ↔ e.2 ≠ d ∧ Tbl.lean d t := List.forall_mem_cons

theorem Tbl.rising_mono {a b : Nat} (h : a ≤ b) (ht : Tbl.rising b t) : Tbl.rising a t := by
  cases t with
  | nil => trivial
  | cons e t => exact ⟨Nat.le_trans h ht.1, ht.2⟩

theorem Tbl.wf_iff [DecidableEq α] : Tbl.wf d t = true ↔ Tbl.rising 0 t ∧ Tbl.lean d t := by
  have tail : ∀ (t : Tbl α) (j : Nat) (v : α), Tbl.wf d ((j, v) :: t) = true ↔ v ≠ d ∧ Tbl.rising (j + 1) t ∧ Tbl.lean d t := by
    intro t
    induction t with
    | nil => intro j v; simp [Tbl.wf, Tbl.rising, Tbl.lean]
    | cons e t ih =>
      intro j v
      obtain ⟨k, w⟩ := e
      simp only [Tbl.wf, Bool.and_eq_true, decide_eq_true_eq, ih, Tbl.rising, Tbl.lean_cons]
      constructor
      · rintro ⟨⟨hv, hj⟩, hw, ht, hl⟩; exact ⟨hv, ⟨by omega, ht⟩, hw, hl⟩
      · rintro ⟨hv, ⟨hj, ht⟩, hw, hl⟩; exact ⟨⟨hv, by omega⟩, hw, ht, hl⟩
  cases t with
  | nil => simp [Tbl.wf, Tbl.rising, Tbl.lean]
  | cons e t =>
    obtain ⟨j, v⟩ := e
    rw [tail]
    simp only [Tbl.rising, Tbl.lean_cons]
    constructor
    · rintro ⟨hv, ht, hl⟩; exact ⟨⟨Nat.zero_le _, ht⟩, hv, hl⟩
    · rintro ⟨⟨_, ht⟩, hv, hl⟩; exact ⟨hv, ht, hl⟩

theorem Tbl.rising_ins {lo : Nat} (ht : Tbl.rising lo t) (h : lo ≤ k) : Tbl.rising lo (Tbl.ins t k v) := by
  induction t generalizing lo with
  | nil => exact ⟨h, trivial⟩
  | cons e t ih =>
    obtain ⟨j, w⟩ := e
    obtain ⟨h1, h2⟩ := ht
    simp only [Tbl.ins]
    split
    · subst k; exact ⟨h, h2⟩
    · split
      · exact ⟨h, by omega, h2⟩
      · exact ⟨h1, ih h2 (by omega)⟩

theorem Tbl.lean_ins (ht : Tbl.lean d t) (h : v ≠ d) : Tbl.lean d (Tbl.ins t k v) := by
  induction t with
  | nil => exact Tbl.lean_cons.2 ⟨h, ht⟩
  | cons e t ih =>
    obtain ⟨j, w⟩ := e
    rw [Tbl.lean_cons] at ht
    simp only [Tbl.ins]
    split
    · exact Tbl.lean_cons.2 ⟨h, ht.2⟩
    · split
      · exact Tbl.lean_cons.2 ⟨h, Tbl.lean_cons.2 ht⟩
      · exact Tbl.lean_cons.2 ⟨ht.1, ih ht.2⟩

theorem Tbl.rising_del {lo : Nat} (ht : Tbl.rising lo t) : Tbl.rising lo (Tbl.del t k) := by
  induction t generalizing lo with
  | nil => trivial
  | cons e t ih =>
    obtain ⟨j, w⟩ := e
    obtain ⟨h1, h2⟩ := ht
    simp only [Tbl.del]
    split
    · exact ih (Tbl.rising_mono (by omega) h2)
    · exact ⟨h1, ih h2⟩

theorem Tbl.lean_del (ht : Tbl.lean d t) : Tbl.lean d (Tbl.del t k) := by
  induction t with
  | nil => exact ht
  | cons e t ih =>
    obtain ⟨j, w⟩ := e
    rw [Tbl.lean_cons] at ht
    simp only [Tbl.del]
    split
    · exact ih ht.2
    · exact Tbl.lean_cons.2 ⟨ht.1, ih ht.2⟩

variable [DecidableEq α]

/-- A put keeps the one form. -/
theorem Tbl.wf_put (ht : Tbl.wf d t = true) : Tbl.wf d (Tbl.put d t k v) = true := by
  rw [Tbl.wf_iff] at ht ⊢
  unfold Tbl.put
  split
  · exact ⟨Tbl.rising_del ht.1, Tbl.lean_del ht.2⟩
  · exact ⟨Tbl.rising_ins ht.1 (Nat.zero_le _), Tbl.lean_ins ht.2 ‹_›⟩

theorem Tbl.wf_upd {f : α → α} (ht : Tbl.wf d t = true) : Tbl.wf d (Tbl.upd d t k f) = true := Tbl.wf_put ht

end Sys2Proof
end

