-- ==== Sys2Proof/Laws/State.lean ====
section
/-! SUPPORT. One law for each field and each update of the state, and what an update of a table of the state leaves to read. -/
namespace Sys2Proof.Machine

variable (s : State)

section mapStrand
variable (n : Nat) (f : Strand → Strand)
@[simp] theorem mapStrand_cores : (s.mapStrand n f).cores = s.cores := rfl
@[simp] theorem mapStrand_dies : (s.mapStrand n f).dies = s.dies := rfl
@[simp] theorem mapStrand_ctx : (s.mapStrand n f).ctx = s.ctx := rfl
@[simp] theorem mapStrand_fns : (s.mapStrand n f).fns = s.fns := rfl
@[simp] theorem mapStrand_pkg : (s.mapStrand n f).pkg = s.pkg := rfl
@[simp] theorem mapStrand_hbm : (s.mapStrand n f).hbm = s.hbm := rfl
@[simp] theorem mapStrand_ground : (s.mapStrand n f).ground = s.ground := rfl
@[simp] theorem mapStrand_host : (s.mapStrand n f).host = s.host := rfl
@[simp] theorem mapStrand_groups : (s.mapStrand n f).groups = s.groups := rfl
@[simp] theorem mapStrand_flight : (s.mapStrand n f).flight = s.flight := rfl
@[simp] theorem mapStrand_sent : (s.mapStrand n f).sent = s.sent := rfl
@[simp] theorem mapStrand_ref : (s.mapStrand n f).ref = s.ref := rfl
@[simp] theorem mapStrand_oldHeap : (s.mapStrand n f).oldHeap = s.oldHeap := rfl
@[simp] theorem mapStrand_oldSync : (s.mapStrand n f).oldSync = s.oldSync := rfl
@[simp] theorem mapStrand_cur : (s.mapStrand n f).cur = s.cur := rfl
@[simp] theorem mapStrand_turn : (s.mapStrand n f).turn = s.turn := rfl
@[simp] theorem mapStrand_inputs : (s.mapStrand n f).inputs = s.inputs := rfl
@[simp] theorem mapStrand_upsets : (s.mapStrand n f).upsets = s.upsets := rfl
@[simp] theorem mapStrand_past : (s.mapStrand n f).past = s.past := rfl
@[simp] theorem mapStrand_cycle : (s.mapStrand n f).cycle = s.cycle := rfl
@[simp] theorem mapStrand_free : (s.mapStrand n f).free = s.free := rfl
@[simp] theorem mapStrand_nextId : (s.mapStrand n f).nextId = s.nextId := rfl
theorem mapStrand_strand (m : Nat) : (s.mapStrand n f).strand m = if m = n then f (s.strand n) else s.strand m := Tbl.get_upd
@[simp] theorem mapStrand_strand_self : (s.mapStrand n f).strand n = f (s.strand n) := Tbl.get_upd_self
theorem mapStrand_strand_ne (m : Nat) (h : m ≠ n) : (s.mapStrand n f).strand m = s.strand m := Tbl.get_upd_ne h
@[simp] theorem mapStrand_core (m : Nat) : (s.mapStrand n f).core m = s.core m := rfl
@[simp] theorem mapStrand_die (m : Nat) : (s.mapStrand n f).die m = s.die m := rfl
@[simp] theorem mapStrand_ctxOf (m : Nat) : (s.mapStrand n f).ctxOf m = s.ctxOf m := rfl
@[simp] theorem mapStrand_fn (m : Nat) : (s.mapStrand n f).fn m = s.fn m := rfl
@[simp] theorem mapStrand_group (g : Nat) : (s.mapStrand n f).group g = s.group g := rfl
end mapStrand

section mapCore
variable (c : Nat) (f : Core → Core)
@[simp] theorem mapCore_strands : (s.mapCore c f).strands = s.strands := rfl
@[simp] theorem mapCore_dies : (s.mapCore c f).dies = s.dies := rfl
@[simp] theorem mapCore_ctx : (s.mapCore c f).ctx = s.ctx := rfl
@[simp] theorem mapCore_fns : (s.mapCore c f).fns = s.fns := rfl
@[simp] theorem mapCore_pkg : (s.mapCore c f).pkg = s.pkg := rfl
@[simp] theorem mapCore_hbm : (s.mapCore c f).hbm = s.hbm := rfl
@[simp] theorem mapCore_ground : (s.mapCore c f).ground = s.ground := rfl
@[simp] theorem mapCore_host : (s.mapCore c f).host = s.host := rfl
@[simp] theorem mapCore_groups : (s.mapCore c f).groups = s.groups := rfl
@[simp] theorem mapCore_flight : (s.mapCore c f).flight = s.flight := rfl
@[simp] theorem mapCore_sent : (s.mapCore c f).sent = s.sent := rfl
@[simp] theorem mapCore_ref : (s.mapCore c f).ref = s.ref := rfl
@[simp] theorem mapCore_oldHeap : (s.mapCore c f).oldHeap = s.oldHeap := rfl
@[simp] theorem mapCore_oldSync : (s.mapCore c f).oldSync = s.oldSync := rfl
@[simp] theorem mapCore_cur : (s.mapCore c f).cur = s.cur := rfl
@[simp] theorem mapCore_turn : (s.mapCore c f).turn = s.turn := rfl
@[simp] theorem mapCore_inputs : (s.mapCore c f).inputs = s.inputs := rfl
@[simp] theorem mapCore_upsets : (s.mapCore c f).upsets = s.upsets := rfl
@[simp] theorem mapCore_past : (s.mapCore c f).past = s.past := rfl
@[simp] theorem mapCore_cycle : (s.mapCore c f).cycle = s.cycle := rfl
@[simp] theorem mapCore_free : (s.mapCore c f).free = s.free := rfl
@[simp] theorem mapCore_nextId : (s.mapCore c f).nextId = s.nextId := rfl
theorem mapCore_core (m : Nat) : (s.mapCore c f).core m = if m = c then f (s.core c) else s.core m := Tbl.get_upd
@[simp] theorem mapCore_core_self : (s.mapCore c f).core c = f (s.core c) := Tbl.get_upd_self
theorem mapCore_core_ne (m : Nat) (h : m ≠ c) : (s.mapCore c f).core m = s.core m := Tbl.get_upd_ne h
@[simp] theorem mapCore_strand (m : Nat) : (s.mapCore c f).strand m = s.strand m := rfl
@[simp] theorem mapCore_die (m : Nat) : (s.mapCore c f).die m = s.die m := rfl
@[simp] theorem mapCore_ctxOf (m : Nat) : (s.mapCore c f).ctxOf m = s.ctxOf m := rfl
@[simp] theorem mapCore_fn (m : Nat) : (s.mapCore c f).fn m = s.fn m := rfl
@[simp] theorem mapCore_group (g : Nat) : (s.mapCore c f).group g = s.group g := rfl
end mapCore

section mapDie
variable (d : Nat) (f : Die → Die)
@[simp] theorem mapDie_strands : (s.mapDie d f).strands = s.strands := rfl
@[simp] theorem mapDie_cores : (s.mapDie d f).cores = s.cores := rfl
@[simp] theorem mapDie_ctx : (s.mapDie d f).ctx = s.ctx := rfl
@[simp] theorem mapDie_fns : (s.mapDie d f).fns = s.fns := rfl
@[simp] theorem mapDie_pkg : (s.mapDie d f).pkg = s.pkg := rfl
@[simp] theorem mapDie_hbm : (s.mapDie d f).hbm = s.hbm := rfl
@[simp] theorem mapDie_ground : (s.mapDie d f).ground = s.ground := rfl
@[simp] theorem mapDie_host : (s.mapDie d f).host = s.host := rfl
@[simp] theorem mapDie_groups : (s.mapDie d f).groups = s.groups := rfl
@[simp] theorem mapDie_flight : (s.mapDie d f).flight = s.flight := rfl
@[simp] theorem mapDie_sent : (s.mapDie d f).sent = s.sent := rfl
@[simp] theorem mapDie_ref : (s.mapDie d f).ref = s.ref := rfl
@[simp] theorem mapDie_oldHeap : (s.mapDie d f).oldHeap = s.oldHeap := rfl
@[simp] theorem mapDie_oldSync : (s.mapDie d f).oldSync = s.oldSync := rfl
@[simp] theorem mapDie_cur : (s.mapDie d f).cur = s.cur := rfl
@[simp] theorem mapDie_turn : (s.mapDie d f).turn = s.turn := rfl
@[simp] theorem mapDie_inputs : (s.mapDie d f).inputs = s.inputs := rfl
@[simp] theorem mapDie_upsets : (s.mapDie d f).upsets = s.upsets := rfl
@[simp] theorem mapDie_past : (s.mapDie d f).past = s.past := rfl
@[simp] theorem mapDie_cycle : (s.mapDie d f).cycle = s.cycle := rfl
@[simp] theorem mapDie_free : (s.mapDie d f).free = s.free := rfl
@[simp] theorem mapDie_nextId : (s.mapDie d f).nextId = s.nextId := rfl
theorem mapDie_die (m : Nat) : (s.mapDie d f).die m = if m = d then f (s.die d) else s.die m := Tbl.get_upd
@[simp] theorem mapDie_die_self : (s.mapDie d f).die d = f (s.die d) := Tbl.get_upd_self
theorem mapDie_die_ne (m : Nat) (h : m ≠ d) : (s.mapDie d f).die m = s.die m := Tbl.get_upd_ne h
@[simp] theorem mapDie_strand (m : Nat) : (s.mapDie d f).strand m = s.strand m := rfl
@[simp] theorem mapDie_core (m : Nat) : (s.mapDie d f).core m = s.core m := rfl
@[simp] theorem mapDie_ctxOf (m : Nat) : (s.mapDie d f).ctxOf m = s.ctxOf m := rfl
@[simp] theorem mapDie_fn (m : Nat) : (s.mapDie d f).fn m = s.fn m := rfl
@[simp] theorem mapDie_group (g : Nat) : (s.mapDie d f).group g = s.group g := rfl
end mapDie

section mapCtx
variable (k : Nat) (f : Ctx → Ctx)
@[simp] theorem mapCtx_strands : (s.mapCtx k f).strands = s.strands := rfl
@[simp] theorem mapCtx_cores : (s.mapCtx k f).cores = s.cores := rfl
@[simp] theorem mapCtx_dies : (s.mapCtx k f).dies = s.dies := rfl
@[simp] theorem mapCtx_fns : (s.mapCtx k f).fns = s.fns := rfl
@[simp] theorem mapCtx_pkg : (s.mapCtx k f).pkg = s.pkg := rfl
@[simp] theorem mapCtx_hbm : (s.mapCtx k f).hbm = s.hbm := rfl
@[simp] theorem mapCtx_ground : (s.mapCtx k f).ground = s.ground := rfl
@[simp] theorem mapCtx_host : (s.mapCtx k f).host = s.host := rfl
@[simp] theorem mapCtx_groups : (s.mapCtx k f).groups = s.groups := rfl
@[simp] theorem mapCtx_flight : (s.mapCtx k f).flight = s.flight := rfl
@[simp] theorem mapCtx_sent : (s.mapCtx k f).sent = s.sent := rfl
@[simp] theorem mapCtx_ref : (s.mapCtx k f).ref = s.ref := rfl
@[simp] theorem mapCtx_oldHeap : (s.mapCtx k f).oldHeap = s.oldHeap := rfl
@[simp] theorem mapCtx_oldSync : (s.mapCtx k f).oldSync = s.oldSync := rfl
@[simp] theorem mapCtx_cur : (s.mapCtx k f).cur = s.cur := rfl
@[simp] theorem mapCtx_turn : (s.mapCtx k f).turn = s.turn := rfl
@[simp] theorem mapCtx_inputs : (s.mapCtx k f).inputs = s.inputs := rfl
@[simp] theorem mapCtx_upsets : (s.mapCtx k f).upsets = s.upsets := rfl
@[simp] theorem mapCtx_past : (s.mapCtx k f).past = s.past := rfl
@[simp] theorem mapCtx_cycle : (s.mapCtx k f).cycle = s.cycle := rfl
@[simp] theorem mapCtx_free : (s.mapCtx k f).free = s.free := rfl
@[simp] theorem mapCtx_nextId : (s.mapCtx k f).nextId = s.nextId := rfl
theorem mapCtx_ctxOf (m : Nat) : (s.mapCtx k f).ctxOf m = if m = k then f (s.ctxOf k) else s.ctxOf m := Tbl.get_upd
@[simp] theorem mapCtx_ctxOf_self : (s.mapCtx k f).ctxOf k = f (s.ctxOf k) := Tbl.get_upd_self
theorem mapCtx_ctxOf_ne (m : Nat) (h : m ≠ k) : (s.mapCtx k f).ctxOf m = s.ctxOf m := Tbl.get_upd_ne h
@[simp] theorem mapCtx_strand (m : Nat) : (s.mapCtx k f).strand m = s.strand m := rfl
@[simp] theorem mapCtx_core (m : Nat) : (s.mapCtx k f).core m = s.core m := rfl
@[simp] theorem mapCtx_die (m : Nat) : (s.mapCtx k f).die m = s.die m := rfl
@[simp] theorem mapCtx_fn (m : Nat) : (s.mapCtx k f).fn m = s.fn m := rfl
@[simp] theorem mapCtx_group (g : Nat) : (s.mapCtx k f).group g = s.group g := rfl
end mapCtx

section mapFn
variable (k : Nat) (f : Fn → Fn)
@[simp] theorem mapFn_strands : (s.mapFn k f).strands = s.strands := rfl
@[simp] theorem mapFn_cores : (s.mapFn k f).cores = s.cores := rfl
@[simp] theorem mapFn_dies : (s.mapFn k f).dies = s.dies := rfl
@[simp] theorem mapFn_ctx : (s.mapFn k f).ctx = s.ctx := rfl
@[simp] theorem mapFn_pkg : (s.mapFn k f).pkg = s.pkg := rfl
@[simp] theorem mapFn_hbm : (s.mapFn k f).hbm = s.hbm := rfl
@[simp] theorem mapFn_ground : (s.mapFn k f).ground = s.ground := rfl
@[simp] theorem mapFn_host : (s.mapFn k f).host = s.host := rfl
@[simp] theorem mapFn_groups : (s.mapFn k f).groups = s.groups := rfl
@[simp] theorem mapFn_flight : (s.mapFn k f).flight = s.flight := rfl
@[simp] theorem mapFn_sent : (s.mapFn k f).sent = s.sent := rfl
@[simp] theorem mapFn_ref : (s.mapFn k f).ref = s.ref := rfl
@[simp] theorem mapFn_oldHeap : (s.mapFn k f).oldHeap = s.oldHeap := rfl
@[simp] theorem mapFn_oldSync : (s.mapFn k f).oldSync = s.oldSync := rfl
@[simp] theorem mapFn_cur : (s.mapFn k f).cur = s.cur := rfl
@[simp] theorem mapFn_turn : (s.mapFn k f).turn = s.turn := rfl
@[simp] theorem mapFn_inputs : (s.mapFn k f).inputs = s.inputs := rfl
@[simp] theorem mapFn_upsets : (s.mapFn k f).upsets = s.upsets := rfl
@[simp] theorem mapFn_past : (s.mapFn k f).past = s.past := rfl
@[simp] theorem mapFn_cycle : (s.mapFn k f).cycle = s.cycle := rfl
@[simp] theorem mapFn_free : (s.mapFn k f).free = s.free := rfl
@[simp] theorem mapFn_nextId : (s.mapFn k f).nextId = s.nextId := rfl
theorem mapFn_fn (m : Nat) : (s.mapFn k f).fn m = if m = k then f (s.fn k) else s.fn m := Tbl.get_upd
@[simp] theorem mapFn_fn_self : (s.mapFn k f).fn k = f (s.fn k) := Tbl.get_upd_self
theorem mapFn_fn_ne (m : Nat) (h : m ≠ k) : (s.mapFn k f).fn m = s.fn m := Tbl.get_upd_ne h
@[simp] theorem mapFn_strand (m : Nat) : (s.mapFn k f).strand m = s.strand m := rfl
@[simp] theorem mapFn_core (m : Nat) : (s.mapFn k f).core m = s.core m := rfl
@[simp] theorem mapFn_die (m : Nat) : (s.mapFn k f).die m = s.die m := rfl
@[simp] theorem mapFn_ctxOf (m : Nat) : (s.mapFn k f).ctxOf m = s.ctxOf m := rfl
@[simp] theorem mapFn_group (g : Nat) : (s.mapFn k f).group g = s.group g := rfl
end mapFn

section mapPkg
variable (f : Package → Package)
@[simp] theorem mapPkg_pkg : (s.mapPkg f).pkg = f s.pkg := rfl
@[simp] theorem mapPkg_strands : (s.mapPkg f).strands = s.strands := rfl
@[simp] theorem mapPkg_cores : (s.mapPkg f).cores = s.cores := rfl
@[simp] theorem mapPkg_dies : (s.mapPkg f).dies = s.dies := rfl
@[simp] theorem mapPkg_ctx : (s.mapPkg f).ctx = s.ctx := rfl
@[simp] theorem mapPkg_fns : (s.mapPkg f).fns = s.fns := rfl
@[simp] theorem mapPkg_hbm : (s.mapPkg f).hbm = s.hbm := rfl
@[simp] theorem mapPkg_ground : (s.mapPkg f).ground = s.ground := rfl
@[simp] theorem mapPkg_host : (s.mapPkg f).host = s.host := rfl
@[simp] theorem mapPkg_groups : (s.mapPkg f).groups = s.groups := rfl
@[simp] theorem mapPkg_flight : (s.mapPkg f).flight = s.flight := rfl
@[simp] theorem mapPkg_sent : (s.mapPkg f).sent = s.sent := rfl
@[simp] theorem mapPkg_ref : (s.mapPkg f).ref = s.ref := rfl
@[simp] theorem mapPkg_oldHeap : (s.mapPkg f).oldHeap = s.oldHeap := rfl
@[simp] theorem mapPkg_oldSync : (s.mapPkg f).oldSync = s.oldSync := rfl
@[simp] theorem mapPkg_cur : (s.mapPkg f).cur = s.cur := rfl
@[simp] theorem mapPkg_turn : (s.mapPkg f).turn = s.turn := rfl
@[simp] theorem mapPkg_inputs : (s.mapPkg f).inputs = s.inputs := rfl
@[simp] theorem mapPkg_upsets : (s.mapPkg f).upsets = s.upsets := rfl
@[simp] theorem mapPkg_past : (s.mapPkg f).past = s.past := rfl
@[simp] theorem mapPkg_cycle : (s.mapPkg f).cycle = s.cycle := rfl
@[simp] theorem mapPkg_free : (s.mapPkg f).free = s.free := rfl
@[simp] theorem mapPkg_nextId : (s.mapPkg f).nextId = s.nextId := rfl
@[simp] theorem mapPkg_strand (m : Nat) : (s.mapPkg f).strand m = s.strand m := rfl
@[simp] theorem mapPkg_core (m : Nat) : (s.mapPkg f).core m = s.core m := rfl
@[simp] theorem mapPkg_die (m : Nat) : (s.mapPkg f).die m = s.die m := rfl
@[simp] theorem mapPkg_ctxOf (m : Nat) : (s.mapPkg f).ctxOf m = s.ctxOf m := rfl
@[simp] theorem mapPkg_fn (m : Nat) : (s.mapPkg f).fn m = s.fn m := rfl
@[simp] theorem mapPkg_group (g : Nat) : (s.mapPkg f).group g = s.group g := rfl
end mapPkg

section mapGroup
variable (g : Nat) (f : Group → Group)
@[simp] theorem mapGroup_strands : (s.mapGroup g f).strands = s.strands := by unfold State.mapGroup; split <;> rfl
@[simp] theorem mapGroup_cores : (s.mapGroup g f).cores = s.cores := by unfold State.mapGroup; split <;> rfl
@[simp] theorem mapGroup_dies : (s.mapGroup g f).dies = s.dies := by unfold State.mapGroup; split <;> rfl
@[simp] theorem mapGroup_ctx : (s.mapGroup g f).ctx = s.ctx := by unfold State.mapGroup; split <;> rfl
@[simp] theorem mapGroup_fns : (s.mapGroup g f).fns = s.fns := by unfold State.mapGroup; split <;> rfl
@[simp] theorem mapGroup_pkg : (s.mapGroup g f).pkg = s.pkg := by unfold State.mapGroup; split <;> rfl
@[simp] theorem mapGroup_hbm : (s.mapGroup g f).hbm = s.hbm := by unfold State.mapGroup; split <;> rfl
@[simp] theorem mapGroup_ground : (s.mapGroup g f).ground = s.ground := by unfold State.mapGroup; split <;> rfl
@[simp] theorem mapGroup_host : (s.mapGroup g f).host = s.host := by unfold State.mapGroup; split <;> rfl
@[simp] theorem mapGroup_flight : (s.mapGroup g f).flight = s.flight := by unfold State.mapGroup; split <;> rfl
@[simp] theorem mapGroup_sent : (s.mapGroup g f).sent = s.sent := by unfold State.mapGroup; split <;> rfl
@[simp] theorem mapGroup_ref : (s.mapGroup g f).ref = s.ref := by unfold State.mapGroup; split <;> rfl
@[simp] theorem mapGroup_oldHeap : (s.mapGroup g f).oldHeap = s.oldHeap := by unfold State.mapGroup; split <;> rfl
@[simp] theorem mapGroup_oldSync : (s.mapGroup g f).oldSync = s.oldSync := by unfold State.mapGroup; split <;> rfl
@[simp] theorem mapGroup_cur : (s.mapGroup g f).cur = s.cur := by unfold State.mapGroup; split <;> rfl
@[simp] theorem mapGroup_turn : (s.mapGroup g f).turn = s.turn := by unfold State.mapGroup; split <;> rfl
@[simp] theorem mapGroup_inputs : (s.mapGroup g f).inputs = s.inputs := by unfold State.mapGroup; split <;> rfl
@[simp] theorem mapGroup_upsets : (s.mapGroup g f).upsets = s.upsets := by unfold State.mapGroup; split <;> rfl
@[simp] theorem mapGroup_past : (s.mapGroup g f).past = s.past := by unfold State.mapGroup; split <;> rfl
@[simp] theorem mapGroup_cycle : (s.mapGroup g f).cycle = s.cycle := by unfold State.mapGroup; split <;> rfl
@[simp] theorem mapGroup_free : (s.mapGroup g f).free = s.free := by unfold State.mapGroup; split <;> rfl
@[simp] theorem mapGroup_nextId : (s.mapGroup g f).nextId = s.nextId := by unfold State.mapGroup; split <;> rfl
@[simp] theorem mapGroup_strand (m : Nat) : (s.mapGroup g f).strand m = s.strand m := by unfold State.strand; simp
@[simp] theorem mapGroup_core (m : Nat) : (s.mapGroup g f).core m = s.core m := by unfold State.core; simp
@[simp] theorem mapGroup_die (m : Nat) : (s.mapGroup g f).die m = s.die m := by unfold State.die; simp
@[simp] theorem mapGroup_ctxOf (m : Nat) : (s.mapGroup g f).ctxOf m = s.ctxOf m := by unfold State.ctxOf; simp
@[simp] theorem mapGroup_fn (m : Nat) : (s.mapGroup g f).fn m = s.fn m := by unfold State.fn; simp
theorem mapGroup_group_self (x : Group) (h : s.group g = some x) : (s.mapGroup g f).group g = some (f x) := by
  unfold State.mapGroup; rw [h]; exact find_ins_self
theorem mapGroup_group_ne (j : Nat) (h : j ≠ g) : (s.mapGroup g f).group j = s.group j := by
  unfold State.mapGroup
  split
  · rfl
  · exact find_ins_ne h
end mapGroup

section tick
@[simp] theorem tick_strands : s.tick.strands = s.strands := rfl
@[simp] theorem tick_cores : s.tick.cores = s.cores := rfl
@[simp] theorem tick_dies : s.tick.dies = s.dies := rfl
@[simp] theorem tick_ctx : s.tick.ctx = s.ctx := rfl
@[simp] theorem tick_fns : s.tick.fns = s.fns := rfl
@[simp] theorem tick_pkg : s.tick.pkg = s.pkg := rfl
@[simp] theorem tick_hbm : s.tick.hbm = s.hbm := rfl
@[simp] theorem tick_ground : s.tick.ground = s.ground := rfl
@[simp] theorem tick_host : s.tick.host = s.host := rfl
@[simp] theorem tick_groups : s.tick.groups = s.groups := rfl
@[simp] theorem tick_flight : s.tick.flight = s.flight := rfl
@[simp] theorem tick_sent : s.tick.sent = s.sent := rfl
@[simp] theorem tick_ref : s.tick.ref = s.ref := rfl
@[simp] theorem tick_oldHeap : s.tick.oldHeap = s.oldHeap := rfl
@[simp] theorem tick_oldSync : s.tick.oldSync = s.oldSync := rfl
@[simp] theorem tick_cur : s.tick.cur = s.cur := rfl
@[simp] theorem tick_turn : s.tick.turn = s.turn := rfl
@[simp] theorem tick_inputs : s.tick.inputs = s.inputs := rfl
@[simp] theorem tick_upsets : s.tick.upsets = s.upsets := rfl
@[simp] theorem tick_past : s.tick.past = s.past := rfl
@[simp] theorem tick_cycle : s.tick.cycle = s.cycle := rfl
@[simp] theorem tick_nextId : s.tick.nextId = s.nextId := rfl
@[simp] theorem tick_free : s.tick.free = s.free + 1 := rfl
@[simp] theorem tick_strand (m : Nat) : s.tick.strand m = s.strand m := rfl
@[simp] theorem tick_core (m : Nat) : s.tick.core m = s.core m := rfl
@[simp] theorem tick_die (m : Nat) : s.tick.die m = s.die m := rfl
@[simp] theorem tick_ctxOf (m : Nat) : s.tick.ctxOf m = s.ctxOf m := rfl
@[simp] theorem tick_fn (m : Nat) : s.tick.fn m = s.fn m := rfl
@[simp] theorem tick_group (g : Nat) : s.tick.group g = s.group g := rfl
end tick

/-! ### The registers of a strand -/

section registers
variable (x : Strand) (t : Tag) (i j : Nat) (v : W64)
@[simp] theorem Strand.setS_st : (x.setS t i v).st = x.st := by unfold Strand.setS; split <;> rfl
@[simp] theorem Strand.setS_dbg : (x.setS t i v).dbg = x.dbg := by unfold Strand.setS; split <;> rfl
@[simp] theorem Strand.setS_oneStep : (x.setS t i v).oneStep = x.oneStep := by unfold Strand.setS; split <;> rfl
@[simp] theorem Strand.setS_brkLen : (x.setS t i v).brkLen = x.brkLen := by unfold Strand.setS; split <;> rfl
@[simp] theorem Strand.setS_brkVal : (x.setS t i v).brkVal = x.brkVal := by unfold Strand.setS; split <;> rfl
@[simp] theorem Strand.setS_grp : (x.setS t i v).grp = x.grp := by unfold Strand.setS; split <;> rfl
@[simp] theorem Strand.setS_pc : (x.setS t i v).pc = x.pc := by unfold Strand.setS; split <;> rfl
@[simp] theorem Strand.setS_pregs : (x.setS t i v).pregs = x.pregs := by unfold Strand.setS; split <;> rfl
@[simp] theorem Strand.setS_ctl : (x.setS t i v).ctl = x.ctl := by unfold Strand.setS; split <;> rfl
@[simp] theorem Strand.setS_staged : (x.setS t i v).staged = x.staged := by unfold Strand.setS; split <;> rfl
@[simp] theorem Strand.setS_pend : (x.setS t i v).pend = x.pend := by unfold Strand.setS; split <;> rfl
@[simp] theorem Strand.setS_yieldUntil : (x.setS t i v).yieldUntil = x.yieldUntil := by unfold Strand.setS; split <;> rfl
@[simp] theorem Strand.setS_task : (x.setS t i v).task = x.task := by unfold Strand.setS; split <;> rfl
@[simp] theorem Strand.setS_swait : (x.setS t i v).swait = x.swait := by unfold Strand.setS; split <;> rfl
@[simp] theorem Strand.setS_spLph : (x.setS t i v).spLph = x.spLph := by unfold Strand.setS; split <;> rfl
@[simp] theorem Strand.setS_spIter : (x.setS t i v).spIter = x.spIter := by unfold Strand.setS; split <;> rfl
@[simp] theorem Strand.setS_spCycle : (x.setS t i v).spCycle = x.spCycle := by unfold Strand.setS; split <;> rfl
@[simp] theorem Strand.setS_iterLen : (x.setS t i v).iterLen = x.iterLen := by unfold Strand.setS; split <;> rfl
@[simp] theorem Strand.setS_atSafe : (x.setS t i v).atSafe = x.atSafe := by unfold Strand.setS; split <;> rfl
@[simp] theorem Strand.setS_fresh : (x.setS t i v).fresh = x.fresh := by unfold Strand.setS; split <;> rfl
@[simp] theorem Strand.setS_stall : (x.setS t i v).stall = x.stall := by unfold Strand.setS; split <;> rfl
@[simp] theorem Strand.setS_peerLost : (x.setS t i v).peerLost = x.peerLost := by unfold Strand.setS; split <;> rfl
@[simp] theorem Strand.setP_st : (x.setP t i v).st = x.st := by unfold Strand.setP; split <;> rfl
@[simp] theorem Strand.setP_dbg : (x.setP t i v).dbg = x.dbg := by unfold Strand.setP; split <;> rfl
@[simp] theorem Strand.setP_oneStep : (x.setP t i v).oneStep = x.oneStep := by unfold Strand.setP; split <;> rfl
@[simp] theorem Strand.setP_brkLen : (x.setP t i v).brkLen = x.brkLen := by unfold Strand.setP; split <;> rfl
@[simp] theorem Strand.setP_brkVal : (x.setP t i v).brkVal = x.brkVal := by unfold Strand.setP; split <;> rfl
@[simp] theorem Strand.setP_grp : (x.setP t i v).grp = x.grp := by unfold Strand.setP; split <;> rfl
@[simp] theorem Strand.setP_pc : (x.setP t i v).pc = x.pc := by unfold Strand.setP; split <;> rfl
@[simp] theorem Strand.setP_sregs : (x.setP t i v).sregs = x.sregs := by unfold Strand.setP; split <;> rfl
@[simp] theorem Strand.setP_ctl : (x.setP t i v).ctl = x.ctl := by unfold Strand.setP; split <;> rfl
@[simp] theorem Strand.setP_staged : (x.setP t i v).staged = x.staged := by unfold Strand.setP; split <;> rfl
@[simp] theorem Strand.setP_pend : (x.setP t i v).pend = x.pend := by unfold Strand.setP; split <;> rfl
@[simp] theorem Strand.setP_yieldUntil : (x.setP t i v).yieldUntil = x.yieldUntil := by unfold Strand.setP; split <;> rfl
@[simp] theorem Strand.setP_task : (x.setP t i v).task = x.task := by unfold Strand.setP; split <;> rfl
@[simp] theorem Strand.setP_swait : (x.setP t i v).swait = x.swait := by unfold Strand.setP; split <;> rfl
@[simp] theorem Strand.setP_spLph : (x.setP t i v).spLph = x.spLph := by unfold Strand.setP; split <;> rfl
@[simp] theorem Strand.setP_spIter : (x.setP t i v).spIter = x.spIter := by unfold Strand.setP; split <;> rfl
@[simp] theorem Strand.setP_spCycle : (x.setP t i v).spCycle = x.spCycle := by unfold Strand.setP; split <;> rfl
@[simp] theorem Strand.setP_iterLen : (x.setP t i v).iterLen = x.iterLen := by unfold Strand.setP; split <;> rfl
@[simp] theorem Strand.setP_atSafe : (x.setP t i v).atSafe = x.atSafe := by unfold Strand.setP; split <;> rfl
@[simp] theorem Strand.setP_fresh : (x.setP t i v).fresh = x.fresh := by unfold Strand.setP; split <;> rfl
@[simp] theorem Strand.setP_stall : (x.setP t i v).stall = x.stall := by unfold Strand.setP; split <;> rfl
@[simp] theorem Strand.setP_peerLost : (x.setP t i v).peerLost = x.peerLost := by unfold Strand.setP; split <;> rfl
@[simp] theorem Strand.setCtl_st : (x.setCtl t i v).st = x.st := rfl
@[simp] theorem Strand.setCtl_dbg : (x.setCtl t i v).dbg = x.dbg := rfl
@[simp] theorem Strand.setCtl_oneStep : (x.setCtl t i v).oneStep = x.oneStep := rfl
@[simp] theorem Strand.setCtl_brkLen : (x.setCtl t i v).brkLen = x.brkLen := rfl
@[simp] theorem Strand.setCtl_brkVal : (x.setCtl t i v).brkVal = x.brkVal := rfl
@[simp] theorem Strand.setCtl_grp : (x.setCtl t i v).grp = x.grp := rfl
@[simp] theorem Strand.setCtl_pc : (x.setCtl t i v).pc = x.pc := rfl
@[simp] theorem Strand.setCtl_sregs : (x.setCtl t i v).sregs = x.sregs := rfl
@[simp] theorem Strand.setCtl_pregs : (x.setCtl t i v).pregs = x.pregs := rfl
@[simp] theorem Strand.setCtl_staged : (x.setCtl t i v).staged = x.staged := rfl
@[simp] theorem Strand.setCtl_pend : (x.setCtl t i v).pend = x.pend := rfl
@[simp] theorem Strand.setCtl_yieldUntil : (x.setCtl t i v).yieldUntil = x.yieldUntil := rfl
@[simp] theorem Strand.setCtl_task : (x.setCtl t i v).task = x.task := rfl
@[simp] theorem Strand.setCtl_swait : (x.setCtl t i v).swait = x.swait := rfl
@[simp] theorem Strand.setCtl_spLph : (x.setCtl t i v).spLph = x.spLph := rfl
@[simp] theorem Strand.setCtl_spIter : (x.setCtl t i v).spIter = x.spIter := rfl
@[simp] theorem Strand.setCtl_spCycle : (x.setCtl t i v).spCycle = x.spCycle := rfl
@[simp] theorem Strand.setCtl_iterLen : (x.setCtl t i v).iterLen = x.iterLen := rfl
@[simp] theorem Strand.setCtl_atSafe : (x.setCtl t i v).atSafe = x.atSafe := rfl
@[simp] theorem Strand.setCtl_fresh : (x.setCtl t i v).fresh = x.fresh := rfl
@[simp] theorem Strand.setCtl_stall : (x.setCtl t i v).stall = x.stall := rfl
@[simp] theorem Strand.setCtl_peerLost : (x.setCtl t i v).peerLost = x.peerLost := rfl
@[simp] theorem Strand.setPc_st : (x.setPc t v).st = x.st := rfl
@[simp] theorem Strand.setPc_dbg : (x.setPc t v).dbg = x.dbg := rfl
@[simp] theorem Strand.setPc_oneStep : (x.setPc t v).oneStep = x.oneStep := rfl
@[simp] theorem Strand.setPc_brkLen : (x.setPc t v).brkLen = x.brkLen := rfl
@[simp] theorem Strand.setPc_brkVal : (x.setPc t v).brkVal = x.brkVal := rfl
@[simp] theorem Strand.setPc_grp : (x.setPc t v).grp = x.grp := rfl
@[simp] theorem Strand.setPc_sregs : (x.setPc t v).sregs = x.sregs := rfl
@[simp] theorem Strand.setPc_pregs : (x.setPc t v).pregs = x.pregs := rfl
@[simp] theorem Strand.setPc_ctl : (x.setPc t v).ctl = x.ctl := rfl
@[simp] theorem Strand.setPc_staged : (x.setPc t v).staged = x.staged := rfl
@[simp] theorem Strand.setPc_pend : (x.setPc t v).pend = x.pend := rfl
@[simp] theorem Strand.setPc_yieldUntil : (x.setPc t v).yieldUntil = x.yieldUntil := rfl
@[simp] theorem Strand.setPc_task : (x.setPc t v).task = x.task := rfl
@[simp] theorem Strand.setPc_swait : (x.setPc t v).swait = x.swait := rfl
@[simp] theorem Strand.setPc_spLph : (x.setPc t v).spLph = x.spLph := rfl
@[simp] theorem Strand.setPc_spIter : (x.setPc t v).spIter = x.spIter := rfl
@[simp] theorem Strand.setPc_spCycle : (x.setPc t v).spCycle = x.spCycle := rfl
@[simp] theorem Strand.setPc_iterLen : (x.setPc t v).iterLen = x.iterLen := rfl
@[simp] theorem Strand.setPc_atSafe : (x.setPc t v).atSafe = x.atSafe := rfl
@[simp] theorem Strand.setPc_fresh : (x.setPc t v).fresh = x.fresh := rfl
@[simp] theorem Strand.setPc_stall : (x.setPc t v).stall = x.stall := rfl
@[simp] theorem Strand.setPc_peerLost : (x.setPc t v).peerLost = x.peerLost := rfl
@[simp] theorem Strand.setPc_getPc : (x.setPc t v).getPc t = v := by simp [Strand.setPc, Strand.getPc, Tagged.whole, Tagged.read]
@[simp] theorem Strand.s_zero : x.s t 0 = 0 := rfl
@[simp] theorem Strand.p_zero : x.p t 0 = BitVec.allOnes 64 := rfl
/-- A scalar that was written is read, s0 apart. -/
theorem Strand.setS_s_self (h : i ≠ 0) : (x.setS t i v).s t i = v := by
  simp [Strand.setS, Strand.s, h, Tagged.whole, Tagged.read]
theorem Strand.setS_s_ne (h : j ≠ i) : (x.setS t i v).s t j = x.s t j := by
  unfold Strand.setS Strand.s
  by_cases hi : i = 0
  · simp [hi]
  · simp [hi, Tbl.get_put_ne h]
theorem Strand.setP_p_self (h : i ≠ 0) : (x.setP t i v).p t i = v := by
  simp [Strand.setP, Strand.p, h, Tagged.whole, Tagged.read]
theorem Strand.setP_p_ne (h : j ≠ i) : (x.setP t i v).p t j = x.p t j := by
  unfold Strand.setP Strand.p
  by_cases hi : i = 0
  · simp [hi]
  · simp [hi, Tbl.get_put_ne h]
@[simp] theorem Strand.setCtl_ctlReg_self : (x.setCtl t i v).ctlReg t i = v := by
  simp [Strand.setCtl, Strand.ctlReg, Tagged.whole, Tagged.read]
theorem Strand.setCtl_ctlReg_ne (h : j ≠ i) : (x.setCtl t i v).ctlReg t j = x.ctlReg t j := by
  simp [Strand.setCtl, Strand.ctlReg, Tbl.get_put_ne h]
end registers

/-! ### The owner tag of a strand does not depend on registers -/

theorem groupOf_mapStrand (n m : Nat) (f : Strand → Strand) (h : (f (s.strand n)).grp = (s.strand n).grp) :
    (s.mapStrand n f).groupOf m = s.groupOf m := by
  have : ((s.mapStrand n f).strand m).grp = (s.strand m).grp := by
    rw [mapStrand_strand]; split
    · subst m; exact h
    · rfl
  unfold State.groupOf; rw [this]; rfl
theorem tagOfStrand_mapStrand (n m : Nat) (f : Strand → Strand) (h : (f (s.strand n)).grp = (s.strand n).grp) :
    (s.mapStrand n f).tagOfStrand m = s.tagOfStrand m := by
  simp only [State.tagOfStrand, State.slotOf, State.genOf, groupOf_mapStrand s n m f h]

end Sys2Proof.Machine
end

