-- ==== Sys2Proof/Laws/Issue.lean ====
section
/-! SUPPORT. What the issue of a strand's instruction comes to: the effect when everything is there, and nothing of the effect when
it is not. -/
namespace Sys2Proof.Machine

variable {s t : State} {i : Instr} {p : Pred} {srcs dsts : List Nat}

/-- An instruction whose predicate, sources and destinations are there and sound, and whose predicate holds, has its own result. -/
theorem issueAs_sound (gate late : Bool) (k : Res) (h : s.sound p srcs dsts = true) (on : gate = true → s.predOn s.cur p = true) :
    s.issueAs gate late i p srcs dsts k = match k with
      | .done t => .next t
      | .wait t => .next (t.block s.cur)
      | .trapIn t e => .next (t.trapNow s.cur i e)
      | .trap e => .next (s.trapNow s.cur i e) := by
  simp only [State.sound, Bool.and_eq_true, Bool.not_eq_true'] at h
  obtain ⟨⟨⟨⟨h1, h2⟩, h3⟩, h4⟩, h5⟩ := h
  have hg : (gate && !s.predOn s.cur p) = false := by cases gate <;> simp_all
  unfold State.issueAs
  simp only [h1, h2, h3, h4, h5, hg, Bool.false_eq_true, if_false, Bool.or_self, Bool.false_and, Bool.and_false]
  cases k <;> rfl

theorem issue_ready (k : Res) (h : s.ready p srcs dsts = true) :
    s.issue i p srcs dsts k = match k with
      | .done t => .next t
      | .wait t => .next (t.block s.cur)
      | .trapIn t e => .next (t.trapNow s.cur i e)
      | .trap e => .next (s.trapNow s.cur i e) := by
  simp only [State.ready, Bool.and_eq_true] at h
  exact issueAs_sound true false k h.1 fun _ => h.2

@[simp] theorem issue_done (h : s.ready p srcs dsts = true) : s.issue i p srcs dsts (.done t) = .next t := issue_ready _ h
@[simp] theorem issue_wait (h : s.ready p srcs dsts = true) : s.issue i p srcs dsts (.wait t) = .next (t.block s.cur) := issue_ready _ h
@[simp] theorem issue_trapIn {e : Trap} (h : s.ready p srcs dsts = true) :
    s.issue i p srcs dsts (.trapIn t e) = .next (t.trapNow s.cur i e) := issue_ready _ h
@[simp] theorem issue_trap {e : Trap} (h : s.ready p srcs dsts = true) :
    s.issue i p srcs dsts (.trap e) = .next (s.trapNow s.cur i e) := issue_ready _ h

/-- A predicate that does not hold leaves everything but PC (R277). -/
theorem issue_off (k : Res) (h : (s.strand s.cur).pend.contains (pendP p.n.toNat) = false)
    (hb : (s.strand s.cur).pBad (s.tagOfStrand s.cur) p.n.toNat = false) (off : s.predOn s.cur p = false) :
    s.issue i p srcs dsts k = .next (s.adv s.cur i) := by
  unfold State.issue State.issueAs
  simp only [h, hb, off, Bool.not_false, Bool.and_self, Bool.and_false, Bool.false_eq_true, if_false, if_true]

/-- A Form A instruction that writes one scalar. -/
theorem alu_ready {f : FA} {g : W64 → W64 → W64 → W64 → Chk W64} {v : W64} (old : Bool)
    (h : s.ready f.pr (opdRegs [f.a, f.b, f.c] ++ if old then [f.d.dest] else []) [f.d.dest] = true)
    (hv : g (s.val f.a) (s.val f.b) (s.val f.c) (s.val f.d) = .ok v) :
    s.alu i f old g = .next (s.wrote i f.d.dest v) := by
  simp only [State.val] at hv
  simp only [State.alu, hv, issue_done h, State.wrote]

/-! ### The cores, dies and groups do not move when a strand's registers do -/

@[simp] theorem setS_strand_ne (n m d : Nat) (v : W64) (h : m ≠ n) : (s.setS n d v).strand m = s.strand m := mapStrand_strand_ne _ _ _ _ h
@[simp] theorem tagOfStrand_setS (n m d : Nat) (v : W64) : (s.setS n d v).tagOfStrand m = s.tagOfStrand m :=
  tagOfStrand_mapStrand _ _ _ _ (Strand.setS_grp ..)
@[simp] theorem tagOfStrand_adv (n m : Nat) : (s.adv n i).tagOfStrand m = s.tagOfStrand m := tagOfStrand_mapStrand _ _ _ _ rfl
@[simp] theorem setS_cur (n d : Nat) (v : W64) : (s.setS n d v).cur = s.cur := rfl
@[simp] theorem adv_cur (n : Nat) : (s.adv n i).cur = s.cur := rfl

/-- What `adv` leaves of its strand. -/
theorem adv_strand (n : Nat) : (s.adv n i).strand n = { s.strand n with
    pc := Tagged.whole (s.tagOfStrand n) (s.getPc n + BitVec.ofNat 64 i.len)
    st := if (s.strand n).st = .blocked then .running else (s.strand n).st } := by
  simp [State.adv, Strand.setPc, State.getPc]

/-- The scalars of the strand after a write: the one written, and no other; s0 never. -/
theorem wrote_scalar (d j : Nat) (v : W64) :
    ((s.wrote i d v).strand s.cur).s (s.tagOfStrand s.cur) j =
      if j = d ∧ d ≠ 0 then v else (s.strand s.cur).s (s.tagOfStrand s.cur) j := by
  simp only [State.wrote, adv_strand, Strand.s]
  by_cases hd : d = 0
  · subst hd; simp [State.setS, Strand.setS]
  · by_cases hj : j = d
    · subst hj; simp [State.setS, Strand.setS, hd, Tagged.whole, Tagged.read]
    · simp [State.setS, Strand.setS, hd, hj, Tbl.get_put_ne hj]

end Sys2Proof.Machine
end

