-- ==== Sys2Proof/Laws/Memory.lean ====
section
/-! SUPPORT. Laws of memory under tags: what one write does to every byte and every granule, and that every operation keeps the one
form. -/
namespace Sys2Proof.Machine

open Sys2Proof

variable {m : TMem} {l : Bool} {t : Tag} {cs : List Host.Cell}

/-! ### Bytes without tags -/

/-- The last value that cells give an address. -/
def lastOf : List Host.Cell → Nat → Option Byte
  | [], _ => none
  | c :: r, a => match lastOf r a with
    | some v => some v
    | none => if a = c.1 then some c.2 else none

theorem get_putCells (b : List Host.Cell) (a : Nat) : Tbl.get 0 (putCells b cs) a = (lastOf cs a).getD (Tbl.get 0 b a) := by
  induction cs generalizing b with
  | nil => rfl
  | cons c r ih =>
    simp only [putCells, ih, lastOf]
    cases lastOf r a with
    | some v => rfl
    | none =>
      by_cases h : a = c.1
      · subst h; simp
      · simp [h, Tbl.get_put_ne h]

theorem lastOf_cellsAt (d : List Byte) (x a : Nat) : lastOf (cellsAt x d) a = if x ≤ a then d[a - x]? else none := by
  induction d generalizing x with
  | nil => simp [cellsAt, lastOf]
  | cons b r ih =>
    simp only [cellsAt, lastOf, ih]
    by_cases h1 : x + 1 ≤ a
    · obtain ⟨k, rfl⟩ : ∃ k, a = x + 1 + k := ⟨a - (x + 1), by omega⟩
      rw [if_pos h1, if_neg (show ¬(x + 1 + k = x) by omega), if_pos (show x ≤ x + 1 + k by omega),
        show x + 1 + k - (x + 1) = k by omega, show x + 1 + k - x = k + 1 by omega, List.getElem?_cons_succ]
      cases r[k]? <;> rfl
    · rw [if_neg h1]
      by_cases h2 : a = x
      · subst h2; simp
      · simp only; rw [if_neg h2, if_neg (by omega)]

theorem get_filter {α : Type} {d : α} (b : Tbl α) (p : Nat → Bool) (a : Nat) :
    Tbl.get d (b.filter fun c => p c.1) a = if p a then Tbl.get d b a else d := by
  induction b with
  | nil => simp
  | cons c r ih =>
    obtain ⟨j, v⟩ := c
    simp only [List.filter]
    by_cases hj : p j = true
    · simp only [hj, Tbl.get, ih]
      by_cases h : a = j
      · subst h; simp [hj]
      · simp [h]
    · rw [Bool.not_eq_true] at hj
      simp only [hj, ih, Tbl.get]
      by_cases h : a = j
      · subst h; simp [hj]
      · simp [h]

/-! ### The granules that a write claims -/

/-- Claiming a granule leaves every other granule and its bytes. -/
theorem claim_gran_ne (g : Nat) (w : Bool) (a : Nat) (h : a / 64 ≠ g) : (m.claim l t g w).gran a = m.gran a := by
  unfold TMem.claim TMem.gran
  simp only
  split
  · split
    · exact Tbl.get_put_ne h
    · rfl
  · exact Tbl.get_put_ne h

theorem claim_raw (g : Nat) (w : Bool) (a : Nat) :
    (m.claim l t g w).raw a = if a / 64 = g ∧ (m.gran a).current l t = false then 0 else m.raw a := by
  unfold TMem.claim
  simp only
  by_cases hg : a / 64 = g
  · have e : m.gran a = Tbl.get Gran.zero m.side g := by unfold TMem.gran; rw [hg]
    rw [e]
    cases hc : (Tbl.get Gran.zero m.side g).current l t with
    | true => simp only [if_true]; split <;> simp [TMem.raw, hg]
    | false =>
      simp only [TMem.raw, Bool.false_eq_true, if_false]
      rw [get_filter m.bytes (fun x => x / 64 != g)]
      simp [hg]
  · cases hc : (Tbl.get Gran.zero m.side g).current l t with
    | true => simp only [if_true]; split <;> simp [TMem.raw, hg]
    | false =>
      simp only [TMem.raw, Bool.false_eq_true, if_false]
      rw [get_filter m.bytes (fun x => x / 64 != g)]
      simp [hg]

/-- A claimed granule is current for the writer. -/
theorem claim_current (g : Nat) (w : Bool) (a : Nat) (h : a / 64 = g) : ((m.claim l t g w).gran a).current l t = true := by
  unfold TMem.claim TMem.gran
  simp only [h]
  split
  · split
    · simp [Gran.current]
    · assumption
  · simp [Gran.current]

/-- What a claim does to a byte as the writer reads it: nothing. -/
theorem claim_byte (g : Nat) (w : Bool) (a : Nat) : (m.claim l t g w).byte l t a = m.byte l t a := by
  unfold TMem.byte
  by_cases h : a / 64 = g
  · rw [claim_current g w a h, claim_raw]
    cases hc : (m.gran a).current l t <;> simp [h]
  · rw [claim_gran_ne g w a h, claim_raw]; simp [h]

theorem claims_byte (gs : List Nat) (w : Nat → Bool) (a : Nat) :
    (gs.foldl (fun m g => m.claim l t g (w g)) m).byte l t a = m.byte l t a := by
  induction gs generalizing m with
  | nil => rfl
  | cons g r ih => simp only [List.foldl, ih, claim_byte]

theorem claims_gran_ne (gs : List Nat) (w : Nat → Bool) (a : Nat) (h : a / 64 ∉ gs) :
    (gs.foldl (fun m g => m.claim l t g (w g)) m).gran a = m.gran a ∧
      (gs.foldl (fun m g => m.claim l t g (w g)) m).raw a = m.raw a := by
  induction gs generalizing m with
  | nil => exact ⟨rfl, rfl⟩
  | cons g r ih =>
    rw [List.mem_cons, not_or] at h
    have := ih (m := m.claim l t g (w g)) h.2
    exact ⟨this.1.trans (claim_gran_ne g _ a h.1), this.2.trans (by rw [claim_raw]; simp [h.1])⟩

theorem claims_current (gs : List Nat) (w : Nat → Bool) (a : Nat) (h : a / 64 ∈ gs) :
    ((gs.foldl (fun m g => m.claim l t g (w g)) m).gran a).current l t = true := by
  have keep : ∀ (gs : List Nat) (m : TMem), (m.gran a).current l t = true →
      ((gs.foldl (fun m g => m.claim l t g (w g)) m).gran a).current l t = true := by
    intro gs
    induction gs with
    | nil => exact fun _ h => h
    | cons g r ih =>
      intro m hm
      refine ih _ ?_
      by_cases hg : a / 64 = g
      · exact claim_current g _ a hg
      · rw [claim_gran_ne g _ a hg]; exact hm
  induction gs generalizing m with
  | nil => cases h
  | cons g r ih =>
    rcases List.mem_cons.1 h with h | h
    · exact keep r _ (claim_current g _ a h)
    · exact ih h

theorem mem_addOnce {x y : Nat} {r : List Nat} : y ∈ addOnce x r ↔ y = x ∨ y ∈ r := by
  unfold addOnce
  split
  · rename_i h
    constructor
    · exact Or.inr
    · rintro (rfl | h')
      · simpa using h
      · exact h'
  · simp [or_comm]

theorem mem_gransOf (g : Nat) : g ∈ gransOf cs ↔ ∃ c ∈ cs, c.1 / 64 = g := by
  have go : ∀ (cs : List Host.Cell) (r : List Nat), g ∈ cs.foldl (fun l c => addOnce (c.1 / 64) l) r ↔ g ∈ r ∨ ∃ c ∈ cs, c.1 / 64 = g := by
    intro cs
    induction cs with
    | nil => simp
    | cons c r' ih =>
      intro r
      simp only [List.foldl, ih, mem_addOnce, List.exists_mem_cons_iff]
      constructor
      · rintro ((h | h) | h)
        · exact .inr (.inl h.symm)
        · exact .inl h
        · exact .inr (.inr h)
      · rintro (h | h | h)
        · exact .inl (.inr h)
        · exact .inl (.inl h.symm)
        · exact .inr h
  exact (go cs []).trans (by simp)

/-! ### One write (R113 to R115) -/

theorem lastOf_some_mem {a : Nat} {v : Byte} (h : lastOf cs a = some v) : ∃ c ∈ cs, c.1 = a := by
  induction cs with
  | nil => cases h
  | cons c r ih =>
    simp only [lastOf] at h
    cases hr : lastOf r a with
    | some w =>
      obtain ⟨c', hc, e⟩ := ih (by rw [hr] at h; exact hr.trans h)
      exact ⟨c', List.mem_cons_of_mem _ hc, e⟩
    | none =>
      rw [hr] at h
      by_cases e : a = c.1
      · exact ⟨c, List.mem_cons_self, e.symm⟩
      · rw [if_neg e] at h; cases h

/-- Every byte as the writer reads it after its write: the cells that it wrote, and what was there before. -/
theorem write_byte (a : Nat) : (m.write l t cs).byte l t a = (lastOf cs a).getD (m.byte l t a) := by
  have hb : (m.write l t cs).byte l t a =
      if (((gransOf cs).foldl (fun m g => m.claim l t g (covers cs g)) m).gran a).current l t then
        (lastOf cs a).getD (((gransOf cs).foldl (fun m g => m.claim l t g (covers cs g)) m).raw a) else 0 := by
    unfold TMem.write TMem.byte TMem.gran TMem.raw
    simp only [get_putCells]
  rw [hb]
  have old := claims_byte (m := m) (l := l) (t := t) (gransOf cs) (covers cs) a
  unfold TMem.byte at old ⊢
  cases h : lastOf cs a with
  | none => simpa using old
  | some v =>
    obtain ⟨c, hc, e⟩ := lastOf_some_mem h
    rw [claims_current (gransOf cs) (covers cs) a ((mem_gransOf _).2 ⟨c, hc, by rw [e]⟩)]
    rfl

/-- A write leaves every granule that none of its cells lies in, for every reader. -/
theorem write_byte_ne (a : Nat) (q : Tag) (k : Bool) (h : ∀ c ∈ cs, c.1 / 64 ≠ a / 64) : (m.write l t cs).byte k q a = m.byte k q a := by
  have hg : a / 64 ∉ gransOf cs := fun hm => by obtain ⟨c, hc, e⟩ := (mem_gransOf _).1 hm; exact h c hc e
  obtain ⟨h1, h2⟩ := claims_gran_ne (m := m) (l := l) (t := t) (gransOf cs) (covers cs) a hg
  have hl : lastOf cs a = none := by
    cases hv : lastOf cs a with
    | none => rfl
    | some v => obtain ⟨c, hc, e⟩ := lastOf_some_mem hv; exact absurd (by rw [e]) (h c hc)
  have e1 : (m.write l t cs).gran a = m.gran a := h1
  have e2 : (m.write l t cs).raw a = m.raw a := by
    have : (m.write l t cs).raw a = (lastOf cs a).getD (((gransOf cs).foldl (fun m g => m.claim l t g (covers cs g)) m).raw a) := get_putCells _ _
    rw [this, hl]; exact h2
  unfold TMem.byte
  rw [e1, e2]

/-- The bytes that a store of `d` at `x` puts are read back under the same tag. -/
theorem write_read_back (x : Nat) (d : List Byte) (i : Nat) (h : i < d.length) : (m.write l t (cellsAt x d)).byte l t (x + i) = d[i] := by
  rw [write_byte, lastOf_cellsAt, if_pos (by omega), show x + i - x = i by omega, List.getElem?_eq_getElem h]; rfl

/-- A store of `d` at `x` leaves every other byte as the writer reads it. -/
theorem write_read_other (x : Nat) (d : List Byte) (a : Nat) (h : a < x ∨ x + d.length ≤ a) :
    (m.write l t (cellsAt x d)).byte l t a = m.byte l t a := by
  rw [write_byte, lastOf_cellsAt]
  split
  · rw [List.getElem?_eq_none (by omega)]; rfl
  · rfl

/-! ### The one form -/

theorem rising_filter {α : Type} {lo : Nat} {b : Tbl α} (p : Nat × α → Bool) (h : Tbl.rising lo b) : Tbl.rising lo (b.filter p) := by
  induction b generalizing lo with
  | nil => trivial
  | cons c r ih =>
    obtain ⟨h1, h2⟩ := h
    simp only [List.filter]
    split
    · exact ⟨h1, ih h2⟩
    · exact ih (Tbl.rising_mono (by omega) h2)

theorem wf_filter {α : Type} [DecidableEq α] {d : α} {b : Tbl α} (p : Nat × α → Bool) (h : Tbl.wf d b = true) : Tbl.wf d (b.filter p) = true := by
  rw [Tbl.wf_iff] at h ⊢
  exact ⟨rising_filter p h.1, fun e he => h.2 e (List.mem_filter.1 he).1⟩

theorem wf_del {α : Type} [DecidableEq α] {d : α} {b : Tbl α} {k : Nat} (h : Tbl.wf d b = true) : Tbl.wf d (Tbl.del b k) = true := by
  rw [Tbl.wf_iff] at h ⊢
  exact ⟨Tbl.rising_del h.1, Tbl.lean_del h.2⟩

theorem wf_putCells {b : List Host.Cell} (h : Tbl.wf 0 b = true) : Tbl.wf 0 (putCells b cs) = true := by
  induction cs generalizing b with
  | nil => exact h
  | cons c r ih => exact ih (Tbl.wf_put h)

theorem TMem.wf_iff : m.wf = true ↔ Tbl.wf 0 m.bytes = true ∧ Tbl.wf Gran.zero m.side = true := by simp [TMem.wf]

theorem wf_claim (g : Nat) (w : Bool) (h : m.wf = true) : (m.claim l t g w).wf = true := by
  rw [TMem.wf_iff] at h
  unfold TMem.claim
  simp only
  split
  · split
    · exact TMem.wf_iff.2 ⟨h.1, Tbl.wf_put h.2⟩
    · exact TMem.wf_iff.2 h
  · exact TMem.wf_iff.2 ⟨wf_filter _ h.1, Tbl.wf_put h.2⟩

theorem wf_claims (gs : List Nat) (w : Nat → Bool) (h : m.wf = true) : (gs.foldl (fun m g => m.claim l t g (w g)) m).wf = true := by
  induction gs generalizing m with
  | nil => exact h
  | cons g r ih => exact ih (wf_claim g _ h)

/-- A write keeps the one form of memory. -/
theorem wf_write (h : m.wf = true) : (m.write l t cs).wf = true := by
  have := TMem.wf_iff.1 (wf_claims (l := l) (t := t) (gransOf cs) (covers cs) h)
  exact TMem.wf_iff.2 ⟨wf_putCells this.1, this.2⟩

theorem wf_spoil (h : m.wf = true) : (m.spoil cs).wf = true := by
  unfold TMem.spoil
  induction gransOf cs generalizing m with
  | nil => exact h
  | cons g r ih =>
    simp only [List.foldl]
    refine ih (TMem.wf_iff.2 ⟨(TMem.wf_iff.1 h).1, ?_⟩)
    exact Tbl.wf_put (TMem.wf_iff.1 h).2

theorem wf_zeroGran (g : Nat) (h : m.wf = true) : (m.zeroGran g).wf = true :=
  TMem.wf_iff.2 ⟨wf_filter _ (TMem.wf_iff.1 h).1, wf_del (TMem.wf_iff.1 h).2⟩

/-- Memory after reset is in its one form. -/
theorem reset_wf : Memory.wf State.reset = true := rfl

end Sys2Proof.Machine
end

