-- ==== Sys2Proof/Laws/PerInstr.lean ====
section
/-! SUPPORT. For every instruction: the decoding tables give it back from its own opcode and fields. -/
namespace Sys2Proof.Laws.Table

/-- The tables name the form of the instruction's opcode, and build the instruction from its fields. -/
def Statement (i : Instr) : Prop :=
  splitOk i = true →
  match i.form with
  | .a op f => formOf op = some .a ∧ ofA op f = some i
  | .b op f => formOf op = some .b ∧ ofB op f = some i
  | .s op f => formOf op = some .s ∧ ofS op f = some i
  | .v op f => formOf op = some .v ∧ ofV op f = some i
  | .x op f => formOf op = some .x ∧ ofX op f = some i
  | .m op f => formOf op = some .m ∧ ofM op f = some i
  | .c op f => formOf op = some .c ∧ ofC op f = some i
  | .y op f => formOf op = some .y ∧ ofY op f = some i
  | .event => True

theorem nop (f : FA) : Statement (.nop f) := fun _ => ⟨rfl, rfl⟩
theorem add (f : FA) : Statement (.add f) := fun _ => ⟨rfl, rfl⟩
theorem sub (f : FA) : Statement (.sub f) := fun _ => ⟨rfl, rfl⟩
theorem mul (f : FA) : Statement (.mul f) := fun _ => ⟨rfl, rfl⟩
theorem mulh (f : FA) : Statement (.mulh f) := fun _ => ⟨rfl, rfl⟩
theorem div (f : FA) : Statement (.div f) := fun _ => ⟨rfl, rfl⟩
theorem rem (f : FA) : Statement (.rem f) := fun _ => ⟨rfl, rfl⟩
theorem and_ (f : FA) : Statement (.and_ f) := fun _ => ⟨rfl, rfl⟩
theorem or_ (f : FA) : Statement (.or_ f) := fun _ => ⟨rfl, rfl⟩
theorem xor (f : FA) : Statement (.xor f) := fun _ => ⟨rfl, rfl⟩
theorem andn (f : FA) : Statement (.andn f) := fun _ => ⟨rfl, rfl⟩
theorem shl (f : FA) : Statement (.shl f) := fun _ => ⟨rfl, rfl⟩
theorem shr (f : FA) : Statement (.shr f) := fun _ => ⟨rfl, rfl⟩
theorem sar (f : FA) : Statement (.sar f) := fun _ => ⟨rfl, rfl⟩
theorem rot (f : FA) : Statement (.rot f) := fun _ => ⟨rfl, rfl⟩
theorem min (f : FA) : Statement (.min f) := fun _ => ⟨rfl, rfl⟩
theorem max (f : FA) : Statement (.max f) := fun _ => ⟨rfl, rfl⟩
theorem clz (f : FA) : Statement (.clz f) := fun _ => ⟨rfl, rfl⟩
theorem ctz (f : FA) : Statement (.ctz f) := fun _ => ⟨rfl, rfl⟩
theorem popc (f : FA) : Statement (.popc f) := fun _ => ⟨rfl, rfl⟩
theorem ext (f : FA) : Statement (.ext f) := fun _ => ⟨rfl, rfl⟩
theorem ins (f : FA) : Statement (.ins f) := fun _ => ⟨rfl, rfl⟩
theorem sel (f : FA) : Statement (.sel f) := fun _ => ⟨rfl, rfl⟩
theorem cmp (f : FA) : Statement (.cmp f) := fun _ => ⟨rfl, rfl⟩
theorem cmps (f : FA) : Statement (.cmps f) := fun _ => ⟨rfl, rfl⟩
theorem mad (f : FA) : Statement (.mad f) := fun _ => ⟨rfl, rfl⟩
theorem lea (f : FA) : Statement (.lea f) := fun _ => ⟨rfl, rfl⟩
theorem mov (f : FA) : Statement (.mov f) := fun _ => ⟨rfl, rfl⟩
theorem plog (f : FA) : Statement (.plog f) := fun _ => ⟨rfl, rfl⟩
theorem movp (f : FA) : Statement (.movp f) := fun _ => ⟨rfl, rfl⟩
theorem clmul (f : FA) : Statement (.clmul f) := fun _ => ⟨rfl, rfl⟩
theorem br (f : FB) : Statement (.br f) := fun _ => ⟨rfl, rfl⟩
theorem brc (f : FB) : Statement (.brc f) := fun _ => ⟨rfl, rfl⟩
theorem brp (f : FB) : Statement (.brp f) := fun _ => ⟨rfl, rfl⟩
theorem jmp (f : FA) : Statement (.jmp f) := fun _ => ⟨rfl, rfl⟩
theorem call (f : FB) : Statement (.call f) := fun _ => ⟨rfl, rfl⟩
theorem callr (f : FA) : Statement (.callr f) := fun _ => ⟨rfl, rfl⟩
theorem ret (f : FA) : Statement (.ret f) := fun _ => ⟨rfl, rfl⟩
theorem loop (f : FB) : Statement (.loop f) := fun _ => ⟨rfl, rfl⟩
theorem lend (f : FB) : Statement (.lend f) := fun h => ⟨rfl, by simp_all [splitOk, ofB]⟩
theorem lendCnt (f : FB) : Statement (.lendCnt f) := fun h => ⟨rfl, by simp_all [splitOk, ofB]⟩
theorem qpt (f : FA) : Statement (.qpt f) := fun _ => ⟨rfl, rfl⟩
theorem halt (f : FA) : Statement (.halt f) := fun _ => ⟨rfl, rfl⟩
theorem yield (f : FA) : Statement (.yield f) := fun _ => ⟨rfl, rfl⟩
theorem rlabel (f : FA) : Statement (.rlabel f) := fun _ => ⟨rfl, rfl⟩
theorem trap (f : FA) : Statement (.trap f) := fun _ => ⟨rfl, rfl⟩
theorem brk (f : FA) : Statement (.brk f) := fun _ => ⟨rfl, rfl⟩
theorem fork (f : FB) : Statement (.fork f) := fun _ => ⟨rfl, rfl⟩
theorem sysrd (f : FS) : Statement (.sysrd f) := fun _ => ⟨rfl, rfl⟩
theorem syswr (f : FS) : Statement (.syswr f) := fun _ => ⟨rfl, rfl⟩
theorem time (f : FA) : Statement (.time f) := fun _ => ⟨rfl, rfl⟩
theorem perf (f : FA) : Statement (.perf f) := fun _ => ⟨rfl, rfl⟩
theorem genRd (f : FA) : Statement (.genRd f) := fun _ => ⟨rfl, rfl⟩
theorem genAdv (f : FA) : Statement (.genAdv f) := fun _ => ⟨rfl, rfl⟩
theorem tlbi (f : FA) : Statement (.tlbi f) := fun h => ⟨rfl, by simp_all [splitOk, ofA]⟩
theorem tlbiAll (f : FA) : Statement (.tlbiAll f) := fun h => ⟨rfl, by simp_all [splitOk, ofA]⟩
theorem evpost (f : FA) : Statement (.evpost f) := fun _ => ⟨rfl, rfl⟩
theorem id (f : FA) : Statement (.id f) := fun _ => ⟨rfl, rfl⟩
theorem vadd (f : FV) : Statement (.vadd f) := fun _ => ⟨rfl, rfl⟩
theorem vsub (f : FV) : Statement (.vsub f) := fun _ => ⟨rfl, rfl⟩
theorem vmul (f : FV) : Statement (.vmul f) := fun _ => ⟨rfl, rfl⟩
theorem vfma (f : FV) : Statement (.vfma f) := fun _ => ⟨rfl, rfl⟩
theorem vfms (f : FV) : Statement (.vfms f) := fun _ => ⟨rfl, rfl⟩
theorem vmin (f : FV) : Statement (.vmin f) := fun _ => ⟨rfl, rfl⟩
theorem vmax (f : FV) : Statement (.vmax f) := fun _ => ⟨rfl, rfl⟩
theorem vabs (f : FV) : Statement (.vabs f) := fun _ => ⟨rfl, rfl⟩
theorem vneg (f : FV) : Statement (.vneg f) := fun _ => ⟨rfl, rfl⟩
theorem vrcp (f : FV) : Statement (.vrcp f) := fun _ => ⟨rfl, rfl⟩
theorem vrsq (f : FV) : Statement (.vrsq f) := fun _ => ⟨rfl, rfl⟩
theorem vsqrt (f : FV) : Statement (.vsqrt f) := fun _ => ⟨rfl, rfl⟩
theorem vexp2 (f : FV) : Statement (.vexp2 f) := fun _ => ⟨rfl, rfl⟩
theorem vlog2 (f : FV) : Statement (.vlog2 f) := fun _ => ⟨rfl, rfl⟩
theorem vand (f : FV) : Statement (.vand f) := fun _ => ⟨rfl, rfl⟩
theorem vor (f : FV) : Statement (.vor f) := fun _ => ⟨rfl, rfl⟩
theorem vxor (f : FV) : Statement (.vxor f) := fun _ => ⟨rfl, rfl⟩
theorem vshl (f : FV) : Statement (.vshl f) := fun _ => ⟨rfl, rfl⟩
theorem vshr (f : FV) : Statement (.vshr f) := fun _ => ⟨rfl, rfl⟩
theorem vsar (f : FV) : Statement (.vsar f) := fun _ => ⟨rfl, rfl⟩
theorem vcmp (f : FV) : Statement (.vcmp f) := fun _ => ⟨rfl, rfl⟩
theorem vsel (f : FV) : Statement (.vsel f) := fun _ => ⟨rfl, rfl⟩
theorem vcvt (f : FV) : Statement (.vcvt f) := fun _ => ⟨rfl, rfl⟩
theorem vperm (f : FV) : Statement (.vperm f) := fun _ => ⟨rfl, rfl⟩
theorem vbcast (f : FV) : Statement (.vbcast f) := fun _ => ⟨rfl, rfl⟩
theorem vreduce (f : FV) : Statement (.vreduce f) := fun _ => ⟨rfl, rfl⟩
theorem vscan (f : FV) : Statement (.vscan f) := fun _ => ⟨rfl, rfl⟩
theorem vclmul (f : FV) : Statement (.vclmul f) := fun _ => ⟨rfl, rfl⟩
theorem vpopc (f : FV) : Statement (.vpopc f) := fun _ => ⟨rfl, rfl⟩
theorem vmov (f : FV) : Statement (.vmov f) := fun _ => ⟨rfl, rfl⟩
theorem vextr (f : FV) : Statement (.vextr f) := fun _ => ⟨rfl, rfl⟩
theorem vinsr (f : FV) : Statement (.vinsr f) := fun _ => ⟨rfl, rfl⟩
theorem vld (f : FV) : Statement (.vld f) := fun _ => ⟨rfl, rfl⟩
theorem vst (f : FV) : Statement (.vst f) := fun _ => ⟨rfl, rfl⟩
theorem vldx (f : FV) : Statement (.vldx f) := fun _ => ⟨rfl, rfl⟩
theorem vstx (f : FV) : Statement (.vstx f) := fun _ => ⟨rfl, rfl⟩
theorem vldh (f : FV) : Statement (.vldh f) := fun _ => ⟨rfl, rfl⟩
theorem vsth (f : FV) : Statement (.vsth f) := fun _ => ⟨rfl, rfl⟩
theorem viota (f : FV) : Statement (.viota f) := fun _ => ⟨rfl, rfl⟩
theorem vdot (f : FV) : Statement (.vdot f) := fun _ => ⟨rfl, rfl⟩
theorem vmulh (f : FV) : Statement (.vmulh f) := fun _ => ⟨rfl, rfl⟩
theorem vround (f : FV) : Statement (.vround f) := fun _ => ⟨rfl, rfl⟩
theorem vclass (f : FV) : Statement (.vclass f) := fun _ => ⟨rfl, rfl⟩
theorem mma (f : FX) : Statement (.mma f) := fun _ => ⟨rfl, rfl⟩
theorem mmaz (f : FX) : Statement (.mmaz f) := fun _ => ⟨rfl, rfl⟩
theorem mzero (f : FX) : Statement (.mzero f) := fun _ => ⟨rfl, rfl⟩
theorem mhad (f : FX) : Statement (.mhad f) := fun _ => ⟨rfl, rfl⟩
theorem mdrain (f : FX) : Statement (.mdrain f) := fun _ => ⟨rfl, rfl⟩
theorem mdrainv (f : FX) : Statement (.mdrainv f) := fun _ => ⟨rfl, rfl⟩
theorem mldacc (f : FX) : Statement (.mldacc f) := fun _ => ⟨rfl, rfl⟩
theorem mstacc (f : FX) : Statement (.mstacc f) := fun _ => ⟨rfl, rfl⟩
theorem mtplLd (f : FX) : Statement (.mtplLd f) := fun _ => ⟨rfl, rfl⟩
theorem mtplDiff (f : FX) : Statement (.mtplDiff f) := fun _ => ⟨rfl, rfl⟩
theorem mtplSwap (f : FX) : Statement (.mtplSwap f) := fun _ => ⟨rfl, rfl⟩
theorem mtplRd (f : FX) : Statement (.mtplRd f) := fun _ => ⟨rfl, rfl⟩
theorem mscale (f : FX) : Statement (.mscale f) := fun h => ⟨rfl, by simp_all [splitOk, ofX]⟩
theorem mscaleRebase (f : FX) : Statement (.mscaleRebase f) := fun h => ⟨rfl, by simp_all [splitOk, ofX]⟩
theorem mstat (f : FX) : Statement (.mstat f) := fun _ => ⟨rfl, rfl⟩
theorem tquant (f : FX) : Statement (.tquant f) := fun _ => ⟨rfl, rfl⟩
theorem tdeq (f : FX) : Statement (.tdeq f) := fun _ => ⟨rfl, rfl⟩
theorem ttrn (f : FX) : Statement (.ttrn f) := fun _ => ⟨rfl, rfl⟩
theorem tcomp (f : FX) : Statement (.tcomp f) := fun _ => ⟨rfl, rfl⟩
theorem tchk (f : FX) : Statement (.tchk f) := fun _ => ⟨rfl, rfl⟩
theorem tpack (f : FX) : Statement (.tpack f) := fun _ => ⟨rfl, rfl⟩
theorem tunpk (f : FX) : Statement (.tunpk f) := fun _ => ⟨rfl, rfl⟩
theorem ld (f : FM) : Statement (.ld f) := fun _ => ⟨rfl, rfl⟩
theorem st (f : FM) : Statement (.st f) := fun _ => ⟨rfl, rfl⟩
theorem pref (f : FM) : Statement (.pref f) := fun _ => ⟨rfl, rfl⟩
theorem fence (f : FM) : Statement (.fence f) := fun _ => ⟨rfl, rfl⟩
theorem pub (f : FM) : Statement (.pub f) := fun _ => ⟨rfl, rfl⟩
theorem cpy (f : FC) : Statement (.cpy f) := fun _ => ⟨rfl, rfl⟩
theorem cpyG (f : FC) : Statement (.cpyG f) := fun _ => ⟨rfl, rfl⟩
theorem cpyS (f : FC) : Statement (.cpyS f) := fun _ => ⟨rfl, rfl⟩
theorem cpyR (f : FC) : Statement (.cpyR f) := fun _ => ⟨rfl, rfl⟩
theorem cpyM (f : FC) : Statement (.cpyM f) := fun _ => ⟨rfl, rfl⟩
theorem cpyW (f : FC) : Statement (.cpyW f) := fun _ => ⟨rfl, rfl⟩
theorem cpyT (f : FC) : Statement (.cpyT f) := fun _ => ⟨rfl, rfl⟩
theorem cpyTs (f : FC) : Statement (.cpyTs f) := fun _ => ⟨rfl, rfl⟩
theorem cpyF (f : FC) : Statement (.cpyF f) := fun _ => ⟨rfl, rfl⟩
theorem cpyX (f : FC) : Statement (.cpyX f) := fun _ => ⟨rfl, rfl⟩
theorem cpyQ (f : FC) : Statement (.cpyQ f) := fun _ => ⟨rfl, rfl⟩
theorem pegPost (f : FY) : Statement (.pegPost f) := fun _ => ⟨rfl, rfl⟩
theorem pegWait (f : FY) : Statement (.pegWait f) := fun _ => ⟨rfl, rfl⟩
theorem pegTake (f : FY) : Statement (.pegTake f) := fun _ => ⟨rfl, rfl⟩
theorem pegRd (f : FY) : Statement (.pegRd f) := fun _ => ⟨rfl, rfl⟩
theorem pegErr (f : FY) : Statement (.pegErr f) := fun _ => ⟨rfl, rfl⟩
theorem bbSet (f : FY) : Statement (.bbSet f) := fun _ => ⟨rfl, rfl⟩
theorem bbClaim (f : FY) : Statement (.bbClaim f) := fun _ => ⟨rfl, rfl⟩
theorem bbFill (f : FY) : Statement (.bbFill f) := fun _ => ⟨rfl, rfl⟩
theorem bbTake (f : FY) : Statement (.bbTake f) := fun h => ⟨rfl, by simp_all [splitOk, ofY]⟩
theorem bbTakeAt (f : FY) : Statement (.bbTakeAt f) := fun h => ⟨rfl, by simp_all [splitOk, ofY]⟩
theorem bbFree (f : FY) : Statement (.bbFree f) := fun _ => ⟨rfl, rfl⟩
theorem bbWaitf (f : FY) : Statement (.bbWaitf f) := fun _ => ⟨rfl, rfl⟩
theorem bbWaite (f : FY) : Statement (.bbWaite f) := fun _ => ⟨rfl, rfl⟩
theorem bbRd (f : FY) : Statement (.bbRd f) := fun _ => ⟨rfl, rfl⟩
theorem sadd (f : FY) : Statement (.sadd f) := fun _ => ⟨rfl, rfl⟩
theorem swait (f : FY) : Statement (.swait f) := fun _ => ⟨rfl, rfl⟩
theorem satom (f : FY) : Statement (.satom f) := fun _ => ⟨rfl, rfl⟩
theorem scas (f : FY) : Statement (.scas f) := fun _ => ⟨rfl, rfl⟩
theorem serr (f : FY) : Statement (.serr f) := fun _ => ⟨rfl, rfl⟩
theorem sget (f : FY) : Statement (.sget f) := fun _ => ⟨rfl, rfl⟩
theorem launch (f : FY) : Statement (.launch f) := fun _ => ⟨rfl, rfl⟩
theorem tspawn (f : FY) : Statement (.tspawn f) := fun _ => ⟨rfl, rfl⟩
theorem tend (f : FY) : Statement (.tend f) := fun _ => ⟨rfl, rfl⟩
theorem tabort (f : FY) : Statement (.tabort f) := fun _ => ⟨rfl, rfl⟩
theorem cfr (f : FY) : Statement (.cfr f) := fun _ => ⟨rfl, rfl⟩
theorem tid (f : FY) : Statement (.tid f) := fun _ => ⟨rfl, rfl⟩
theorem narg (f : FY) : Statement (.narg f) := fun _ => ⟨rfl, rfl⟩
theorem copyAccept (core : Nat) : Statement (.copyAccept core) := fun _ => trivial
theorem copyBoxStart (core : Nat) (seq : Nat) : Statement (.copyBoxStart core seq) := fun _ => trivial
theorem copyComplete (core : Nat) (seq : Nat) : Statement (.copyComplete core seq) := fun _ => trivial
theorem tableWalk (die : Nat) (walk : Nat) : Statement (.tableWalk die walk) := fun _ => trivial
theorem faultRecordWrite (die : Nat) (rec : Nat) : Statement (.faultRecordWrite die rec) := fun _ => trivial
theorem faultResponseRetry (fn : Nat) (host : Bool) : Statement (.faultResponseRetry fn host) := fun _ => trivial
theorem faultResponseFail (fn : Nat) (host : Bool) : Statement (.faultResponseFail fn host) := fun _ => trivial
theorem atsInvalidationCompletion (slot : Nat) : Statement (.atsInvalidationCompletion slot) := fun _ => trivial
theorem tlbiL2Drop (die : Nat) (k : Nat) : Statement (.tlbiL2Drop die k) := fun _ => trivial
theorem tlbiCoreAcknowledge (core : Nat) : Statement (.tlbiCoreAcknowledge core) := fun _ => trivial
theorem tlbiWatchdogExpiry (core : Nat) (k : Nat) : Statement (.tlbiWatchdogExpiry core k) := fun _ => trivial
theorem configChangeCut (unit : Nat) : Statement (.configChangeCut unit) := fun _ => trivial
theorem groundRemoteArrival (id : Nat) : Statement (.groundRemoteArrival id) := fun _ => trivial
theorem sliceScrubVisit (arr : Nat) (addr : Nat) (err : Nat) : Statement (.sliceScrubVisit arr addr err) := fun _ => trivial
theorem syncOperationArrival (id : Nat) : Statement (.syncOperationArrival id) := fun _ => trivial
theorem refreshWindowBoundary (stack : Nat) : Statement (.refreshWindowBoundary stack) := fun _ => trivial
theorem perBankRefresh (bank : Nat) : Statement (.perBankRefresh bank) := fun _ => trivial
theorem refreshEnd (bank : Nat) : Statement (.refreshEnd bank) := fun _ => trivial
theorem rowActivation (bank : Nat) (row : Nat) (slot : Nat) : Statement (.rowActivation bank row slot) := fun _ => trivial
theorem disturbIntervalReset (bank : Nat) : Statement (.disturbIntervalReset bank) := fun _ => trivial
theorem stripeRebuild (stack : Nat) : Statement (.stripeRebuild stack) := fun _ => trivial
theorem hbmScrubVisit (gran : Nat) (err : Nat) : Statement (.hbmScrubVisit gran err) := fun _ => trivial
theorem tagSweepVisit (e : Elem) : Statement (.tagSweepVisit e) := fun _ => trivial
theorem sweepPassEnd : Statement .sweepPassEnd := fun _ => trivial
theorem borrowerFlushDone (b : Nat) : Statement (.borrowerFlushDone b) := fun _ => trivial
theorem pieceCopyDone (l : Nat) : Statement (.pieceCopyDone l) := fun _ => trivial
theorem lenderReclaimTimeout (l : Nat) : Statement (.lenderReclaimTimeout l) := fun _ => trivial
theorem borrowerReclaimTimeout (b : Nat) : Statement (.borrowerReclaimTimeout b) := fun _ => trivial
theorem peerTimeout (id : Nat) : Statement (.peerTimeout id) := fun _ => trivial
theorem retrainComplete (st : Nat) : Statement (.retrainComplete st) := fun _ => trivial
theorem bucketLeak (st : Nat) : Statement (.bucketLeak st) := fun _ => trivial
theorem genAdvAccept : Statement .genAdvAccept := fun _ => trivial
theorem dieCut (die : Nat) : Statement (.dieCut die) := fun _ => trivial
theorem coreCut (core : Nat) : Statement (.coreCut core) := fun _ => trivial
theorem sequencerChangeDone : Statement .sequencerChangeDone := fun _ => trivial
theorem publishPrepare (slot : Nat) (h : Nat) (die : Nat) : Statement (.publishPrepare slot h die) := fun _ => trivial
theorem prepareAck (slot : Nat) (h : Nat) (die : Nat) : Statement (.prepareAck slot h die) := fun _ => trivial
theorem publishCommit (slot : Nat) (h : Nat) (die : Nat) : Statement (.publishCommit slot h die) := fun _ => trivial
theorem commitAck (slot : Nat) (h : Nat) (die : Nat) : Statement (.commitAck slot h die) := fun _ => trivial
theorem twinSwap (slot : Nat) (h : Nat) (die : Nat) : Statement (.twinSwap slot h die) := fun _ => trivial
theorem groupDispatch (level : Nat) (unit : Nat) : Statement (.groupDispatch level unit) := fun _ => trivial
theorem groupEnd (gid : Nat) : Statement (.groupEnd gid) := fun _ => trivial
theorem succDecrement (k : Nat) : Statement (.succDecrement k) := fun _ => trivial
theorem waitTimeout (strand : Nat) : Statement (.waitTimeout strand) := fun _ => trivial
theorem yieldExpiry (strand : Nat) : Statement (.yieldExpiry strand) := fun _ => trivial
theorem matrixEntryStart (core : Nat) : Statement (.matrixEntryStart core) := fun _ => trivial
theorem matrixEntryComplete (core : Nat) : Statement (.matrixEntryComplete core) := fun _ => trivial
theorem vectorEntryStart (core : Nat) : Statement (.vectorEntryStart core) := fun _ => trivial
theorem packetFetch (slot : Nat) (q : Nat) : Statement (.packetFetch slot q) := fun _ => trivial
theorem launchRetry (slot : Nat) (q : Nat) : Statement (.launchRetry slot q) := fun _ => trivial
theorem completionRecordWrite (slot : Nat) (q : Nat) : Statement (.completionRecordWrite slot q) := fun _ => trivial
theorem teardownWindowExpiry (slot : Nat) (q : Nat) : Statement (.teardownWindowExpiry slot q) := fun _ => trivial
theorem queueBlockMove (kind : Nat) (src : Nat) (dst : Nat) : Statement (.queueBlockMove kind src dst) := fun _ => trivial
theorem preemptRequest (gid : Nat) : Statement (.preemptRequest gid) := fun _ => trivial
theorem safePointArrival (strand : Nat) : Statement (.safePointArrival strand) := fun _ => trivial
theorem preemptDeadlineExpiry (gid : Nat) (core : Nat) : Statement (.preemptDeadlineExpiry gid core) := fun _ => trivial
theorem saveComplete (gid : Nat) : Statement (.saveComplete gid) := fun _ => trivial
theorem restore_ (gid : Nat) : Statement (.restore_ gid) := fun _ => trivial
theorem preemptWatchdog (gid : Nat) : Statement (.preemptWatchdog gid) := fun _ => trivial
theorem taskStart (die : Nat) (slot : Nat) : Statement (.taskStart die slot) := fun _ => trivial
theorem taskCommit (die : Nat) (slot : Nat) : Statement (.taskCommit die slot) := fun _ => trivial
theorem eventRecordWrite (fn : Nat) : Statement (.eventRecordWrite fn) := fun _ => trivial
theorem clockStep (up : Bool) : Statement (.clockStep up) := fun _ => trivial
theorem memoryAccessArrival (id : Nat) : Statement (.memoryAccessArrival id) := fun _ => trivial
theorem accessResponseReturn (id : Nat) : Statement (.accessResponseReturn id) := fun _ => trivial
theorem vectorEntryComplete (core : Nat) : Statement (.vectorEntryComplete core) := fun _ => trivial
theorem resetEnd (kind : Nat) (unit : Nat) : Statement (.resetEnd kind unit) := fun _ => trivial
theorem attestationReportDone : Statement .attestationReportDone := fun _ => trivial
theorem responseRingDoorbell (fn : Nat) (host : Bool) (pi : BitVec 32) : Statement (.responseRingDoorbell fn host pi) := fun _ => trivial
theorem atsTranslationCompletion (slot : Nat) (va : BitVec 64) (frame : BitVec 64) (szLog : Nat) (rd : Bool) (wr : Bool) : Statement (.atsTranslationCompletion slot va frame szLog rd wr) := fun _ => trivial
theorem priPageResponse (slot : Nat) (va : BitVec 64) (success : Bool) : Statement (.priPageResponse slot va success) := fun _ => trivial
theorem atsInvalidationRequest (slot : Nat) (va : BitVec 64) (szLog : Nat) : Statement (.atsInvalidationRequest slot va szLog) := fun _ => trivial
theorem heapWindowWrite (which : Nat) (slot : Nat) (v : BitVec 64) : Statement (.heapWindowWrite which slot v) := fun _ => trivial
theorem syncWindowWrite (which : Nat) (slot : Nat) (v : BitVec 64) : Statement (.syncWindowWrite which slot v) := fun _ => trivial
theorem dirtySelWrite (v : BitVec 64) : Statement (.dirtySelWrite v) := fun _ => trivial
theorem timeScaleWrite (slot : Nat) (v : BitVec 64) : Statement (.timeScaleWrite slot v) := fun _ => trivial
theorem timeOffWrite (slot : Nat) (v : BitVec 64) : Statement (.timeOffWrite slot v) := fun _ => trivial
theorem errModeWrite (v : BitVec 64) : Statement (.errModeWrite v) := fun _ => trivial
theorem perfSelWrite (slot : Nat) (k : Nat) (v : BitVec 64) : Statement (.perfSelWrite slot k v) := fun _ => trivial
theorem bankStarvation (core : Nat) (bank : Nat) (who : Nat) : Statement (.bankStarvation core bank who) := fun _ => trivial
theorem chanRetireWrite (v : BitVec 64) : Statement (.chanRetireWrite v) := fun _ => trivial
theorem channelTrainingFail (stack : Nat) (ch : Nat) : Statement (.channelTrainingFail stack ch) := fun _ => trivial
theorem chanSecondFail (stack : Nat) (ch : Nat) : Statement (.chanSecondFail stack ch) := fun _ => trivial
theorem ownerTableWrite (block : Nat) (v : BitVec 64) : Statement (.ownerTableWrite block v) := fun _ => trivial
theorem peerWindowWrite (w : Nat) (v : BitVec 128) : Statement (.peerWindowWrite w v) := fun _ => trivial
theorem multicastGroupWrite (entry : Nat) (v : BitVec 256) : Statement (.multicastGroupWrite entry v) := fun _ => trivial
theorem peerRequestArrival (src : Nat) (slot : Nat) (what : PeerWhat) (data : BitVec 512) (ttag : Nat) (age : Nat) : Statement (.peerRequestArrival src slot what data ttag age) := fun _ => trivial
theorem leaseEntrySet (i : Nat) (v : BitVec 64) : Statement (.leaseEntrySet i v) := fun _ => trivial
theorem leaseOffer (i : Nat) (v : BitVec 64) : Statement (.leaseOffer i v) := fun _ => trivial
theorem leaseReclaimStart (i : Nat) : Statement (.leaseReclaimStart i) := fun _ => trivial
theorem borrowEntrySet (i : Nat) (v : BitVec 256) : Statement (.borrowEntrySet i v) := fun _ => trivial
theorem borrowWait (i : Nat) (v : BitVec 256) : Statement (.borrowWait i v) := fun _ => trivial
theorem borrowWithdraw (i : Nat) : Statement (.borrowWithdraw i) := fun _ => trivial
theorem borrowRelease (i : Nat) : Statement (.borrowRelease i) := fun _ => trivial
theorem grant (src : Nat) (msg : BitVec 128) : Statement (.grant src msg) := fun _ => trivial
theorem accept (src : Nat) (msg : BitVec 128) : Statement (.accept src msg) := fun _ => trivial
theorem refuse (src : Nat) (msg : BitVec 128) : Statement (.refuse src msg) := fun _ => trivial
theorem reclaim (src : Nat) (msg : BitVec 128) : Statement (.reclaim src msg) := fun _ => trivial
theorem flushed (src : Nat) (msg : BitVec 128) : Statement (.flushed src msg) := fun _ => trivial
theorem pieceMoved (src : Nat) (msg : BitVec 128) : Statement (.pieceMoved src msg) := fun _ => trivial
theorem pieceAck (src : Nat) (msg : BitVec 128) : Statement (.pieceAck src msg) := fun _ => trivial
theorem done_ (src : Nat) (msg : BitVec 128) : Statement (.done_ src msg) := fun _ => trivial
theorem release_ (src : Nat) (msg : BitVec 128) : Statement (.release_ src msg) := fun _ => trivial
theorem flitCheckFail (st : Nat) : Statement (.flitCheckFail st) := fun _ => trivial
theorem packetUndeliverable (st : Nat) (dev : Nat) : Statement (.packetUndeliverable st dev) := fun _ => trivial
theorem launchQueueDoorbell (slot : Nat) (q : Nat) (pi : BitVec 32) : Statement (.launchQueueDoorbell slot q pi) := fun _ => trivial
theorem launchQueueEnable (slot : Nat) (q : Nat) (v : BitVec 64) : Statement (.launchQueueEnable slot q v) := fun _ => trivial
theorem teardownStart (slot : Nat) (q : Nat) : Statement (.teardownStart slot q) := fun _ => trivial
theorem debugAttach (fn : Nat) (core : Nat) : Statement (.debugAttach fn core) := fun _ => trivial
theorem debugHalt (core : Nat) (mask : BitVec 4) : Statement (.debugHalt core mask) := fun _ => trivial
theorem debugResume (core : Nat) (mask : BitVec 4) : Statement (.debugResume core mask) := fun _ => trivial
theorem debugStep (core : Nat) (mask : BitVec 4) : Statement (.debugStep core mask) := fun _ => trivial
theorem debugDataWrite (fn : Nat) (v : BitVec 64) : Statement (.debugDataWrite fn v) := fun _ => trivial
theorem hostRegisterWrite (fn : Nat) (bar : Nat) (off : Nat) (size : Nat) (v : BitVec 64) : Statement (.hostRegisterWrite fn bar off size v) := fun _ => trivial
theorem bar2WinWrite (fn : Nat) (v : BitVec 64) : Statement (.bar2WinWrite fn v) := fun _ => trivial
theorem hostHeapWrite (fn : Nat) (off : Nat) (n : Nat) (data : BitVec 512) : Statement (.hostHeapWrite fn off n data) := fun _ => trivial
theorem hostMemoryRead (fn : Nat) (off : Nat) (n : Nat) : Statement (.hostMemoryRead fn off n) := fun _ => trivial
theorem msixUnmask (fn : Nat) (vec : Nat) : Statement (.msixUnmask fn vec) := fun _ => trivial
theorem mailboxSend (fn : Nat) (dirIn : Bool) (v : BitVec 64) : Statement (.mailboxSend fn dirIn v) := fun _ => trivial
theorem mailboxBusyClear (fn : Nat) (dirIn : Bool) : Statement (.mailboxBusyClear fn dirIn) := fun _ => trivial
theorem vfFunctionLevelReset (fn : Nat) : Statement (.vfFunctionLevelReset fn) := fun _ => trivial
theorem dieReset (mask : BitVec 4) : Statement (.dieReset mask) := fun _ => trivial
theorem devReset : Statement .devReset := fun _ => trivial
theorem coldReset : Statement .coldReset := fun _ => trivial
theorem fwCmd (v : BitVec 64) : Statement (.fwCmd v) := fun _ => trivial
theorem attCmd (v : BitVec 64) : Statement (.attCmd v) := fun _ => trivial
theorem thermalTrip : Statement .thermalTrip := fun _ => trivial
theorem peerResponseArrival (id : Nat) (kind : Nat) (data : BitVec 512) : Statement (.peerResponseArrival id kind data) := fun _ => trivial
theorem powerLoss : Statement .powerLoss := fun _ => trivial
theorem stationUp (st : Nat) (dev : Nat) : Statement (.stationUp st dev) := fun _ => trivial

end Sys2Proof.Laws.Table
end

