-- ==== Sys2Proof/Tests/Slice0.lean ====
section
/-! SUPPORT. Tests: instructions that the well-formedness checks refuse; words that decode to each instruction; and for each statement
of the certificate states and operands that meet its hypotheses, clause by clause, with a field or two of what the step then gives. -/
namespace Sys2Proof.Tests
set_option Elab.async false
open Sys2Proof Sys2Proof.Machine

/-! ### Ill-formed terms, one for each check (R278 to R290, R315) -/

def p0 : Pred := ⟨0, false⟩
def fa : FA := ⟨p0, 0, .reg 3, .reg 1, .reg 2, .imm 0⟩
def fb : FB := ⟨p0, 1, .reg 1, .reg 2, 16⟩
def fx : FX := ⟨p0, 0, 3, 0, 1, 2, 0xFF, 0xFF, 0, none⟩
def fm : FM := ⟨p0, 1, .reg 3, .reg 1, .imm 0, 6, 0, 0⟩
def fv : FV := ⟨p0, 4, 9, 4, 5, 0, .imm 0⟩
def fc : FC := ⟨p0, 2, 8, 0, 0, 0xFF, 0xFF, 0, 0⟩
def fy : FY := ⟨p0, 0, .reg 3, .reg 1, .imm 0, 2⟩

theorem test_well_formed : [Instr.add fa, .br fb, .mma fx, .ld fm, .vadd fv, .cpy fc, .pegTake fy, .sysrd ⟨p0, .reg 3, .imm 0, 0x2010⟩,
    .sweepPassEnd].all WellFormed = true := by decide
/-- A constant as D; a register number as A; a reserved modifier; an unused field in use; two literals. -/
theorem test_ill_formed_a : [Instr.add { fa with d := .imm 3 }, .add { fa with a := .num 3 }, .add { fa with m := 3 },
    .add { fa with c := .reg 1 }, .add { fa with a := .lit32 1, b := .lit32 2 }].any WellFormed = false := by decide
/-- A reserved condition; an offset that is no multiple of 4; the record form of LEND with an offset; the modifier of the other row. -/
theorem test_ill_formed_b : [Instr.br { fb with cond := 11 }, .br { fb with off := 2 }, .lend ⟨p0, 0, .imm 0, .imm 0, 4⟩,
    .lend ⟨p0, 1, .imm 0, .imm 0, 4⟩, .lendCnt ⟨p0, 0, .imm 0, .imm 0, 0⟩, .tlbi { fa with m := 1 }, .tlbiAll fa,
    .mscale { fx with m := 1 }, .bbTake { fy with m := 1 }, .bbTakeAt fy].any WellFormed = false := by decide
/-- RZ bits of a register identifier; a reserved type; an unused register; a reserved rounding mode; an OPX that is not listed; VA beside a
broadcast of it. -/
theorem test_ill_formed_sv : [Instr.sysrd ⟨p0, .reg 3, .imm 0, 0x1000⟩, .vadd { fv with ty := 14 }, .vabs fv, .vadd { fv with vc := 0x0D },
    .vadd { fv with vc := 0x20 }, .vabs ⟨p0, 4, 9, 4, 0, 0, .reg 1⟩].any WellFormed = false := by decide
/-- A modifier; a template, a bank or a descriptor that the instruction has not; an increment without a peg and a peg without one; a bad patch. -/
theorem test_ill_formed_x : [Instr.mma { fx with m := 1 }, .mzero fx, .mtplSwap { fx with sa := 0, sb := 0, bank := 1 },
    .mtplLd fx, .mma { fx with inc := 1 }, .mma { fx with post := 3 }, .mma { fx with patch := some 0x00100000 },
    .mma { fx with patch := some 0x00090000 }].any WellFormed = false := by decide
/-- A type of LD, of PREF and of FENCE; FENCE outside class 15; SPEC 0 and 57; RAW 3; a KMOD; a counter target; a bobbin beyond bb31; IDX in use. -/
theorem test_ill_formed_mcy : [Instr.ld { fm with ty := 14 }, .pref ⟨p0, 1, .imm 0, .reg 1, .imm 0, 7, 2, 0⟩,
    .fence ⟨p0, 15, .reg 3, .imm 0, .imm 0, 8, 0, 0⟩, .fence ⟨p0, 1, .reg 3, .imm 0, .imm 0, 2, 0, 0⟩, .cpy { fc with spec := 0 },
    .cpy { fc with spec := 57 }, .cpy { fc with raw := 3 }, .cpy { fc with km := 1 }, .cpy { fc with ct := 2 },
    .cpy { fc with post := 32, inc := 1, ct := 1 }, .sadd { fy with ix := 2 }].any WellFormed = false := by decide
/-- R276 to R296: words that the spec says are refused: opcode 0, a nonzero zero field, two literals, a reserved register code, a reserved
modifier, a bad unused field. -/
theorem test_words_refused : [0x0, 0x0200030440400001, 0x020003FEFE400000, 0x0240430405400000, 0x4004040506114000, 0x430A030106020500,
    0x810008A8A8FF0600, 0x83000880 * 2 ^ 32 + 0x00FFFF00, 0xA30F015848200000].all (fun w => decodeTableWord 64 w == none) = true := by decide

/-! ### Words of every instruction, written out from the field tables of R277 to R288, with predicate !p2 -/

def p : Pred := ⟨2, true⟩

/-- Form A (scalar and control). -/
theorem test_decode_a0 :
    [0x0150404040400000, 0x0250030145400000, 0x0350030145400000, 0x0450030145400000, 0x0550030145400000, 0x0650030145400000, 0x0750030145400000, 0x0850030145400000, 0x0950030145400000, 0x0A50030145400000, 0x0B50030145400000, 0x0C50030145400000, 0x0D50030145400000, 0x0E50030145400000, 0x0F50030145400000, 0x1050030145400000].map (decodeTableWord 64) =
    [some (.nop ⟨p, 0, .imm 0, .imm 0, .imm 0, .imm 0⟩),
      some (.add ⟨p, 0, .reg 3, .reg 1, .imm 5, .imm 0⟩),
      some (.sub ⟨p, 0, .reg 3, .reg 1, .imm 5, .imm 0⟩),
      some (.mul ⟨p, 0, .reg 3, .reg 1, .imm 5, .imm 0⟩),
      some (.mulh ⟨p, 0, .reg 3, .reg 1, .imm 5, .imm 0⟩),
      some (.div ⟨p, 0, .reg 3, .reg 1, .imm 5, .imm 0⟩),
      some (.rem ⟨p, 0, .reg 3, .reg 1, .imm 5, .imm 0⟩),
      some (.and_ ⟨p, 0, .reg 3, .reg 1, .imm 5, .imm 0⟩),
      some (.or_ ⟨p, 0, .reg 3, .reg 1, .imm 5, .imm 0⟩),
      some (.xor ⟨p, 0, .reg 3, .reg 1, .imm 5, .imm 0⟩),
      some (.andn ⟨p, 0, .reg 3, .reg 1, .imm 5, .imm 0⟩),
      some (.shl ⟨p, 0, .reg 3, .reg 1, .imm 5, .imm 0⟩),
      some (.shr ⟨p, 0, .reg 3, .reg 1, .imm 5, .imm 0⟩),
      some (.sar ⟨p, 0, .reg 3, .reg 1, .imm 5, .imm 0⟩),
      some (.rot ⟨p, 0, .reg 3, .reg 1, .imm 5, .imm 0⟩),
      some (.min ⟨p, 0, .reg 3, .reg 1, .imm 5, .imm 0⟩)] := by decide

/-- Form A (scalar and control). -/
theorem test_decode_a1 :
    [0x1150030145400000, 0x1250030140400000, 0x1350030140400000, 0x1450030140400000, 0x1550030145820000, 0x1650030145820000, 0x1750030145400000, 0x1851030145400000, 0x1952030145400000, 0x1A50030145820000, 0x1B50030145820000, 0x1C50030140400000, 0x1D50030102400000, 0x1E50030140400000, 0x1F50030145400000, 0x2350400140400000].map (decodeTableWord 64) =
    [some (.max ⟨p, 0, .reg 3, .reg 1, .imm 5, .imm 0⟩),
      some (.clz ⟨p, 0, .reg 3, .reg 1, .imm 0, .imm 0⟩),
      some (.ctz ⟨p, 0, .reg 3, .reg 1, .imm 0, .imm 0⟩),
      some (.popc ⟨p, 0, .reg 3, .reg 1, .imm 0, .imm 0⟩),
      some (.ext ⟨p, 0, .reg 3, .reg 1, .imm 5, .neg 2⟩),
      some (.ins ⟨p, 0, .reg 3, .reg 1, .imm 5, .neg 2⟩),
      some (.sel ⟨p, 0, .reg 3, .reg 1, .imm 5, .imm 0⟩),
      some (.cmp ⟨p, 1, .num 3, .reg 1, .imm 5, .imm 0⟩),
      some (.cmps ⟨p, 2, .reg 3, .reg 1, .imm 5, .imm 0⟩),
      some (.mad ⟨p, 0, .reg 3, .reg 1, .imm 5, .neg 2⟩),
      some (.lea ⟨p, 0, .reg 3, .reg 1, .imm 5, .neg 2⟩),
      some (.mov ⟨p, 0, .reg 3, .reg 1, .imm 0, .imm 0⟩),
      some (.plog ⟨p, 0, .num 3, .num 1, .num 2, .imm 0⟩),
      some (.movp ⟨p, 0, .reg 3, .num 1, .imm 0, .imm 0⟩),
      some (.clmul ⟨p, 0, .reg 3, .reg 1, .imm 5, .imm 0⟩),
      some (.jmp ⟨p, 0, .imm 0, .reg 1, .imm 0, .imm 0⟩)] := by decide

/-- Form A (scalar and control). -/
theorem test_decode_a2 :
    [0x2550400140400000, 0x2650404040400000, 0x2950404040400000, 0x2A50404040400000, 0x2B50400140400000, 0x2C50400145400000, 0x2D50400140400000, 0x2E50400140400000, 0x3250034040400000, 0x3350030140400000, 0x3450030140400000, 0x3550030140400000, 0x3650030145820000, 0x3651030140400000, 0x3750030145400000, 0x3850030140400000].map (decodeTableWord 64) =
    [some (.callr ⟨p, 0, .imm 0, .reg 1, .imm 0, .imm 0⟩),
      some (.ret ⟨p, 0, .imm 0, .imm 0, .imm 0, .imm 0⟩),
      some (.qpt ⟨p, 0, .imm 0, .imm 0, .imm 0, .imm 0⟩),
      some (.halt ⟨p, 0, .imm 0, .imm 0, .imm 0, .imm 0⟩),
      some (.yield ⟨p, 0, .imm 0, .reg 1, .imm 0, .imm 0⟩),
      some (.rlabel ⟨p, 0, .imm 0, .reg 1, .imm 5, .imm 0⟩),
      some (.trap ⟨p, 0, .imm 0, .reg 1, .imm 0, .imm 0⟩),
      some (.brk ⟨p, 0, .imm 0, .reg 1, .imm 0, .imm 0⟩),
      some (.time ⟨p, 0, .reg 3, .imm 0, .imm 0, .imm 0⟩),
      some (.perf ⟨p, 0, .reg 3, .reg 1, .imm 0, .imm 0⟩),
      some (.genRd ⟨p, 0, .reg 3, .reg 1, .imm 0, .imm 0⟩),
      some (.genAdv ⟨p, 0, .reg 3, .reg 1, .imm 0, .imm 0⟩),
      some (.tlbi ⟨p, 0, .reg 3, .reg 1, .imm 5, .neg 2⟩),
      some (.tlbiAll ⟨p, 1, .reg 3, .reg 1, .imm 0, .imm 0⟩),
      some (.evpost ⟨p, 0, .reg 3, .reg 1, .imm 5, .imm 0⟩),
      some (.id ⟨p, 0, .reg 3, .reg 1, .imm 0, .imm 0⟩)] := by decide

/-- Form B (branch). -/
theorem test_decode_b0 :
    [0x20500145FFFFFFC0, 0x21500345FFFFFFC0, 0x22500140FFFFFFC0, 0x24504040FFFFFFC0, 0x27500140FFFFFFC0, 0x2850404000000000, 0x28514040FFFFFFC0, 0x2F500103FFFFFFC0].map (decodeTableWord 64) =
    [some (.br ⟨p, 0, .reg 1, .imm 5, 0xFFFFFFC0⟩),
      some (.brc ⟨p, 0, .reg 3, .imm 5, 0xFFFFFFC0⟩),
      some (.brp ⟨p, 0, .num 1, .imm 0, 0xFFFFFFC0⟩),
      some (.call ⟨p, 0, .imm 0, .imm 0, 0xFFFFFFC0⟩),
      some (.loop ⟨p, 0, .reg 1, .imm 0, 0xFFFFFFC0⟩),
      some (.lend ⟨p, 0, .imm 0, .imm 0, 0x0⟩),
      some (.lendCnt ⟨p, 1, .imm 0, .imm 0, 0xFFFFFFC0⟩),
      some (.fork ⟨p, 0, .reg 1, .reg 3, 0xFFFFFFC0⟩)] := by decide

/-- Form S (system register). -/
theorem test_decode_s0 :
    [0x3050030120100000, 0x3150030120100000].map (decodeTableWord 64) =
    [some (.sysrd ⟨p, .reg 3, .reg 1, 0x2010⟩),
      some (.syswr ⟨p, .reg 3, .reg 1, 0x2010⟩)] := by decide

/-- Form V (vector). -/
theorem test_decode_v0 :
    [0x405A090405004000, 0x415A090405004000, 0x425A090405004000, 0x435A090405124000, 0x445A090405124000, 0x455A090405004000, 0x465A090405004000, 0x475A090400004000, 0x485A090400004000, 0x495A090400004000, 0x4A5A090400004000, 0x4B5A090400004000, 0x4C5A090400004000, 0x4D5A090400004000, 0x4E5A090405004000, 0x4F5A090405004000].map (decodeTableWord 64) =
    [some (.vadd ⟨p, 10, 9, 4, 5, 0, .imm 0⟩),
      some (.vsub ⟨p, 10, 9, 4, 5, 0, .imm 0⟩),
      some (.vmul ⟨p, 10, 9, 4, 5, 0, .imm 0⟩),
      some (.vfma ⟨p, 10, 9, 4, 5, 18, .imm 0⟩),
      some (.vfms ⟨p, 10, 9, 4, 5, 18, .imm 0⟩),
      some (.vmin ⟨p, 10, 9, 4, 5, 0, .imm 0⟩),
      some (.vmax ⟨p, 10, 9, 4, 5, 0, .imm 0⟩),
      some (.vabs ⟨p, 10, 9, 4, 0, 0, .imm 0⟩),
      some (.vneg ⟨p, 10, 9, 4, 0, 0, .imm 0⟩),
      some (.vrcp ⟨p, 10, 9, 4, 0, 0, .imm 0⟩),
      some (.vrsq ⟨p, 10, 9, 4, 0, 0, .imm 0⟩),
      some (.vsqrt ⟨p, 10, 9, 4, 0, 0, .imm 0⟩),
      some (.vexp2 ⟨p, 10, 9, 4, 0, 0, .imm 0⟩),
      some (.vlog2 ⟨p, 10, 9, 4, 0, 0, .imm 0⟩),
      some (.vand ⟨p, 10, 9, 4, 5, 0, .imm 0⟩),
      some (.vor ⟨p, 10, 9, 4, 5, 0, .imm 0⟩)] := by decide

/-- Form V (vector). -/
theorem test_decode_v1 :
    [0x505A090405004000, 0x515A090405004000, 0x525A090405004000, 0x535A090405004000, 0x545A090405004000, 0x555A090405004000, 0x565A090425004000, 0x575A090405004000, 0x585A090000000100, 0x595A090400004000, 0x5A5A090400004000, 0x5B5A090405004000, 0x5C5A090400004000, 0x5D5A090400004000, 0x5E5A000405000300, 0x5F5A090005000100].map (decodeTableWord 64) =
    [some (.vxor ⟨p, 10, 9, 4, 5, 0, .imm 0⟩),
      some (.vshl ⟨p, 10, 9, 4, 5, 0, .imm 0⟩),
      some (.vshr ⟨p, 10, 9, 4, 5, 0, .imm 0⟩),
      some (.vsar ⟨p, 10, 9, 4, 5, 0, .imm 0⟩),
      some (.vcmp ⟨p, 10, 9, 4, 5, 0, .imm 0⟩),
      some (.vsel ⟨p, 10, 9, 4, 5, 0, .imm 0⟩),
      some (.vcvt ⟨p, 10, 9, 4, 37, 0, .imm 0⟩),
      some (.vperm ⟨p, 10, 9, 4, 5, 0, .imm 0⟩),
      some (.vbcast ⟨p, 10, 9, 0, 0, 0, .reg 1⟩),
      some (.vreduce ⟨p, 10, 9, 4, 0, 0, .imm 0⟩),
      some (.vscan ⟨p, 10, 9, 4, 0, 0, .imm 0⟩),
      some (.vclmul ⟨p, 10, 9, 4, 5, 0, .imm 0⟩),
      some (.vpopc ⟨p, 10, 9, 4, 0, 0, .imm 0⟩),
      some (.vmov ⟨p, 10, 9, 4, 0, 0, .imm 0⟩),
      some (.vextr ⟨p, 10, 0, 4, 5, 0, .reg 3⟩),
      some (.vinsr ⟨p, 10, 9, 0, 5, 0, .reg 1⟩)] := by decide

/-- Form V (vector). -/
theorem test_decode_v2 :
    [0x6054090000120100, 0x6154090000120100, 0x6254090005120100, 0x6354090005120100, 0x6454090400120100, 0x6554090400120100, 0x665A090000000100, 0x675A090405004000, 0x685A090405004000, 0x695A090400004000, 0x6A5A090400004000].map (decodeTableWord 64) =
    [some (.vld ⟨p, 4, 9, 0, 0, 18, .reg 1⟩),
      some (.vst ⟨p, 4, 9, 0, 0, 18, .reg 1⟩),
      some (.vldx ⟨p, 4, 9, 0, 5, 18, .reg 1⟩),
      some (.vstx ⟨p, 4, 9, 0, 5, 18, .reg 1⟩),
      some (.vldh ⟨p, 4, 9, 4, 0, 18, .reg 1⟩),
      some (.vsth ⟨p, 4, 9, 4, 0, 18, .reg 1⟩),
      some (.viota ⟨p, 10, 9, 0, 0, 0, .reg 1⟩),
      some (.vdot ⟨p, 10, 9, 4, 5, 0, .imm 0⟩),
      some (.vmulh ⟨p, 10, 9, 4, 5, 0, .imm 0⟩),
      some (.vround ⟨p, 10, 9, 4, 0, 0, .imm 0⟩),
      some (.vclass ⟨p, 10, 9, 4, 0, 0, .imm 0⟩)] := by decide

/-- Form X (matrix and tile). -/
theorem test_decode_x0 :
    [0x80501EC290FF0610, 0x81501EC290FF0610, 0x8250028000FF0610, 0x8350028000FF0610, 0x84501EC200FF0610, 0x85501EC200FF0610, 0x865002C290FF0610, 0x875002C290FF0610, 0x88501C4200FF0610, 0x89501C4290FF0610, 0x8A501C0000FF0610, 0x8B501C4290FF0610, 0x8C50028090FF0610, 0x8C51028090FF0610, 0x8D50028090FF0610, 0x9050004290FF0610].map (decodeTableWord 64) =
    [some (.mma ⟨p, 0, 7, 5, 33, 18, 255, 6, 1, none⟩),
      some (.mmaz ⟨p, 0, 7, 5, 33, 18, 255, 6, 1, none⟩),
      some (.mzero ⟨p, 0, 0, 5, 0, 0, 255, 6, 1, none⟩),
      some (.mhad ⟨p, 0, 0, 5, 0, 0, 255, 6, 1, none⟩),
      some (.mdrain ⟨p, 0, 7, 5, 33, 0, 255, 6, 1, none⟩),
      some (.mdrainv ⟨p, 0, 7, 5, 33, 0, 255, 6, 1, none⟩),
      some (.mldacc ⟨p, 0, 0, 5, 33, 18, 255, 6, 1, none⟩),
      some (.mstacc ⟨p, 0, 0, 5, 33, 18, 255, 6, 1, none⟩),
      some (.mtplLd ⟨p, 0, 7, 0, 33, 0, 255, 6, 1, none⟩),
      some (.mtplDiff ⟨p, 0, 7, 0, 33, 18, 255, 6, 1, none⟩),
      some (.mtplSwap ⟨p, 0, 7, 0, 0, 0, 255, 6, 1, none⟩),
      some (.mtplRd ⟨p, 0, 7, 0, 33, 18, 255, 6, 1, none⟩),
      some (.mscale ⟨p, 0, 0, 5, 0, 18, 255, 6, 1, none⟩),
      some (.mscaleRebase ⟨p, 1, 0, 5, 0, 18, 255, 6, 1, none⟩),
      some (.mstat ⟨p, 0, 0, 5, 0, 18, 255, 6, 1, none⟩),
      some (.tquant ⟨p, 0, 0, 0, 33, 18, 255, 6, 1, none⟩)] := by decide

/-- Form X (matrix and tile). -/
theorem test_decode_x1 :
    [0x9150004290FF0610, 0x9250004290FF0610, 0x9350004290FF0610, 0x9450004290FF0610, 0x9550004290FF0610, 0x9650004290FF0610].map (decodeTableWord 64) =
    [some (.tdeq ⟨p, 0, 0, 0, 33, 18, 255, 6, 1, none⟩),
      some (.ttrn ⟨p, 0, 0, 0, 33, 18, 255, 6, 1, none⟩),
      some (.tcomp ⟨p, 0, 0, 0, 33, 18, 255, 6, 1, none⟩),
      some (.tchk ⟨p, 0, 0, 0, 33, 18, 255, 6, 1, none⟩),
      some (.tpack ⟨p, 0, 0, 0, 33, 18, 255, 6, 1, none⟩),
      some (.tunpk ⟨p, 0, 0, 0, 33, 18, 255, 6, 1, none⟩)] := by decide

/-- Form M (memory). -/
theorem test_decode_m0 :
    [0xA051030145520040, 0xA151030145520040, 0xA251400145520040, 0xA35F030140200000, 0xB15F030140200000].map (decodeTableWord 64) =
    [some (.ld ⟨p, 1, .reg 3, .reg 1, .imm 5, 5, 2, 64⟩),
      some (.st ⟨p, 1, .reg 3, .reg 1, .imm 5, 5, 2, 64⟩),
      some (.pref ⟨p, 1, .imm 0, .reg 1, .imm 5, 5, 2, 64⟩),
      some (.fence ⟨p, 15, .reg 3, .reg 1, .imm 0, 2, 0, 0⟩),
      some (.pub ⟨p, 15, .reg 3, .reg 1, .imm 0, 2, 0, 0⟩)] := by decide

/-- Form C (copy). -/
theorem test_decode_c0 :
    [0xA851210000FF0411, 0xA951210000FF0411, 0xAA51210000FF0411, 0xAB51212000FF0411, 0xAC51210000FF0411, 0xAD51210000FF0411, 0xAE51212000FF0411, 0xAF51210000FF0411, 0xB051210000FF0411, 0xB251212000FF0411, 0xB351210000FF0411].map (decodeTableWord 64) =
    [some (.cpy ⟨p, 1, 8, 1, 0, 255, 4, 1, 1⟩),
      some (.cpyG ⟨p, 1, 8, 1, 0, 255, 4, 1, 1⟩),
      some (.cpyS ⟨p, 1, 8, 1, 0, 255, 4, 1, 1⟩),
      some (.cpyR ⟨p, 1, 8, 1, 2, 255, 4, 1, 1⟩),
      some (.cpyM ⟨p, 1, 8, 1, 0, 255, 4, 1, 1⟩),
      some (.cpyW ⟨p, 1, 8, 1, 0, 255, 4, 1, 1⟩),
      some (.cpyT ⟨p, 1, 8, 1, 2, 255, 4, 1, 1⟩),
      some (.cpyTs ⟨p, 1, 8, 1, 0, 255, 4, 1, 1⟩),
      some (.cpyF ⟨p, 1, 8, 1, 0, 255, 4, 1, 1⟩),
      some (.cpyX ⟨p, 1, 8, 1, 2, 255, 4, 1, 1⟩),
      some (.cpyQ ⟨p, 1, 8, 1, 0, 255, 4, 1, 1⟩)] := by decide

/-- Form Y (waits, objects, sync and tasks). -/
theorem test_decode_y0 :
    [0xC050400140090000, 0xC150030145090000, 0xC250030145090000, 0xC350034040090000, 0xC450400140090000, 0xC850400140090000, 0xC950030145090000, 0xCA50400140090000, 0xCB50030145090000, 0xCB51030145090000, 0xCC50400140090000, 0xCD50030145090000, 0xCE50030145090000, 0xCF50034040090000, 0xD050030145000000, 0xD150030145090000].map (decodeTableWord 64) =
    [some (.pegPost ⟨p, 0, .imm 0, .reg 1, .imm 0, 9⟩),
      some (.pegWait ⟨p, 0, .reg 3, .reg 1, .imm 5, 9⟩),
      some (.pegTake ⟨p, 0, .reg 3, .reg 1, .imm 5, 9⟩),
      some (.pegRd ⟨p, 0, .reg 3, .imm 0, .imm 0, 9⟩),
      some (.pegErr ⟨p, 0, .imm 0, .reg 1, .imm 0, 9⟩),
      some (.bbSet ⟨p, 0, .imm 0, .reg 1, .imm 0, 9⟩),
      some (.bbClaim ⟨p, 0, .reg 3, .reg 1, .imm 5, 9⟩),
      some (.bbFill ⟨p, 0, .imm 0, .reg 1, .imm 0, 9⟩),
      some (.bbTake ⟨p, 0, .reg 3, .reg 1, .imm 5, 9⟩),
      some (.bbTakeAt ⟨p, 1, .reg 3, .reg 1, .imm 5, 9⟩),
      some (.bbFree ⟨p, 0, .imm 0, .reg 1, .imm 0, 9⟩),
      some (.bbWaitf ⟨p, 0, .reg 3, .reg 1, .imm 5, 9⟩),
      some (.bbWaite ⟨p, 0, .reg 3, .reg 1, .imm 5, 9⟩),
      some (.bbRd ⟨p, 0, .reg 3, .imm 0, .imm 0, 9⟩),
      some (.sadd ⟨p, 0, .reg 3, .reg 1, .imm 5, 0⟩),
      some (.swait ⟨p, 0, .reg 3, .reg 1, .imm 5, 9⟩)] := by decide

/-- Form Y (waits, objects, sync and tasks). -/
theorem test_decode_y1 :
    [0xD250030145000000, 0xD350030145090000, 0xD450030145000000, 0xD550030140000000, 0xD850030140000000, 0xD950030145090000, 0xDA50404040000000, 0xDB50404040000000, 0xDC50030340000000, 0xDD50034040000000, 0xDE50030140000000].map (decodeTableWord 64) =
    [some (.satom ⟨p, 0, .reg 3, .reg 1, .imm 5, 0⟩),
      some (.scas ⟨p, 0, .reg 3, .reg 1, .imm 5, 9⟩),
      some (.serr ⟨p, 0, .reg 3, .reg 1, .imm 5, 0⟩),
      some (.sget ⟨p, 0, .reg 3, .reg 1, .imm 0, 0⟩),
      some (.launch ⟨p, 0, .reg 3, .reg 1, .imm 0, 0⟩),
      some (.tspawn ⟨p, 0, .reg 3, .reg 1, .imm 5, 9⟩),
      some (.tend ⟨p, 0, .imm 0, .imm 0, .imm 0, 0⟩),
      some (.tabort ⟨p, 0, .imm 0, .imm 0, .imm 0, 0⟩),
      some (.cfr ⟨p, 0, .reg 3, .reg 3, .imm 0, 0⟩),
      some (.tid ⟨p, 0, .reg 3, .imm 0, .imm 0, 0⟩),
      some (.narg ⟨p, 0, .reg 3, .reg 1, .imm 0, 0⟩)] := by decide
/-! ### A small machine: core 0 with the group of slot 0 that `withFetchWord` sets running, strand 0 current at PC 0 -/

def base : State := State.reset.place 0
/-- Scalars of strand 0. -/
def withS (s : State) (l : List (Nat × Nat)) : State := l.foldl (fun s x => s.setS 0 x.1 (BitVec.ofNat 64 x.2)) s
/-- The same group, of slot 1 at generation 0 with the core in its mask. -/
def guest : State :=
  { base with groups := [(0, { fetchGroup with slot := 1 })] }.mapCtx 1 fun x => { x with heapLimit := 0x10000, heapOff := 0, maskA := 1 }
def ran (o : Out) (p : State → Bool) : Bool := match o with | .next t => p t | _ => false
/-- A scalar of strand 0; its PC. -/
def sc (t : State) (i : Nat) : Nat := ((t.strand 0).s (t.tagOfStrand 0) i).toNat
def pcOf (t : State) : Nat := (t.getPc 0).toNat
/-- The strand has trapped with a code: its group fails with it. -/
def trapped (c : Code) (t : State) : Bool := (t.group 0).any fun g => g.fail.any (·.code == c)

/-! ### Witnesses and single steps: scalar instructions -/

def m1 : Nat := 2 ^ 64 - 1
theorem test_sums : let s := withS base [(1, m1), (2, 5)]
    s.ready fa.pr (opdRegs [fa.a, fa.b, fa.c]) [fa.d.dest] = true ∧ ran (exec (.add fa) s) (fun t => sc t 3 == 4 && pcOf t == 8) = true ∧
    ran (exec (.mulh { fa with m := 1 }) s) (fun t => sc t 3 == 4) = true := by decide +kernel
/-- R303: the corner cases. -/
theorem test_division : let s := withS base [(1, 2 ^ 63), (2, m1)]
    s.ready fa.pr (opdRegs [fa.a, fa.b, fa.c]) [fa.d.dest] = true ∧ s.val fa.a = BitVec.ofInt 64 (-2 ^ 63) ∧ s.val fa.b = BitVec.ofInt 64 (-1) ∧
    ran (exec (.div fa) s) (fun t => sc t 3 == 2 ^ 63) = true ∧ ran (exec (.rem fa) s) (fun t => sc t 3 == 0) = true ∧
    ran (exec (.div { fa with b := .imm 0 }) s) (fun t => sc t 3 == m1) = true ∧
    ran (exec (.div { fa with m := 1, b := .imm 2 }) (withS base [(1, 2 ^ 64 - 7)])) (fun t => sc t 3 == 0x7FFFFFFFFFFFFFFC) = true := by decide +kernel
theorem test_logic : let s := withS base [(1, 6), (2, 3)]
    s.ready fa.pr (opdRegs [fa.a, fa.b, fa.c]) [fa.d.dest] = true ∧ ran (exec (.andn fa) s) (fun t => sc t 3 == 4) = true ∧
    ran (exec (.rot { fa with b := .neg 31 }) s) (fun t => sc t 3 == 3) = true := by decide +kernel
theorem test_counts : let s := withS base [(1, 6), (2, 3)]
    s.ready fa.pr (opdRegs [fa.a, fa.b, fa.c]) [fa.d.dest] = true ∧ ran (exec (.clz fa) s) (fun t => sc t 3 == 61) = true ∧
    ran (exec (.clmul fa) s) (fun t => sc t 3 == 10) = true := by decide +kernel
/-- R305: the widest and the narrowest field, and a field that does not fit. -/
theorem test_fields : let s := withS base [(1, 5), (3, m1)]
    let f : FA := { fa with b := .imm 63, c := .imm 1 }
    let g : FA := { fa with b := .imm 1, c := .reg 4 }
    s.ready f.pr (opdRegs [f.a, f.b, f.c] ++ [f.d.dest]) [f.d.dest] = true ∧ s.ready f.pr (opdRegs [f.a, f.b, f.c]) [f.d.dest] = true ∧
    1 ≤ (s.val f.c).toNat ∧ (s.val f.b).toNat + (s.val f.c).toNat ≤ 64 ∧ ran (exec (.ext f) s) (fun t => sc t 3 == 0) = true ∧
    ran (exec (.ins { f with b := .imm 0 }) s) (fun t => sc t 3 == m1) = true ∧
    s.ready g.pr (opdRegs [g.a, g.b, g.c] ++ [g.d.dest]) [g.d.dest] = true ∧ (s.val g.c).toNat < 1 ∧
    ran (exec (.ext g) s) (trapped cOperand) = true ∧ ran (exec (.ins g) s) (trapped cOperand) = true := by decide +kernel
theorem test_comparisons : let s := withS base [(1, m1), (2, 5)]
    let f : FA := { fa with m := 3 }
    let g : FA := { fa with m := 5, d := .num 7 }
    s.ready f.pr (opdRegs [f.a, f.b, f.c]) [f.d.dest] = true ∧ (s.val f.a).toInt < (s.val f.b).toInt ∧ ¬(s.val f.a).toNat < (s.val f.b).toNat ∧
    ran (exec (.min fa) s) (fun t => sc t 3 == m1) = true ∧ ran (exec (.min { fa with m := 1 }) s) (fun t => sc t 3 == 5) = true ∧
    ran (exec (.cmps f) s) (fun t => sc t 3 == 1) = true ∧ ran (exec (.cmps { fa with m := 5 }) s) (fun t => sc t 3 == 0) = true ∧
    s.ready g.pr (opdRegs [g.a, g.b]) [pendP g.d.number] = true ∧ g.d.number < 8 ∧ ran (exec (.cmp g) s) (fun t => t.getP 0 7 == 0) = true ∧
    ran (exec (.cmp { g with m := 3 }) s) (fun t => t.getP 0 7 == BitVec.allOnes 64) = true ∧
    s.ready g.pr (opdRegs [g.a, g.b]) [pendP 8] = true ∧ ran (exec (.cmp { g with d := .num 8 }) s) (trapped cOperand) = true ∧
    s.ready f.pr (pendP (f.m.toNat % 8) :: opdRegs [f.a, f.b]) [f.d.dest] = true ∧
    ran (exec (.sel { f with m := 8 }) s) (fun t => sc t 3 == 5) = true := by decide +kernel
theorem test_predicates : let f : FA := ⟨p0, 4, .num 7, .num 1, .imm 0, .imm 0⟩
    let g : FA := ⟨p0, 0, .reg 3, .num 7, .imm 0, .imm 0⟩
    let h : FA := ⟨p0, 1, .num 7, .reg 1, .imm 0, .imm 0⟩
    base.ready f.pr [pendP f.a.number] [pendP f.d.number] = true ∧ f.d.number < 8 ∧ f.a.number < 8 ∧
    ran (exec (.plog f) base) (fun t => t.getP 0 7 == BitVec.allOnes 64) = true ∧
    base.ready f.pr [pendP 1, pendP 8] [pendP 7] = true ∧ ran (exec (.plog { f with m := 0, b := .num 8 }) base) (trapped cOperand) = true ∧
    base.ready g.pr [pendP g.a.number] [g.d.dest] = true ∧ ran (exec (.movp g) base) (fun t => sc t 3 == 0) = true ∧
    base.ready g.pr [pendP 8] [g.d.dest] = true ∧ ran (exec (.movp { g with a := .num 8 }) base) (trapped cOperand) = true ∧
    base.ready h.pr (opdRegs [h.a]) [pendP h.d.number] = true ∧ h.m ≠ 0 ∧ ran (exec (.movp h) (withS base [(1, 9)])) (fun t => t.getP 0 7 == 9) = true ∧
    base.ready h.pr (opdRegs [h.a]) [pendP 8] = true ∧ ran (exec (.movp { h with d := .num 8 }) base) (trapped cOperand) = true := by decide +kernel
theorem test_scalar_frame : let f : FA := { fa with b := .imm 63, c := .imm 1 }
    writesOneScalar (.ext f) = some f ∧ base.ready f.pr (scalarReads (.ext f) f) [f.d.dest] = true ∧ fieldOk (base.val f.b) (base.val f.c) = true ∧
    ran (exec (.ext f) base) (fun t => t.getP 0 0 == BitVec.allOnes 64) = true := by decide +kernel

/-! ### Control -/

theorem test_branches : let s := withS base [(1, 5), (2, 5), (63, 12)]
    let e : FB := { fb with a := .num 7, b := .imm 0, cond := 4 }
    let j : FA := ⟨p0, 0, .imm 0, .reg 63, .imm 0, .imm 0⟩
    s.ready fb.pr (opdRegs [fb.a, fb.b]) [] = true ∧ s.val fb.a = s.val fb.b ∧ ran (exec (.br fb) s) (fun t => pcOf t == 16) = true ∧
    ran (exec (.br { fb with cond := 2 }) s) (fun t => pcOf t == 8) = true ∧
    s.ready fb.pr (opdRegs [fb.a, fb.b]) [fb.a.dest] = true ∧ ran (exec (.brc fb) s) (fun t => pcOf t == 8 && sc t 1 == 4) = true ∧
    s.ready e.pr [pendP e.a.number] [] = true ∧ e.a.number < 8 ∧ e.cond.toNat ≤ 4 ∧ ran (exec (.brp e) s) (fun t => pcOf t == 16) = true ∧
    ran (exec (.brp { e with cond := 5 }) s) (trapped cOperand) = true ∧ s.ready e.pr [pendP 8] [] = true ∧
    ran (exec (.brp { e with a := .num 8 }) s) (trapped cOperand) = true ∧
    s.ready fb.pr [] [63] = true ∧ ran (exec (.call { fb with cond := 0, a := .imm 0, b := .imm 0 }) s) (fun t => pcOf t == 16 && sc t 63 == 8) = true ∧
    ran (exec (.call fb) s) (trapped cOperand) = true ∧ s.ready j.pr (opdRegs [j.a]) [] = true ∧ (s.val j.a).toNat % 4 = 0 ∧
    ran (exec (.jmp j) s) (fun t => pcOf t == 12) = true ∧ ran (exec (.jmp { j with a := .imm 2 }) s) (trapped cMisaligned) = true ∧
    s.ready j.pr (opdRegs [j.a]) [63] = true ∧ ran (exec (.callr j) s) (fun t => pcOf t == 12 && sc t 63 == 8) = true ∧
    ran (exec (.callr { j with a := .imm 2 }) s) (trapped cMisaligned) = true ∧ s.ready j.pr [63] [] = true ∧
    ran (exec (.ret { j with a := .imm 0 }) s) (fun t => pcOf t == 12) = true ∧
    ran (exec (.ret { j with a := .imm 0 }) (withS s [(63, 13)])) (trapped cMisaligned) = true := by decide +kernel
/-- A group with a loop record of one trip; LPH of strand 0. -/
def looping (trip lph : Nat) : State :=
  { base with groups := [(0, { fetchGroup with ker := 32, epi := 64, trip := BitVec.ofNat 64 trip })] }.setCtl 0 nLPH (BitVec.ofNat 64 lph)
theorem test_loops : let f : FB := ⟨p0, 0, .reg 1, .imm 0, 64⟩
    let g : FB := ⟨p0, 1, .imm 0, .imm 0, 0xFFFFFFF0⟩
    let h : FB := ⟨p0, 0, .imm 0, .imm 0, 0⟩
    let s := withS base [(1, 2)]
    s.ready f.pr (opdRegs [f.a]) [] = true ∧ ran (exec (.loop f) s) (fun t => t.getCtl 0 nLC == 2 && pcOf t == 8) = true ∧
    ran (exec (.loop f) base) (fun t => pcOf t == 64) = true ∧ base.ready g.pr [pendC nLC] [] = true ∧
    ran (exec (.lendCnt g) ((base.setCtl 0 nLC 2).setPc 0 32)) (fun t => t.getCtl 0 nLC == 1 && pcOf t == 16) = true ∧
    ran (exec (.lendCnt g) (base.setCtl 0 nLC 1)) (fun t => t.getCtl 0 nLC == 0 && pcOf t == 8) = true ∧
    ((looping 1 1).groupOf 0).map (fun g => (g.ker, g.epi, g.trip)) = some (32, 64, 1) ∧ (looping 1 1).ready h.pr [pendC nLPH, pendC nITER] [] = true ∧
    ran (exec (.lend h) (looping 1 1)) (fun t => t.getCtl 0 nLPH == 2 && pcOf t == 32) = true ∧
    ran (exec (.lend h) (looping 0 1)) (fun t => t.getCtl 0 nLPH == 3 && pcOf t == 64) = true ∧
    ran (exec (.lend h) (looping 2 2)) (fun t => t.getCtl 0 nLPH == 2 && t.getCtl 0 nITER == 1) = true ∧
    ran (exec (.lend h) (looping 1 2)) (fun t => t.getCtl 0 nLPH == 3 && t.getCtl 0 nITER == 1) = true ∧
    ran (exec (.lend h) (looping 1 3)) (trapped cOperand) = true := by decide +kernel
theorem test_strand_control : let f : FA := ⟨p0, 0, .imm 0, .reg 1, .imm 0, .imm 0⟩
    let z : FA := ⟨p0, 0, .imm 0, .imm 0, .imm 0, .imm 0⟩
    let s := withS base [(1, 65535)]
    let e := withS base [(1, 65536)]
    let d := s.mapCore 0 fun x => { x with port := some 0 }
    let k : FB := ⟨p0, 0, .imm 3, .reg 4, 64⟩
    base.ready z.pr [] [] = true ∧ base.inTask 0 = false ∧ ran (exec (.halt z) base) (fun t => (t.strand 0).st == .halted) = true ∧
    ran (exec (.qpt z) base) (fun t => !(t.core 0).qpt) = true ∧ (base.mapStrand 0 fun x => { x with task := some 0 }).inTask 0 = true ∧
    s.ready f.pr (opdRegs [f.a]) [] = true ∧ (s.val f.a).toNat ≤ 65535 ∧ ran (exec (.yield f) s) (fun t => (t.strand 0).yieldUntil == 65536) = true ∧
    65535 < (e.val f.a).toNat ∧ ran (exec (.yield f) e) (trapped cOperand) = true ∧ ran (exec (.trap f) s) (trapped cSoftTrap) = true ∧
    (s.core 0).port.isSome = false ∧ ran (exec (.brk f) s) (trapped cBreak) = true ∧ (d.core 0).port.isSome = true ∧ d.ready f.pr (opdRegs [f.a]) [] = true ∧
    ran (exec (.brk f) d) (fun t => (t.strand 0).dbg && (t.strand 0).brkLen == 8 && (t.strand 0).brkVal == 65535) = true ∧
    ran (exec (.rlabel { f with a := .imm 4, b := .imm 9 }) s) (fun t => t.getCtl 0 nRLBL == 4 && t.getCtl 0 nRCOST == 9) = true ∧
    ran (exec (.rlabel { f with a := .imm 3, b := .imm 9 }) s) (trapped cOperand) = true ∧
    base.ready k.pr (opdRegs [k.a]) [k.b.dest] = true ∧ (base.val k.a).toNat ≤ 3 ∧ (base.strand 3).st = .parked ∧ (base.strand 3).dbg = false ∧ (base.strand 3).grp = (base.strand 0).grp ∧
    (base.strand 0).grp.isSome = true ∧ ran (exec (.fork k) base) (fun t => (t.strand 3).st == .running && t.getPc 3 == 64 && sc t 4 == 0) = true ∧
    (base.strand 0).st ≠ .parked ∧ ran (exec (.fork { k with a := .imm 0 }) base) (fun t => sc t 4 % 256 == cOperand.toNat) = true ∧
    ran (exec (.fork k) (base.mapStrand 3 fun x => { x with dbg := true })) (fun t => sc t 4 == cOperand.toNat + 256 * 7) = true := by decide +kernel
theorem test_false_predicate : let p : Pred := ⟨1, false⟩
    (base.strand 0).pend.contains (pendP p.n.toNat) = false ∧ (base.strand 0).pBad (base.tagOfStrand 0) p.n.toNat = false ∧
    (base.getP 0 p.n.toNat).getLsbD 0 = p.neg ∧ ran (exec (.trap { fa with pr := p }) base) (fun t => pcOf t == 8 && !(trapped cSoftTrap t)) = true := by decide +kernel

/-! ### System registers -/

theorem test_sysrd : let f : FS := ⟨p0, .reg 3, .imm 0, 0x2011⟩
    base.ready f.pr (opdRegs [f.a]) [f.d.dest] = true ∧ idSpace f.id = 1 ∧ idNum f.id = 0x11 ∧ sysCheck (base.slotOf 0) f.id false (base.val f.a) = .ok (0, 0) ∧
    ran (exec (.sysrd f) base) (fun t => sc t 3 == 0x10000) = true ∧
    (let g : FS := ⟨p0, .reg 3, .imm 0, 0x0000⟩
     base.ready g.pr (opdRegs [g.a] ++ [pendC 0]) [g.d.dest] = true ∧ base.flagsDue 0 = false ∧ sysCheck 0 g.id false (base.val g.a) = .ok (0, 0)) ∧
    (let g : FS := ⟨p0, .reg 3, .imm 3, 0x6008⟩
     idSpace g.id = 3 ∧ sysCheck 0 g.id false (base.val g.a) = .ok (0, 3)) := by decide +kernel
/-- An index at the end of its range in each space, and beyond it. -/
theorem test_sysrd_completes : let f (id : Nat) : FS := ⟨p0, .reg 3, .reg 1, BitVec.ofNat 16 id⟩
    let s (x : Nat) := withS base [(1, x)]
    let ok (id x : Nat) : Bool := (s x).ready p0 [1] [3] && (sysAccess (id / 8192) (id % 4096)).isSome && ran (exec (.sysrd (f id)) (s x)) (fun t => pcOf t == 8)
    (s 0).slotOf 0 = 0 ∧ ok 0x2011 0 = true ∧ ok 0x3011 63 = true ∧ ok 0x4007 191 = true ∧ ok 0x5007 (63 * 256 + 191) = true ∧
    ok 0x6000 3 = true ∧ ok 0x8018 0 = true ∧ ok 0xA000 247 = true ∧ ok 0xA001 127 = true ∧ ok 0xA002 65535 = true ∧ ok 0xA003 255 = true ∧ ok 0x0005 0 = true ∧
    ran (exec (.sysrd (f 0xA001)) (s 128)) (trapped cOperand) = true ∧ (guest.slotOf 0 = 1 ∧ idOther 0x2018 = false ∧ sysAccess 1 0x18 = some .rw) := by decide +kernel
theorem test_syswr : let f : FS := ⟨p0, .reg 1, .imm 0, 0x0001⟩
    let h : FS := ⟨p0, .reg 1, .imm 0, 0x2011⟩
    let s := withS base [(1, 77)]
    s.ready f.pr (opdRegs [f.a, f.d]) [] = true ∧ sysCheck (s.slotOf 0) f.id true (s.val f.a) = .ok (0, 0) ∧
    (s.sysWrite 0 (idSpace f.id) (idNum f.id) 0 0 (s.val f.d)).isOk = true ∧ ran (exec (.syswr f) s) (fun t => t.getCtl 0 nLC == 77) = true ∧
    sysCheck (s.slotOf 0) h.id true (s.val h.a) = .ok (0, 0) ∧ s.inTask 0 = false ∧ s.performedTo 0 2 = true ∧ s.seqIdle = true ∧
    guest.slotOf 0 = 1 ∧ guest.ready h.pr (opdRegs [h.a, h.d]) [] = true ∧ (sysAccess 1 0x11).isSome = true ∧ sysAccess 1 0x11 ≠ some .rw ∧
    ran (exec (.syswr h) guest) (trapped cPrivilege) = true ∧ guest.ready h.pr (opdRegs [h.a]) [h.d.dest] = true ∧ idOther 0x3011 = true ∧
    ran (exec (.sysrd { h with id := 0x3011 }) guest) (trapped cPrivilege) = true ∧
    sysAccess 1 0x7F = none ∧ ran (exec (.syswr { h with id := 0x207F }) guest) (trapped cOperand) = true := by decide +kernel
theorem test_identity : let f : FA := ⟨p0, 0, .reg 3, .reg 1, .imm 0, .imm 0⟩
    base.ready f.pr [] [f.d.dest] = true ∧ base.ready f.pr (opdRegs [f.a]) [f.d.dest] = true ∧ base.slotOf 0 < 64 ∧
    ran (exec (.time { f with a := .imm 0 }) { base with ref := 5 }) (fun t => sc t 3 == 5) = true ∧
    ran (exec (.id f) base) (fun t => sc t 3 == 0x019416) = true ∧ ran (exec (.id { f with a := .imm 1 }) base) (fun t => sc t 3 == 0) = true ∧
    ran (exec (.id { f with a := .imm 2 }) base) (fun t => sc t 3 == 0) = true ∧ ran (exec (.id { f with a := .imm 3 }) base) (trapped cOperand) = true ∧
    (base.val (.imm 7)).toNat ≤ 7 ∧ guest.perfLive 0 1 7 (guest.tagOfStrand 0) = false ∧ ran (exec (.perf { f with a := .imm 7 }) guest) (fun t => sc t 3 == 0) = true ∧ perfFree (base.perfSelOf 0 0 7) = false ∧ ran (exec (.perf { f with a := .imm 8 }) base) (trapped cOperand) = true ∧
    ran (exec (.genRd { f with m := 1, a := .imm 0 }) base) (fun t => sc t 3 == 0) = true ∧
    ran (exec (.genRd { f with a := .imm 63 }) base) (fun t => sc t 3 == 0) = true ∧ guest.ready f.pr (opdRegs [f.a]) [f.d.dest] = true ∧
    ran (exec (.genRd { f with a := .imm 2 }) guest) (trapped cPrivilege) = true ∧ ran (exec (.genRd f) (withS guest [(1, 64)])) (trapped cPrivilege) = true ∧
    ran (exec (.genRd f) (withS base [(1, 64)])) (trapped cOperand) = true := by decide +kernel
theorem test_generation_requests : let f : FA := ⟨p0, 0, .reg 3, .imm 63, .imm 0, .imm 0⟩
    let l : FA := ⟨p0, 0, .reg 3, .imm 1, .lit32 0x10000, .lit32 0x10000⟩
    let full := base.mapPkg fun p => { p with tlbis := List.replicate 32 ⟨1, 0, 0, 0, true, [], [], 0⟩ }
    let ring := base.mapFn 0 fun x => { x with evSize := 6 }
    base.ready f.pr (opdRegs [f.a]) [f.d.dest] = true ∧ base.slotOf 0 = 0 ∧ base.inTask 0 = false ∧
    ran (exec (.genAdv f) base) (fun t => (t.strand 0).stall == 3 && t.pkg.seqQ == [.genAdv 63 0 3 8]) = true ∧
    ran (exec (.genAdv f) guest) (trapped cPrivilege) = true ∧ base.pkg.tlbis.length < 32 ∧
    ran (exec (.tlbiAll f) base) (fun t => sc t 3 == 256 && t.pkg.tlbis.length == 1) = true ∧ 32 ≤ full.pkg.tlbis.length ∧
    full.ready f.pr (opdRegs [f.a]) [f.d.dest] = true ∧ ran (exec (.tlbiAll f) full) (fun t => sc t 3 == 0x34) = true ∧
    ran (exec (.tlbiAll f) guest) (trapped cPrivilege) = true ∧
    base.ready l.pr (opdRegs [l.a, l.b, l.c]) [l.d.dest] = true ∧ ran (exec (.tlbi l) base) (fun t => t.pkg.tlbis.map (·.hi) == [0x20000]) = true ∧
    ran (exec (.tlbi { l with c := .imm 0 }) base) (trapped cOperand) = true ∧
    base.ready f.pr (opdRegs [f.a, f.b]) [f.d.dest] = true ∧ base.performedTo 0 4 = true ∧ (base.fn 0).evRoom = false ∧
    ran (exec (.evpost f) base) (fun t => sc t 3 == 0x34) = true ∧ (ring.fn 0).evRoom = true ∧ (ring.fn 0).evBuf = [] ∧
    ran (exec (.evpost f) ring) (fun t => (t.fn 0).evPi == 1 && sc t 3 == 0) = true := by decide +kernel


/-! ### Memory and sync -/

theorem test_addresses : base.spadOf 0 = (0, 2 ^ 19 * 3) ∧ base.resolve 0 true 0 (2 ^ 19 * 3 - 8) 8 = .ok ⟨.ground (2 ^ 19 * 3 - 8), 0⟩ ∧
    base.resolve 0 true 0 (2 ^ 19 * 3 - 8) 9 = trapAt cBound (2 ^ 19 * 3 - 8) ∧ base.maskBit 0 1 = false ∧
    base.resolve 0 false 1 (2 ^ 21) 8 = trapAt cSpace (2 ^ 21) ∧ guest.maskBit 1 0 = true ∧ (guest.resolve 0 false 1 8 8).isOk = true ∧
    guest.resolve 0 false 1 (48 * 2 ^ 21) 8 = trapAt cBound (48 * 2 ^ 21) ∧ (base.heapTriple 0 0).2 = (2 ^ 16, 0) ∧
    base.resolve 0 false 2 (2 ^ 16 - 8) 8 = .ok ⟨.hbm (2 ^ 16 - 8), 2⟩ ∧ base.resolve 0 false 2 (2 ^ 16 - 8) 9 = trapAt cBound (2 ^ 16 - 8) ∧
    base.resolve 0 false 3 0 1 = trapAt cSpace 0 ∧ base.resolve 0 true 4 0 1 = trapAt cSpace 0 := by decide +kernel
/-- A granule of tag 0 that tag 64 writes loses what it held; the next granule keeps it. -/
theorem test_tagged_memory : let m := (⟨[], []⟩ : TMem).write false 0 (cellsAt 60 [1, 2, 3, 4, 5, 6])
    let w := m.write false 64 (cellsAt 10 [9])
    m.wf = true ∧ w.wf = true ∧ m.byte false 0 60 = 1 ∧ w.byte false 64 10 = 9 ∧ w.byte false 0 60 = 0 ∧ w.byte false 64 60 = 0 ∧ w.byte false 0 64 = 5 := by
  decide +kernel
def sliceData : State := { base with ground := base.ground.write false 0 (cellsAt 0x40 [0xFE, 0xFF]) }
theorem test_loads : let s := withS sliceData [(1, 0x40)]
    let f : FM := { fm with spc := 0, ty := 2 }
    let h : FM := { fm with spc := 2 }
    s.ready f.pr (opdRegs [f.a, f.b]) [f.d.dest] = true ∧ s.resolve 0 false 0 (memEa s f).toNat 2 = .ok ⟨.ground 0x40, 0⟩ ∧
    (Place.ground 0x40).onCore 0 = true ∧ s.flight = [] ∧ s.commitsAt (.ground 0x40) 2 = [] ∧ s.inTask 0 = false ∧ s.placeFrozen (.ground 0x40) = false ∧
    s.poisonAt 0 0 (.ground 0x40) 2 = false ∧ ran (exec (.ld f) s) (fun t => sc t 3 == m1 - 1) = true ∧
    s.ready h.pr (opdRegs [h.a, h.b]) [h.d.dest] = true ∧ s.resolve 0 false 2 (memEa s h).toNat 8 = .ok ⟨.hbm 0x40, 2⟩ ∧
    (Place.hbm 0x40).onCore 0 = false ∧ ran (exec (.ld h) s) (fun t => t.flight.map (·.src) == [.hbm 0x40] && (t.strand 0).pend == [3]) = true ∧
    ran (exec (.ld { h with spc := 3 }) s) (trapped cSpace) = true := by decide +kernel
theorem test_stores : let s := withS sliceData [(1, 0x40), (3, 0x1122)]
    let f : FM := { fm with spc := 0, ty := 0 }
    let h : FM := { fm with spc := 2 }
    s.ready f.pr (opdRegs [f.a, f.b, f.d]) [] = true ∧ (s.strand 0).task = none ∧ s.resolve 0 true 0 (memEa s f).toNat 1 = .ok ⟨.ground 0x40, 0⟩ ∧
    s.remoteOk 0 0 (.ground 0x40) = true ∧ s.cutAt 0 0 (.ground 0x40) 0 = false ∧ s.commitsAt (.ground 0x40) 1 = [] ∧
    ran (exec (.st f) s) (fun t => t.ground.byte false 0 0x40 == 0x22 && t.ground.byte false 0 0x41 == 0xFF) = true ∧
    s.ready h.pr (opdRegs [h.a, h.b, h.d]) [] = true ∧ s.storesOut 0 = 0 ∧ s.resolve 0 true 2 (memEa s h).toNat 8 = .ok ⟨.hbm 0x40, 2⟩ ∧
    ran (exec (.st h) s) (fun t => t.flight.map (·.data) == [leBytes 8 0x1122]) = true ∧
    ran (exec (.st { h with spc := 4 }) s) (trapped cSpace) = true := by decide +kernel
/-- An access of strand 0 of slot 0 in flight. -/
def acc7 : Acc :=
  { id := 7, ord := 7, strand := 0, core := 0, slot := 0, gen := 0, why := .store, cls := 2, scope := 2, src := .none, dst := .hbm 0x100, n := 8, data := leBytes 8 5,
    rsegs := [], wsegs := [(.hbm 0x100, 8)], runc := [], wunc := [], task := none, pc := 0, ins := 0, ea := 0x100, done := false, twin := false, code := 0 }
theorem test_fence_and_publish : let s := withS base [(1, 1023)]
    let f : FM := { fm with ty := 3, spc := 2 }
    let g : FM := { fm with ty := 1 }
    let u := s.mapStrand 0 fun x => { x with task := some 1 }
    let l := s.mapStrand 0 fun x => { x with peerLost := true }
    let w := { s with flight := [{ acc7 with why := .flush, cls := 0, scope := 4, dst := .none, data := [], wsegs := [], done := true }] }
    s.ready f.pr (opdRegs [f.a, f.b]) [] = true ∧ ran (exec (.pref f) s) (fun t => pcOf t == 8) = true ∧
    ran (exec (.pref { f with spc := 1 }) s) (trapped cSpace) = true ∧ s.ready f.pr (opdRegs [f.a]) [f.d.dest] = true ∧ s.inTask 0 = false ∧
    s.fenceWaits 0 1023 = false ∧ (s.peerSectors 0).all (fun e => !e.2.2.2.dirty) = true ∧ s.pkg.peers = [] ∧
    ran (exec (.fence f) s) (fun t => sc t 3 == 0) = true ∧ l.fenceWaits 0 1023 = false ∧ ran (exec (.fence f) l) (fun t => sc t 3 == 0x13) = true ∧
    (w.flushOf 0).any (·.done) = true ∧ w.ready f.pr (opdRegs [f.a]) [f.d.dest] = true ∧ w.fenceWaits 0 1023 = false ∧
    ran (exec (.fence { f with ty := 4 }) w) (fun t => sc t 3 == 0 && t.flight == []) = true ∧
    ran (exec (.fence { f with ty := 4 }) s) (fun t => t.flight.map (·.why) == [.flush] && t.sent == [.flush 0]) = true ∧ u.inTask 0 = true ∧ u.ready f.pr (opdRegs [f.a]) [f.d.dest] = true ∧ s.performedTo 0 2 = true ∧ s.copyToHandle 0 0 1023 = false ∧
    ran (exec (.pub g) s) (fun t => ((t.die 3).pubs.map (·.h)) == [1023] && (t.strand 0).stall == 2) = true := by decide +kernel
def synced (limit : Nat) : State := base.mapCtx 0 fun x => { x with syncLimit := BitVec.ofNat 32 limit, sramLen := BitVec.ofNat 23 limit }
/-- The sync window of slot 0 in `synced 64`. -/
def win : Nat × Nat × Nat × Nat := (64, 0, 64, 0)
theorem test_sync_instructions : let s := withS (synced 64) [(1, 2 ^ 34 - 2 ^ 32 + 56), (2, 0x12)]
    let b := withS (synced 64) [(1, 57), (2, 0)]
    let u := withS (synced 64) [(1, 2 ^ 34)]
    let m := withS (synced 64) [(1, 4)]
    let d := withS (synced 64) [(1, 8), (2, 2 ^ 48)]
    let f : FY := { fy with b := .reg 2, ix := 2 }
    let z : FY := { fy with b := .reg 2, ix := 0 }
    s.syncWindow 0 0 = win ∧ (s.strand 0).task = none ∧ s.ready f.pr (opdRegs [f.a, f.b]) [f.d.dest] = true ∧ latchCode (s.val f.b) = true ∧
    ran (exec (.sadd f) s) (fun t => t.flight.map (·.why) == [.sync ⟨0, 3, 56, 0x12, 0, none, win, none⟩ 3]) = true ∧
    ran (exec (.serr f) s) (fun t => t.flight.map (·.why) == [.sync ⟨21, 3, 56, 0x12, 0, none, win, none⟩ 3]) = true ∧
    s.ready f.pr (opdRegs [f.a, f.b] ++ [f.ix.toNat]) [f.d.dest] = true ∧ f.ix.toNat < 64 ∧
    ran (exec (.scas f) s) (fun t => t.flight.map (·.why) == [.sync ⟨20, 3, 56, 0x12, 0x12, none, win, none⟩ 3]) = true ∧
    (s.strand 0).swait = false ∧ ran (exec (.swait z) s) (fun t => (t.strand 0).swait && t.flight.map (·.why) == [.sync ⟨1, 3, 56, 0x12, 0, none, win, none⟩ 3]) = true ∧
    ran (exec (.swait f) s) (fun t => t.flight.map (·.why) == [.sync ⟨1, 3, 56, 0x12, 0, some 0x12, win, none⟩ 3]) = true ∧
    d.ready f.pr (opdRegs [f.a, f.b] ++ [f.ix.toNat]) [f.d.dest] = true ∧ ran (exec (.swait f) d) (trapped cOperand) = true ∧
    ran (exec (.sget { f with m := 1 }) s) (fun t => t.flight.map (·.why) == [.sync ⟨23, 3, 56, 0, 0, none, win, none⟩ 3]) = true ∧
    ran (exec (.satom f) b) (trapped cBound) = true ∧ ran (exec (.satom f) u) (trapped cBound) = true ∧
    ran (exec (.satom f) m) (trapped cMisaligned) = true ∧ latchCode (b.val f.b) = false ∧ ran (exec (.serr f) b) (trapped cOperand) = true := by
  decide +kernel
def flying (a : Acc) : State := { synced 64 with flight := [a], nextId := 8 }
theorem test_sync_engine : let a (o : Nat) : Acc := { acc7 with why := .sync ⟨o, 0, 8, 6, 5, none, win, none⟩ 3, wsegs := [], dst := .none }
    let s (o : Nat) : State := flying (a o)
    let v (t : State) : W64 := (t.syncGet (.sram 0 8) 0).v
    (s 0).accOf 7 = some (a 0) ∧ syncAt win 0 8 = .sram 0 8 ∧ (s 0).mayPerform (a 0) = true ∧ (s 0).oldAtDie 0 0 0 = false ∧
    (s 0).frozen 0 = false ∧ (s 0).syncBad (.sram 0 8) 0 = false ∧ ran (exec (.syncOperationArrival 7) (s 0)) (fun t => v t == 6) = true ∧
    (let b : Acc := { acc7 with why := .sync ⟨0, 0, 8, 6, 5, none, win, some 1⟩ 3, wsegs := [], dst := .none }
     (flying b).mayPerform b = true ∧ (flying b).committing 0 0 = false ∧ ran (exec (.syncOperationArrival 7) (flying b)) (fun t => v t == 6) = true) ∧
    (s 9).mayPerform (a 9) = true ∧ ran (exec (.syncOperationArrival 7) (s 9)) (fun t => v t == 6) = true ∧
    (s 20).mayPerform (a 20) = true ∧ ran (exec (.syncOperationArrival 7) (s 20)) (fun t => v t == 0) = true ∧
    (s 21).mayPerform (a 21) = true ∧ ran (exec (.syncOperationArrival 7) (s 21)) (fun t => (t.syncGet (.sram 0 8) 0).latch == 6) = true ∧
    (s 22).mayPerform (a 22) = true ∧ ran (exec (.syncOperationArrival 7) (s 22)) (fun t => t.flight.map (·.done) == [true]) = true ∧
    (let w := (s 1).syncPut 0 0 (.sram 0 8) ⟨6, 0⟩
     w.accOf 7 = some (a 1) ∧ w.mayPerform (a 1) = true ∧ (w.die 0).syncWaits = [] ∧ (w.syncGet (.sram 0 8) 0).v = 6 ∧ w.syncBad (.sram 0 8) 0 = false ∧
     ran (exec (.syncOperationArrival 7) w) (fun t => !(t.strand 0).swait && sc t 3 == 0) = true) := by decide +kernel
theorem test_access_arrivals : let s := flying acc7
    let l : Acc := { acc7 with why := .load 3 6, src := .hbm 0x100, dst := .none, data := [], rsegs := [(.hbm 0x100, 8)], wsegs := [] }
    let g : Acc := { l with src := .ground Config.sliceBytes, rsegs := [(.ground Config.sliceBytes, 8)] }
    let r := (flying g).mapCtx 0 fun x => { x with maskA := 3 }
    s.accOf 7 = some acc7 ∧ s.mayPerform acc7 = true ∧ s.placeFrozen acc7.dst = false ∧ acc7.wunc = [] ∧ s.commitsAt acc7.dst 8 = [] ∧ s.coreOk 0 0 0 [] true acc7.dst 7 = true ∧ (s.ctxOf 0).dirtyEn = false ∧
    ran (exec (.memoryAccessArrival 7) s) (fun t => t.hbm.byte false 0 0x100 == 5 && t.flight == []) = true ∧
    (flying l).accOf 7 = some l ∧ (flying l).mayPerform l = true ∧ (flying l).commitsAt l.src 8 = [] ∧ ran (exec (.memoryAccessArrival 7) (flying l)) (fun t => t.flight.map (·.done) == [true]) = true ∧
    r.accOf 7 = some g ∧ r.mayPerform g = true ∧ g.src.onCore g.core = false ∧ r.placeFrozen g.src = false ∧ r.remoteOk 0 0 g.src = true ∧ r.commitsAt g.src 8 = [] ∧
    ran (exec (.groundRemoteArrival 7) r) (fun t => t.flight.map (·.done) == [true]) = true := by decide +kernel
theorem test_access_returns : let l : Acc := { acc7 with why := .load 3 0, data := [0x80], done := true }
    let y : Acc := { acc7 with why := .sync ⟨0, 0, 8, 6, 5, none, win, none⟩ 3, done := true }
    let e : Acc := { l with code := 0x22 }
    (flying l).accOf 7 = some l ∧ ((flying l).strand 0).task = l.task ∧
    ran (exec (.accessResponseReturn 7) (flying l)) (fun t => sc t 3 == m1 - 127 && t.flight == []) = true ∧
    ran (exec (.accessResponseReturn 7) (flying e)) (trapped 0x22) = true ∧
    ran (exec (.accessResponseReturn 7) (flying y)) (fun t => sc t 3 == 5) = true := by decide +kernel

/-! ### Encoding, the step, traps -/

/-- An instruction with a literal, encoded and read back. -/
theorem test_round_trip : let i : Instr := .add { fa with b := .lit32 100 }
    WellFormed i = true ∧ encode i = some (0x02000301FE400000, 100) ∧ decode 0x02000301FE400000 100 = .ok i := by decide +kernel
theorem test_written_words_decode : decode 0xA002040600720000 0 = .ok (.ld ⟨p0, 2, .reg 4, .reg 6, .reg 0, 7, 2, 0⟩) ∧
    decode 0x430A030106020500 0 = .error cEncoding := by decide +kernel
/-- `NOP` (R277 to R280) at the strand's PC, with zeros after it, and a pinned event. -/
def nopWord : Nat := 0x0100404040400000
theorem test_step_runs : let s := base.withFetchWord 64 nopWord
    let u := { s with turn := some (.event .sweepPassEnd) }
    s.turn = some (.strand 0) ∧ s.upsets = [] ∧ s.tock.meetAll.eligible 0 = true ∧ (s.strand 0).pc.bad (s.tagOfStrand 0) = false ∧ (s.getPc 0).toNat % 4 = 0 ∧
    s.codeOld 0 0 8 = false ∧ s.past = [] ∧ (List.range 8).all (fun k => !(s.refusedAt 0 (.hbm 0) k)) = true ∧ decode (BitVec.ofNat 64 nopWord) 0 = .ok (.nop { fa with d := .imm 0, a := .imm 0, b := .imm 0 }) ∧
    (s.getPc 0).toNat + 8 ≤ (s.heapTriple 0 0).2.1 ∧ s.hbm.bad false (s.tagOfStrand 0) 0 8 = false ∧
    (List.range 8).all (fun k => s.hbm.byte false (s.tagOfStrand 0) k == (BitVec.ofNat 64 nopWord).extractLsb' (8 * k) 8) = true ∧
    ran (step s) (fun t => pcOf t == 8 && t.cycle == 1 && (t.core 0).rot == 0) = true ∧
    u.turn = some (.event .sweepPassEnd) ∧ isEvent .sweepPassEnd = true ∧ ran (step u) (fun t => t.cycle == 1) = true := by decide +kernel
theorem test_step_traps : let s := base.withFetchWord 64 0
    let u := s.setPc 0 (2 ^ 16 - 4)
    let o := s.setPc 0 2
    let b := s.mapStrand 0 fun x => { x with pc := { x.pc with poison := true } }
    decode 0 0 = .error cOpcode ∧ s.turn = some (.strand 0) ∧ s.tock.meetAll.eligible 0 = true ∧ s.codeOld 0 0 8 = false ∧
    (List.range 8).all (fun k => s.hbm.byte false (s.tagOfStrand 0) k == 0) = true ∧ ran (step s) (trapped cOpcode) = true ∧
    u.tock.meetAll.eligible 0 = true ∧ (u.getPc 0).toNat % 4 = 0 ∧ u.codeOld 0 (2 ^ 16 - 4) 8 = false ∧ (u.heapTriple 0 0).2.1 < (u.getPc 0).toNat + 8 ∧ ran (step u) (trapped cBound) = true ∧
    o.tock.meetAll.eligible 0 = true ∧ (o.strand 0).pc.bad (o.tagOfStrand 0) = false ∧ (o.getPc 0).toNat % 4 ≠ 0 ∧ ran (step o) (trapped cMisaligned) = true ∧
    b.tock.meetAll.eligible 0 = true ∧ (b.strand 0).pc.bad (b.tagOfStrand 0) = true ∧ ran (step b) (trapped cUncorrectable) = true := by decide +kernel
/-- A trap of the group's only running strand; another group on another core, and one on the same core. -/
theorem test_trap_ends_group : let other : Group := { fetchGroup with slot := 1, cores := [1], strands := [4] }
    let s := { base with groups := [(0, fetchGroup), (1, other), (2, { other with cores := [0] })] }
    let g := s.trapNow 0 (.trap fa) ⟨cSoftTrap, 0, 0⟩
    let h := s.trapNow 0 (.trap fa) ⟨cUncorrectable, 0, 0⟩
    (s.strand 0).grp = some 0 ∧ (s.strand 0).task = none ∧ (s.group 0).isSome = true ∧ (s.group 0).all (fun g => g.fail.isNone) = true ∧ cSoftTrap ≠ cUncorrectable ∧
    (g.group 0).any (fun g => g.fail.any (·.code == cSoftTrap)) = true ∧ (g.group 1).any (fun g => g.fail.isNone) = true ∧ g.eligible 0 = false ∧
    (h.group 0).any (fun g => g.fail.any (·.code == cUncorrectable)) = true ∧ (h.group 1).any (fun g => g.fail.isNone) = true ∧
    (h.group 2).any (fun g => g.fail.any (fun r => r.code == cContained && r.flags == 1)) = true := by decide +kernel
/-- Task 1 is the oldest; task 2 runs on strand 0. -/
def task (q : Nat) : Task :=
  { seq := q, ts := BitVec.ofNat 64 q, slot := 0, gen := 0, entry := 0, arg0 := 0, arg1 := 0, parent := none, st := .running, pool := none,
    strand := none, gid := some 0, ran := none, nonspec := false, deferred := [], fault := none }
def tasks (l : List Task) (q : Nat) : State :=
  (base.mapDie 0 fun x => { x with tasks := l, nextSeq := 9 }).mapStrand 0 fun x => { x with task := some q }
theorem test_task_fault : let k := { task 2 with strand := some 0 }
    let s := tasks [task 1, k] 2
    let t := s.trapNow 0 (.trap fa) ⟨cSoftTrap, 0, 0⟩
    (s.strand 0).task = some 2 ∧ (s.die 0).task 2 = some k ∧ (s.die 0).oldest 0 = some (task 1) ∧ (task 1).st ≠ .faulted ∧
    ((t.die 0).task 2).any (fun k => k.st == .faulted && k.fault.any (·.code == cSoftTrap)) = true ∧ (t.strand 0).st = .taskwait := by decide +kernel
/-- A step that stores keeps the form. -/
theorem test_memory_form : let s := (withS sliceData [(1, 0x40), (3, 0x1122)]).withFetchWord 64 0xA100030100720000
    Memory.wf s = true ∧ Memory.wf State.reset = true ∧ ran (step s) (fun t => Memory.wf t && t.flight.length == 1) = true := by decide +kernel
theorem test_constant_registers : (Strand.init.setS 0 63 5).s 0 63 = 5 ∧ (Strand.init.setS 0 63 5).s 64 63 = 0 ∧ (Strand.init.setP 0 7 5).p 0 7 = 5 := by
  decide +kernel

/-! ### The vector unit -/

/-- An entry of strand 0 with mask of ones and scalar 100, alone in the vector queue; v4, v5, v9 hold the given values. -/
def ent (i : Instr) : Ent :=
  { strand := 0, gid := 0, slot := 0, gen := 0, ins := i, pc := 0, a := 100, b := 0, mask := BitVec.allOnes 64, rm := 0, task := none, acc := 0,
    tok := false, lat := 0, started := none, poison := false, srcBad := false, num := 0 }
def withV (s : State) (l : List (Nat × Nat)) : State :=
  s.mapCore 0 fun x => { x with vregs := l.foldl (fun t y => Tbl.put zVReg t y.1 (Tagged.whole 0 (BitVec.ofNat 2048 y.2))) x.vregs }
def ints : List (Nat × Nat) := [(4, 11 * 2 ^ 96 + 7 * 2 ^ 32 + 6), (5, 2 * 2 ^ 32 + 3), (9, 1)]
def flts : List (Nat × Nat) := [(4, 0x40000000), (5, 0x3F800000)]
def inVq (l : List (Nat × Nat)) (e : Ent) : State := (withV base l).mapCore 0 fun x => { x with vq := [e] }
def vran (s : State) (p : State → Bool) : Bool := ran (exec (.vectorEntryStart 0) s) fun t => ran (exec (.vectorEntryComplete 0) t) p
/-- Element 0 of v9 after the entry. -/
def lane0 (l : List (Nat × Nat)) (w : Nat) (i : Instr) : Nat → Bool := fun v =>
  vran (inVq l (ent i)) fun u => elem w (u.vregOf (ent i) 9) 0 == v && (u.core 0).vq.isEmpty
def intCases : List (Nat × Instr × Nat) :=
  [(0x40, .vadd fv, 9), (0x41, .vsub fv, 3), (0x42, .vmul fv, 18), (0x45, .vmin fv, 3), (0x46, .vmax fv, 6), (0x47, .vabs fv, 6),
   (0x48, .vneg fv, 2 ^ 32 - 6), (0x51, .vshl fv, 48), (0x52, .vshr fv, 0), (0x53, .vsar fv, 0), (0x5B, .vclmul { fv with ty := 5 }, 10),
   (0x5C, .vpopc fv, 2), (0x66, .viota fv, 100), (0x68, .vmulh fv, 0)]
def moveCases : List (Nat × Instr × Nat) :=
  [(0x4E, .vand fv, 2), (0x4F, .vor fv, 7), (0x50, .vxor fv, 5), (0x5D, .vmov fv, 6), (0x58, .vbcast fv, 100), (0x57, .vperm fv, 11),
   (0x5F, .vinsr { fv with vb := 0 }, 100), (0x55, .vsel fv, 6), (0x5E, .vextr { fv with bc := .reg 3 }, 1)]
def f32 : FV := { fv with ty := 10 }
def floatCases : List (Nat × Instr × Nat) :=
  [(0x40, .vadd f32, 0x40400000), (0x41, .vsub f32, 0x3F800000), (0x42, .vmul f32, 0x40000000), (0x43, .vfma f32, 0x40000000),
   (0x44, .vfms f32, 0x40000000), (0x45, .vmin f32, 0x3F800000), (0x46, .vmax f32, 0x40000000), (0x47, .vabs f32, 0x40000000),
   (0x48, .vneg f32, 0xC0000000), (0x49, .vrcp f32, 0x3F000000), (0x4A, .vrsq f32, 0x3F3504F3), (0x4B, .vsqrt f32, 0x3FB504F3),
   (0x4C, .vexp2 f32, 0x40800000), (0x4D, .vlog2 f32, 0x3F800000), (0x69, .vround f32, 0x40000000), (0x6A, .vclass f32, 6)]
def reductionCases : List (Nat × Instr × Nat) :=
  [(0x54, .vcmp { fv with vd := 1, vc := 0x10 }, 1), (0x56, .vcvt { fv with vb := 2 }, 6), (0x59, .vreduce fv, 24), (0x5A, .vscan fv, 6),
   (0x67, .vdot { fv with ty := 0 }, 19)]
def fvOf (i : Instr) : FV := match i.form with | .v _ f => f | _ => fv
def soundCase (l : List (Nat × Nat)) (x : Nat × Instr × Nat) : Prop :=
  x.2.1.form = .v x.1 (fvOf x.2.1) ∧ aloneVec (inVq l (ent x.2.1)) 0 (ent x.2.1) ∧ vecSound (inVq l (ent x.2.1)) x.1 (fvOf x.2.1) (ent x.2.1)
/-- Each entry is alone in the queue, its checks pass and no source is poisoned. -/
theorem test_integer_vectors_sound : ∀ x ∈ intCases ++ moveCases ++ reductionCases, soundCase ints x := by
  unfold soundCase aloneVec vecSound; decide +kernel
theorem test_float_vectors_sound : ∀ x ∈ floatCases, soundCase flts x := by unfold soundCase aloneVec vecSound; decide +kernel
theorem test_integer_vectors : intCases.all (fun x => lane0 ints 32 x.2.1 x.2.2) = true := by decide +kernel
theorem test_move_vectors : moveCases.all (fun x => lane0 ints 32 x.2.1 x.2.2) = true := by decide +kernel
theorem test_float_vectors : floatCases.all (fun x => lane0 flts 32 x.2.1 x.2.2) = true := by decide +kernel
theorem test_vector_reductions : reductionCases.all (fun x => lane0 ints 32 x.2.1 x.2.2) = true := by decide +kernel
/-- VADD of integers, VCMP and VEXTR, VLD of the heap, and what holds them back. -/
theorem test_vectors_issue : let i : Instr := .vadd fv
    let f : FV := { fv with vc := 0x22, bc := .reg 1 }
    let s := withS base [(1, 0x100)]
    let q := s.mapCore 0 fun x => { x with vq := List.replicate 16 (ent i) }
    let u := withS (tasks [task 1] 1) [(1, 0x100)]
    let g : FV := { f with vc := 0x20 }
    i.form = .v 0x40 fv ∧ s.sound fv.pr (vecIn i fv) (vecOut i fv) = true ∧ s.drainPending 0 (vReads 0x40 fv ++ vWrites 0x40 fv) = false ∧
    (s.core 0).vq = [] ∧ ran (exec i s) (fun t => (t.core 0).vq.map (·.ins) == [i] && pcOf t == 8) = true ∧
    ran (exec (.vextr { fv with bc := .reg 3 }) s) (fun t => (t.strand 0).pend == [3]) = true ∧
    s.sound f.pr (opdRegs [f.bc]) [] = true ∧ s.drainPending 0 (vReads 0x60 f ++ vWrites 0x60 f) = false ∧ s.inTask 0 = false ∧
    ran (exec (.vld f) s) (fun t => t.flight.map (·.why) == [.vec false] && (t.core 0).vq.map (·.acc) == t.flight.map (·.id)) = true ∧
    ran (exec (.vld { f with pr := ⟨0, true⟩ }) s) (fun t => t.flight == [] && (t.core 0).vq.map (·.acc) == [0]) = true ∧
    u.inTask 0 = true ∧ u.sound g.pr (opdRegs [g.bc]) [] = true ∧ ran (exec (.vst g) u) (trapped cSpecIllegal) = true ∧
    16 ≤ (q.core 0).vq.length ∧ q.sound fv.pr (vecIn i fv) (vecOut i fv) = true ∧ ran (exec i q) (fun t => (t.strand 0).st == .blocked) = true := by
  decide +kernel
/-- One 32-bit element of the heap at 0x100, loaded and stored: the entry starts, its element performs, the entry ends. -/
theorem test_vector_memory : let f : FV := { fv with vc := 0x22, bc := .reg 1 }
    let e (i : Instr) : Ent := { ent i with a := 0x100, mask := 1, acc := 7 }
    let a (st : Bool) : Acc := { acc7 with why := .vec st, src := .hbm 0x100, dst := .hbm 0x100, data := [], n := 4, rsegs := if st then [] else [(.hbm 0x100, 4)], wsegs := if st then [(.hbm 0x100, 4)] else [] }
    let s (i : Instr) (st : Bool) : State :=
      { inVq ints (e i) with flight := [a st], nextId := 8, hbm := base.hbm.write false 0 (cellsAt 0x100 [1, 2, 3, 4]) }
    let l := s (.vld f) false
    let t := s (.vst f) true
    let whole (s : State) (p : State → Bool) : Bool :=
      ran (exec (.vectorEntryStart 0) s) fun t => t.flight.map (fun y => (y.id, y.ord)) == [(8, 7)] && (t.core 0).vq.map (·.started.map List.length) == [some 1] &&
        ran (exec (.memoryAccessArrival 8) t) fun u => ran (exec (.vectorEntryComplete 0) u) p
    lanes (e (.vld f)).mask 32 = [0] ∧ l.accOf 7 = some (a false) ∧ (a false).done = false ∧ (a false).core = 0 ∧ bits f.vc.toNat 0 4 = 2 ∧
    l.resolve 0 false 2 0x100 4 = .ok ⟨.hbm 0x100, 2⟩ ∧ t.resolve 0 true 2 0x100 4 = .ok ⟨.hbm 0x100, 2⟩ ∧
    l.vecCheck 0x60 0 f = .ok () ∧ t.vecCheck 0x61 0 f = .ok () ∧
    whole l (fun u => elem 32 (u.vregOf (e (.vld f)) 9) 0 == 0x04030201 && u.flight == [] && (u.core 0).vq == []) = true ∧
    whole t (fun u => u.hbm.byte false 0 0x100 == 1 && u.hbm.byte false 0 0x101 == 0 && u.flight == [] && (u.core 0).vq == []) = true := by decide +kernel
/-- An element of a load that has performed, and the end of its entry; a store's element performs. -/
theorem test_vector_elements : let f : FV := { fv with vc := 0x22, bc := .reg 1 }
    let ws : List Wr := [.load (base.vregIx 0 9) 0 32 (.hbm 0x100)]
    let e : Ent := { ent (.vld f) with a := 0x100, mask := 1, acc := 7, started := some ws }
    let y : Acc := { acc7 with id := 8, ord := 7, why := .vld 7 (base.vregIx 0 9) 0 32, src := .hbm 0x100, dst := .none, data := [1, 2, 3, 4], n := 4, wsegs := [], done := true }
    let z : Acc := { acc7 with id := 8, ord := 7, why := .vst, data := [1, 2, 3, 4], n := 4, wsegs := [(.hbm 0x100, 4)] }
    let s : State := { inVq ints e with flight := [y], nextId := 9 }
    let u : State := { inVq ints e with flight := [{ y with done := false, data := [], rsegs := [(.hbm 0x100, 4)] }], nextId := 9 }
    let w : State := { inVq ints { e with ins := .vst f, started := some [.store (.hbm 0x100) [1, 2, 3, 4]] } with flight := [z], nextId := 9 }
    s.accOf 7 = none ∧ s.vecAccs e = [y] ∧ y.dst.onCore 0 = false ∧ (s.vecAccs e).filterMap Acc.lane = [(32 * 0, 32, [1, 2, 3, 4])] ∧
    ran (exec (.vectorEntryComplete 0) s) (fun u => elem 32 (u.vregOf e 9) 0 == 0x04030201 && (u.core 0).vq == []) = true ∧
    u.accOf 8 = some { y with done := false, data := [], rsegs := [(.hbm 0x100, 4)] } ∧ u.mayPerform { y with done := false, data := [], rsegs := [(.hbm 0x100, 4)] } = true ∧
    ran (exec (.vectorEntryComplete 0) u) (fun t => (t.core 0).vq == (u.core 0).vq) = true ∧
    ran (exec (.memoryAccessArrival 8) u) (fun t => t.flight.map (·.done) == [true]) = true ∧
    w.accOf 8 = some z ∧ w.mayPerform z = true ∧ w.coreOk 0 0 0 [] true z.dst 3 = true ∧
    ran (exec (.memoryAccessArrival 8) w) (fun t => t.hbm.byte false 0 0x103 == 4 && t.flight == [] &&
      ran (exec (.vectorEntryComplete 0) t) fun u => (u.core 0).vq == []) = true := by decide +kernel
theorem test_vector_checks : let e := ent (.vadd { fv with ty := 14 })
    let b := (inVq ints (ent (.vadd fv))).mapCore 0 fun x => { x with vregs := [(4, ⟨0, 0, true⟩)] }
    let k := inVq ints { ent (.vadd fv) with srcBad := true }
    k.vecCheck 0x40 0 fv = .ok () ∧ ran (exec (.vectorEntryStart 0) k) (trapped cUncorrectable) = true ∧
    vTypeOk 0x40 14 = false ∧ e.acc = 0 ∧ e.ins.form = .v 0x40 { fv with ty := 14 } ∧ ran (exec (.vectorEntryStart 0) (inVq ints e)) (trapped cOperand) = true ∧
    b.vecCheck 0x40 0 fv = .ok () ∧ b.vregBad (ent (.vadd fv)) 4 = true ∧ ran (exec (.vectorEntryStart 0) b) (trapped cUncorrectable) = true := by
  decide +kernel
/-- 3 and a third in binary32: exact, and rounded down in magnitude. -/
theorem test_rounding : fmt32 ∈ [fmt64, fmt32] ∧ fmt32.round 0 false false 3 0 = (0x40400000, 0) ∧
    (fmt32.round 1 false false (2 ^ 30 + 1) (-32)).1 = 0x3E800000 ∧ (fmt32.round 1 false false (2 ^ 30 + 1) (-32)).2.testBit 2 = false ∧
    (fmt32.round 1 false false (2 ^ 30 + 1) (-32)).2.testBit 4 = true := by decide +kernel

/-! ### Pegs, bobbins, waits -/

def withPeg (s : State) (x : Peg) : State := s.mapCore 0 fun c => { c with pegs := Tbl.put zPeg c.pegs 2 (Tagged.whole 0 x) }
def withBob (s : State) (x : Bob) : State := s.mapCore 0 fun c => { c with bobs := Tbl.put zBob c.bobs 2 (Tagged.whole 0 x) }
def pegOf (t : State) : Peg := (t.core 0).peg 0 2
def bobOf (t : State) : Bob := (t.core 0).bob 0 2
def waits (k : Nat) (t : State) : Bool := (t.core 0).waiters.map (·.kind) == [k] && (t.strand 0).stall == 1 && pcOf t == 0
def ended (v : Nat) (t : State) : Bool := (t.core 0).waiters.isEmpty && (t.strand 0).stall == 0 && pcOf t == 8 && sc t 3 == v
theorem test_pegs : let s := withS (withPeg base ⟨5, 2, 0⟩) [(1, 3)]
    let e := withS (withPeg base ⟨5, 2, 0⟩) [(1, 4)]
    let l := withS (withPeg base ⟨5, 2, 0x31⟩) [(1, 3)]
    let g := withS base [(1, 2 ^ 32)]
    let c := withS base [(1, 0x12)]
    s.inTask 0 = false ∧ s.pegOk 0 2 = true ∧ s.objPoison 0 false 2 = false ∧ s.released 0 = true ∧ s.acquires 0 = true ∧ (s.core 0).waiters = [] ∧
    s.ready fy.pr (opdRegs [fy.a]) [] = true ∧ s.ready fy.pr (opdRegs [fy.a, fy.b]) [fy.d.dest] = true ∧ s.ready fy.pr [] [fy.d.dest] = true ∧
    counted (s.val fy.a) = 3 ∧ ran (exec (.pegPost fy) s) (fun t => pegOf t == ⟨8, 2, 0⟩ && pcOf t == 8) = true ∧
    2 ^ 32 ≤ counted (g.val fy.a) ∧ ran (exec (.pegPost fy) g) (trapped cOperand) = true ∧
    latchCode (c.val fy.a) = true ∧ ran (exec (.pegErr fy) c) (fun t => pegOf t == ⟨0, 0, 0x12⟩) = true ∧
    latchCode 0 = false ∧ ran (exec (.pegErr { fy with a := .imm 0 }) c) (trapped cOperand) = true ∧
    ran (exec (.pegWait fy) s) (ended 0) = true ∧ ran (exec (.pegTake fy) s) (fun t => ended 0 t && pegOf t == ⟨5, 5, 0⟩) = true ∧
    ran (exec (.pegTake fy) l) (fun t => ended 0x31 t && pegOf t == ⟨5, 2, 0x31⟩) = true ∧ ran (exec (.pegWait fy) e) (waits 0) = true ∧
    ran (exec (.pegTake fy) e) (waits 1) = true ∧ ran (exec (.pegRd { fy with m := 3 }) s) (fun t => sc t 3 == 3) = true := by decide +kernel
/-- Strand 1 waits for two tokens more than there are; strand 0 posts them, or latches a code. -/
theorem test_posts_release : let w (k : Nat) : Waiter := ⟨some 1, false, 2, k, 3, 4, 8, 0, none⟩
    let s (k : Nat) := ((withS (withPeg base ⟨5, 4, 0⟩) [(1, 2), (2, 0x12)]).mapStrand 1 fun x => { x with st := .running, stall := 1 }).mapCore 0 fun x => { x with waiters := [w k] }
    (s 1).inTask 0 = false ∧ (s 1).pegOk 0 2 = true ∧ (s 1).objPoison 0 false 2 = false ∧ (s 1).ready fy.pr (opdRegs [fy.a]) [] = true ∧
    (s 1).released 0 = true ∧ (s 1).expired (w 1).deadline = false ∧ (s 1).tagOfStrand 0 = (w 1).tag ∧
    ran (exec (.pegPost fy) (s 1)) (fun t => (t.core 0).waiters == [] && (t.getPc 1).toNat == 8 && pegOf t == ⟨7, 7, 0⟩) = true ∧
    ran (exec (.pegPost fy) (s 0)) (fun t => (t.core 0).waiters == [] && pegOf t == ⟨7, 4, 0⟩) = true ∧
    ran (exec (.pegErr { fy with a := .reg 2 }) (s 1)) (fun t => (t.strand 1).s 0 4 == 0x12 && (t.strand 1).stall == 0) = true := by decide +kernel
def geom : Nat := 0x100 + 2 * 2 ^ 24 + 4 * 2 ^ 40
theorem test_bobbins : let o : Bob := ⟨0x100, 2, 4, 6, 5, 3, 0⟩
    let s := withS (withBob base o) [(1, 1)]
    let m := withS (withBob base o) [(1, 2)]
    let h := withS (withBob base o) [(1, 3)]
    let l := withS (withBob base { o with latch := 0x31 }) [(1, 1)]
    let g := withS (withBob base ⟨0, 0, 0, 0, 0, 0, 0⟩) [(1, geom)]
    let z := withS (withBob base ⟨0, 0, 0, 0, 0, 0, 0⟩) [(1, 0)]
    s.inTask 0 = false ∧ s.bobOk 0 2 = true ∧ s.objPoison 0 true 2 = false ∧ s.released 0 = true ∧ s.acquires 0 = true ∧ (s.core 0).waiters = [] ∧
    s.ready fy.pr (opdRegs [fy.a]) [] = true ∧ s.ready fy.pr (opdRegs [fy.a, fy.b]) [fy.d.dest] = true ∧
    geomOk (g.spadOf 0) 0x100 2 4 = true ∧ ran (exec (.bbSet fy) g) (fun t => bobOf t == ⟨0x100, 2, 4, 0, 0, 0, 0⟩) = true ∧
    geomOk (z.spadOf 0) 0 0 0 = false ∧ ran (exec (.bbSet fy) z) (trapped cOperand) = true ∧
    ran (exec (.bbFill fy) s) (fun t => (bobOf t).filled == 6) = true ∧ ran (exec (.bbFree fy) m) (fun t => (bobOf t).freed == 5) = true ∧
    ran (exec (.bbFill fy) m) (trapped cOperand) = true ∧ ran (exec (.bbFree fy) h) (trapped cOperand) = true ∧
    ran (exec (.bbClaim fy) s) (fun t => ended 0x200 t && (bobOf t).claimed == 7) = true ∧ ran (exec (.bbClaim fy) m) (waits 2) = true ∧
    ran (exec (.bbTake fy) m) (ended 0x280) = true ∧ ran (exec (.bbTake fy) h) (waits 3) = true ∧ ran (exec (.bbTake fy) l) (ended (2 ^ 63 + 0x31)) = true ∧
    ran (exec (.bbTakeAt fy) (withS s [(1, 4)])) (ended 0x100) = true ∧ ran (exec (.bbTakeAt fy) (withS s [(1, 5)])) (waits 4) = true ∧
    ran (exec (.bbWaitf fy) (withS s [(1, 5)])) (ended 0) = true ∧ ran (exec (.bbWaitf fy) (withS s [(1, 6)])) (waits 5) = true ∧
    ran (exec (.bbWaite fy) l) (ended 0x31) = true ∧ ran (exec (.bbWaite fy) (withS s [(1, 4)])) (waits 6) = true ∧
    s.ready fy.pr [] [fy.d.dest] = true ∧ ran (exec (.bbRd { fy with m := 4 }) g) (fun t => sc t 3 == 0) = true := by decide +kernel
theorem test_objects_trap : let i : Instr := .bbRd fy
    let s := tasks [task 1] 1
    let n := { base with groups := [(0, { fetchGroup with pkt := 0 })] }
    i.form = .y 0xCF fy ∧ s.ready fy.pr (opdRegs [fy.a, fy.b]) [fy.d.dest] = true ∧ s.inTask 0 = true ∧ ran (exec i s) (trapped cSpecIllegal) = true ∧
    n.inTask 0 = false ∧ n.bobOk 0 2 = false ∧ n.pegOk 0 2 = false ∧ ran (exec i n) (trapped cOperand) = true := by decide +kernel
theorem test_waits_expire : let w : Waiter := ⟨some 0, true, 2, 3, 1, 3, 8, 0, some 9⟩
    let s (k : Nat) := { base.mapCore 0 fun x => { x with waiters := [w] } with cycle := k }
    let y : SyncWait := ⟨0, 0, 0, 1, 8, .sram 1 8, 5, 3, some 9⟩
    let u := { (base.mapDie 1 fun x => { x with syncWaits := [y] }).mapStrand 0 fun x => { x with swait := true, pend := [3] } with cycle := 9 }
    let v (k : Nat) := { base.mapStrand 0 fun x => { x with yieldUntil := 9 } with cycle := k }
    ((s 9).core 0).waiters = [w] ∧ ((s 9).die 0).syncWaits = [] ∧ ran (exec (.waitTimeout 0) (s 9)) (ended (2 ^ 63 + 0x32)) = true ∧
    ran (exec (.waitTimeout 0) (s 8)) (fun t => (t.core 0).waiters == [w]) = true ∧ (u.die 1).syncWaits = [y] ∧ (u.die 0).syncWaits = [] ∧
    (u.core 0).waiters = [] ∧ ran (exec (.waitTimeout 0) u) (fun t => sc t 3 == 0x32 && !(t.strand 0).swait && (t.strand 0).pend == []) = true ∧
    ran (exec (.yieldExpiry 0) (v 9)) (fun t => (t.strand 0).yieldUntil == 0) = true ∧
    ran (exec (.yieldExpiry 0) (v 8)) (fun t => (t.strand 0).yieldUntil == 9) = true := by decide +kernel

/-! ### The matrix engine and tiles -/

/-- Plain rows 32 bytes apart at an offset, or further apart. -/
def desc (off rp : Nat) : Nat := off + rp * 2 ^ 24
/-- A record of width 2 whose exponent is 127 and whose field 1 is 3: value −1 times 2^0 + 2^-1 ... (R140). -/
def rec2 : TRec := TRec.make 2 127 4 0 (0 :: 7 :: List.replicate 254 0)
/-- Template 3: I8 by I8 to I32, one tile; bank 0: ACC.X, anchor 40, element (0, 1) 5; rows of A at 0x1000, of B at 0x2000, a record at 0x3000
and its packed tile at 0x3400. -/
def tensors : State :=
  let b : Bank := ⟨[(1, 5)], 40, true, false, false⟩
  let s := base.mapCore 0 fun x => { x with
    banks := [(0, ⟨b, 0, false⟩)], tplA := [(3, ⟨BitVec.ofNat 256 (6 + 6 * 2 ^ 4 + 7 * 2 ^ 8 + 2 ^ 18), 0, false⟩)] }
  { s with ground := ((((s.ground.write false 0 (cellsAt 0x1000 [2, 3])).write false 0 (cellsAt 0x2000 [5])).write false 0 (cellsAt 0x2020 [0xFF])).write false 0
      (cellsAt 0x3000 (rec2.toBytes 2))).write false 0 (cellsAt 0x3400 (packRec 2 rec2).1) }
def ment (i : Instr) (a b : Nat) : Ent := { ent i with a := BitVec.ofNat 64 a, b := BitVec.ofNat 64 b, tok := true }
def mat (i : Instr) (a b : Nat) : State := tensors.mapCore 0 fun x => { x with mq := [ment i a b] }
def started (s : State) : Bool := ran (exec (.matrixEntryStart 0) s) fun t => ((t.core 0).mq.headD (ment .sweepPassEnd 0 0)).started.isSome
def mran (s : State) (p : State → Bool) : Bool := ran (exec (.matrixEntryStart 0) s) fun t => ran (exec (.matrixEntryComplete 0) t) p
def bank (t : State) : Bank := t.bankOf (ment .sweepPassEnd 0 0) 0
def plane (t : State) (k : Nat) (b : Bool) : Nat := t.tplPlane (ment .sweepPassEnd 0 0) k b
def fxOf (i : Instr) : FX := match i.form with | .x _ f => f | _ => fx
def matCases : List (Instr × Nat × Nat) :=
  let f := fx
  [(.mmaz f, desc 0x1000 1, desc 0x2000 1), (.mzero f, 0, 0), (.mhad f, 0, 0), (.mscale f, 0, 3), (.mscaleRebase f, 0, 38),
   (.mstat { f with m := 1 }, 0, 0), (.mdrain f, desc 0x4000 2, 0), (.mdrainv f, 8, 0), (.mstacc f, desc 0x4000 8, 0), (.mldacc f, desc 0x4000 8, 0x10028),
   (.mtplLd f, 0x1000, 0), (.mtplSwap f, 0, 0), (.mtplSwap { f with m := 1 }, 0, 0), (.mtplRd f, 0, 0), (.mtplDiff f, 0x1000, 0),
   (.tquant f, desc 0x4000 2, 0x5000), (.tdeq f, 0x3000, desc 0x4000 2), (.ttrn f, 0x3000, 0x5000), (.ttrn { f with m := 1 }, desc 0x1000 1, desc 0x4000 1),
   (.tcomp f, 0x3000, 1), (.tchk f, 0x3000, 0), (.tpack f, 0x3000, 0x5000), (.tunpk f, 0x3400, 0x5000)]
def matCase (x : Instr × Nat × Nat) : Prop := aloneMat (mat x.1 x.2.1 x.2.2) 0 (ment x.1 x.2.1 x.2.2) (fxOf x.1)
theorem test_matrix_entries_alone : ∀ x ∈ matCases, matCase x := by unfold matCase aloneMat; decide +kernel
theorem test_matrix_entries_start : matCases.all (fun x => started (mat x.1 x.2.1 x.2.2)) = true := by decide +kernel
theorem test_matrix_issue : let i : Instr := .mstacc fx
    let s := withS base [(1, 7)]
    let q := s.mapCore 0 fun x => { x with mq := List.replicate 32 (ment i 0 0) }
    let u := tasks [task 1] 1
    i.form = .x 0x87 fx ∧ s.ready fx.pr (matIn i fx) (matOut i fx) = true ∧ s.inTask 0 = false ∧
    ran (exec i s) (fun t => (t.core 0).mq.map (·.a) == [7] && (t.strand 0).pend == [2] && pcOf t == 8) = true ∧
    32 ≤ (q.core 0).mq.length ∧ q.ready fx.pr (matIn i fx) (matOut i fx) = true ∧ ran (exec i q) (fun t => (t.strand 0).st == .blocked) = true ∧
    u.inTask 0 = true ∧ ran (exec i u) (trapped cSpecIllegal) = true ∧ ran (exec (.mstat fx) u) (fun t => (t.core 0).mq.length == 1) = true := by
  decide +kernel
theorem test_matrix_queue : let f : FX := { fx with wait := 2, post := 2, inc := 3 }
    let e : Ent := { ment (.mzero f) 0 0 with tok := false }
    let s (p : Peg) := (withPeg base p).mapCore 0 fun x => { x with mq := [e] }
    let d := (withPeg base ⟨5, 4, 0⟩).mapCore 0 fun x => { x with mq := [{ e with tok := true, started := some [] }] }
    let l := base.mapCore 0 fun x => { x with mq := [{ e with tok := true, lat := 0x31 }] }
    let x := { base with groups := [(0, { fetchGroup with pkt := 0 })] }.mapCore 0 fun x => { x with mq := [e] }
    e.fx = some f ∧ (s ⟨5, 4, 0⟩).pegOk 0 2 = true ∧ (s ⟨5, 4, 0⟩).objBad 0 0 false 2 = false ∧
    ran (exec (.matrixEntryStart 0) (s ⟨5, 4, 0⟩)) (fun t => (t.core 0).mq.map (fun x => (x.tok, x.started.isSome)) == [(true, true)] && pegOf t == ⟨5, 5, 0⟩) = true ∧
    ran (exec (.matrixEntryStart 0) (s ⟨5, 5, 0⟩)) (fun t => (t.core 0).mq == [e] && (t.core 0).waiters.map (·.ix) == [2]) = true ∧
    ran (exec (.matrixEntryStart 0) (s ⟨5, 4, 0x31⟩)) (fun t => (t.core 0).mq == [] && pegOf t == ⟨5, 4, 0x31⟩ && trapped 0x31 t) = true ∧
    (s ⟨5, 4, 0⟩).matHeld e = false ∧ (s ⟨5, 4, 0⟩).drainHeld e = false ∧
    (let v := (mat (.mdrainv f) 8 0).mapCore 0 fun x => { x with vq := [ent (.vadd fv)] }
     v.drainHeld (ment (.mdrainv f) 8 0) = true ∧ ran (exec (.matrixEntryStart 0) v) (· == v) = true) ∧
    d.objBad 0 0 false 2 = false ∧ ran (exec (.matrixEntryComplete 0) d) (fun t => (t.core 0).mq == [] && pegOf t == ⟨8, 4, 0⟩) = true ∧
    ran (exec (.matrixEntryStart 0) l) (trapped 0x31) = true ∧ x.pegOk 0 2 = false ∧ ran (exec (.matrixEntryStart 0) x) (trapped cOperand) = true := by
  decide +kernel
theorem test_banks : (mat (.mzero fx) 0 0).accOk 0 0 = true ∧ (mat (.mzero fx) 0 0).bankBad (ment (.mzero fx) 0 0) 0 = false ∧
    mran (mat (.mzero fx) 0 0) (fun t => bank t == ⟨[], 0, false, false, false⟩) = true ∧
    mran (mat (.mstat { fx with m := 1 }) 0 0) (fun t => (t.strand 0).s 0 2 == 0x10028) = true ∧
    mran (mat (.mscale fx) 0 3) (fun t => (bank t).anchor == 43) = true ∧ ran (exec (.matrixEntryStart 0) (mat (.mscale fx) 0 32728)) (trapped cOperand) = true ∧
    mran (mat (.mscaleRebase fx) 0 38) (fun t => bank t == ⟨[(1, 20)], 38, true, false, false⟩) = true ∧
    mran (mat (.mhad fx) 0 0) (fun t => (bank t).anchor == 38 && (bank t).el 0 == 5 && (bank t).el 1 == 2 ^ 128 - 5) = true ∧
    (let z := { base with groups := [(0, { fetchGroup with pkt := 0 })] }.mapCore 0 fun x => { x with mq := [ment (.mhad fx) 0 0] }
     z.accOk 0 0 = false ∧ ran (exec (.matrixEntryStart 0) z) (trapped cOperand) = true) ∧
    (let z := (mat (.mhad fx) 0 0).mapCore 0 fun x => { x with banks := [(0, ⟨⟨[], BitVec.ofInt 16 (-32767), true, false, false⟩, 0, false⟩)] }
     ran (exec (.matrixEntryStart 0) z) (trapped cOperand) = true) ∧
    (let z := (mat (.mscaleRebase fx) 0 0).mapCore 0 fun x => { x with banks := [] }
     ran (exec (.matrixEntryStart 0) z) (trapped cOperand) = true) := by decide +kernel
/-- 2 × 5 + 3 × (−1) at (0, 0), onto the bank's elements. -/
theorem test_products : matCase (.mma fx, desc 0x1000 1, desc 0x2000 1) ∧ mran (mat (.mma fx) (desc 0x1000 1) (desc 0x2000 1)) (fun t => bank t == ⟨[(0, 7), (1, 5)], 40, true, false, false⟩) = true ∧
    fx.patch = none ∧ tplA (plane tensors 3 false) = 6 ∧ tplB (plane tensors 3 false) = 6 := by
  unfold matCase aloneMat; decide +kernel
/-- A plain destination at 0x4000 with rows as far apart as they are long: its addresses are distinct, and the tenancy may write them. -/
def dest (w : Nat) : Desc := ⟨0, 0, (w + 15) / 16, 0x4000⟩
theorem dest_nodup (w : Nat) : (tileAddrs (dest w) 0 w).Nodup := by
  have h (o i : Nat) : rotAddr 0 o i = o := by
    have z : skew 0 = 0 := rfl
    simp only [rotAddr, z, Nat.mul_zero]; omega
  simp only [tileAddrs, dest, h]
  refine List.nodup_flatMap.2 ⟨fun i _ => List.nodup_range.map fun a b h => by simpa using h, List.pairwise_lt_range.imp fun {a b} hab x hx hy => ?_⟩
  simp only [List.mem_map, List.mem_range] at hx hy
  obtain ⟨p, hp, rfl⟩ := hx
  obtain ⟨q, hq, e⟩ := hy
  have := Nat.mul_le_mul_left (32 * ((w + 15) / 16)) hab
  rw [Nat.mul_succ] at this
  omega
theorem test_destinations_open : [8, 32, 128].all (fun w => descOf (BitVec.ofNat 64 (desc 0x4000 ((w + 15) / 16))) == dest w &&
    (tileAddrs (dest w) 0 w).all fun a => tensors.allowedAt 0 0 (.ground (sliceAt 0 a)) a) = true := by decide +kernel
theorem test_bank_moves : tplO (plane tensors 3 false) = 7 ∧ bits (plane tensors 3 false) 32 16 = 0 ∧
    (List.range 256).all (fun n => (bank tensors).el n != 2 ^ 127) = true ∧
    mran (mat (.mdrainv fx) 8 0) (fun t => elem 32 (t.vregOf (ment .sweepPassEnd 0 0) 8) 1 == 5) = true := by decide +kernel
theorem test_templates : mran (mat (.mtplLd fx) 0x1000 0) (fun t => plane t 3 true == 0x302) = true ∧
    mran (mat (.mtplSwap fx) 0 0) (fun t => plane t 3 false == 0 && plane t 3 true == plane tensors 3 false) = true ∧
    mran (mat (.mtplSwap { fx with m := 1 }) 0 0) (fun t => plane t 3 true == plane tensors 3 false) = true ∧
    mran (mat (.mtplRd fx) 0 0) (fun t => (t.strand 0).s 0 2 == 0x40766) = true ∧
    mran (mat (.mtplDiff fx) 0x1000 0) (fun t => (t.strand 0).s 0 2 == 0x19 && plane t 3 true == 0) = true ∧
    (let v := plane tensors 3 false
     let s := { mat (.mtplDiff fx) 0x6000 0 with ground := tensors.ground.write false 0 (cellsAt 0x6000 (leBytes 32 0 ++ leBytes 4 (crc32c (leBytes 32 v)))) }
     mran s (fun t => (t.strand 0).s 0 2 == 0 && plane t 3 true == v) = true) := by decide +kernel
theorem test_tiles : mran (mat (.ttrn { fx with m := 1 }) (desc 0x1000 1) (desc 0x4000 1)) (fun t => t.ground.byte false 0 0x4020 == 3) = true ∧
    mran (mat (.tchk fx) 0x3000 0) (fun t => (t.strand 0).s 0 2 == 0x310000) = true ∧
    mran (mat (.tchk fx) 0x2000 0) (fun t => (t.strand 0).s 0 2 == 0x50218) = true ∧
    mran (mat (.tcomp fx) 0x3000 1) (fun t => t.ground.byte false 0 0x3001 == 128) = true ∧
    mran (mat (.tpack fx) 0x3000 0x5000) (fun t => ((t.strand 0).s 0 1).toNat % 16 == 2 && t.ground.byte false 0 0x500C == 1) = true := by decide +kernel
/-- The record of the tests: good, its fields in range; field (0, 1) is −3/2 · 2^(0) at column 1, of row exponent 1. -/
theorem test_records : rec2.fmt = sxCode 2 ∧ rec2.e < 256 ∧ rec2.rowx < 2 ^ 32 ∧ rec2.colx < 2 ^ 32 ∧ rec2.crc < 2 ^ 16 ∧ rec2.z1 = 0 ∧ rec2.z2 = 0 ∧
    rec2.pay < 2 ^ (8 * payBytes 2) ∧ rec2.bad 2 = 0 ∧ rec2.e ≠ 0 ∧ rec2.e ≠ 255 ∧ 1 ≤ (rec2.e : Int) + 127 ∧ (rec2.e : Int) + 127 ≤ 254 ∧
    TRec.ofBytes 2 (rec2.toBytes 2) = rec2 ∧ (rec2.transpose 2).bad 2 = 0 ∧ (rescale 2 rec2 127).1.e = 254 := by decide +kernel

/-! ### Copies, publishes, peers -/

/-- `CPY` of 128 bytes from HEAP 0x1000 to HEAP 0x2000, as it stands in the queue (R292, R395). -/
def cpWords : List W64 := [0x1000, 0x2000, 2 ^ 32 + 128, 0x22 + 2 ^ 8 + 16 * 2 ^ 9, 0, 0, 0, 0]
def cmd : Copy :=
  { seq := 0, strand := 0, gid := 0, slot := 0, gen := 0, ins := .cpy fc, pc := 0, stamp := 1, cs := cpWords, node := none, tok := true, lat := 0, accepted := false,
    boxes := 0, boxLo := 0, doneBoxes := [], count := 0, next := 0, open_ := [], code := 0, codeBox := 0, codeAddr := 0, sub := 0, ended := false, tileBad := none,
    tilePoison := false, dests := [], window := 0, bitmap := 0, cursor := 0, twinDst := none, al := 0, bound := false, sent := false, poison := false, quiet := false,
    hold := false, wrote := [], halves := [] }
def cp (l : List Copy) : State := { base with hbm := base.hbm.write false 0 (cellsAt 0x1000 [7, 8]) }.mapCore 0 fun x => { x with cq := l, cmdSeq := 1 }
def next? (o : Out) : State := match o with | .next t => t | _ => State.reset
def accepted : State := next? (exec (.copyAccept 0) (cp [cmd]))
def first (s : State) : Copy := (s.core 0).cq.headD cmd
def boxed : State := next? (exec (.copyBoxStart 0 0) accepted)
theorem test_copies_issue : let f : FC := fc
    let w : FC := { fc with wait := 2 }
    let s := withPeg base ⟨5, 4, 0⟩
    let e := withPeg base ⟨5, 5, 0⟩
    let u := tasks [task 1] 1
    let q := base.mapCore 0 fun x => { x with cq := List.replicate 64 cmd }
    let n := { base with groups := [(0, { fetchGroup with pkt := 0 })] }
    (Instr.cpy f).form = .c 0xA8 f ∧ s.ready f.pr ((List.range 8).map (f.spec.toNat + ·)) [] = true ∧ s.inTask 0 = false ∧
    ran (exec (.cpy f) s) (fun t => (t.core 0).cq.map (·.tok) == [true] && pcOf t == 8) = true ∧ s.pegOk 0 2 = true ∧ s.objPoison 0 false 2 = false ∧
    ran (exec (.cpy w) s) (fun t => (t.core 0).cq.map (·.tok) == [true] && pegOf t == ⟨5, 5, 0⟩ && pcOf t == 8 && (t.strand 0).stall == 0) = true ∧
    ran (exec (.cpy w) e) (fun t => (t.core 0).cq.map (·.tok) == [false] && pcOf t == 0 && (t.strand 0).stall == 4) = true ∧
    guest.slotOf 0 = 1 ∧ ran (exec (.cpy { f with raw := 1 }) guest) (trapped cPrivilege) = true ∧ u.inTask 0 = true ∧
    ran (exec (.cpy f) u) (trapped cSpecIllegal) = true ∧ n.pegOk 0 2 = false ∧ ran (exec (.cpy w) n) (trapped cOperand) = true ∧
    64 ≤ (q.core 0).cq.length ∧ ran (exec (.cpy f) q) (fun t => (t.strand 0).st == .blocked) = true := by decide +kernel
theorem test_copy_accept : let s := cp [cmd]
    let k : Copy := { cmd with cs := 0x10000 :: cpWords.tail }
    let b := cp [k]
    let l := cp [{ cmd with lat := 0x31 }]
    (s.core 0).cq.find? (fun k => !k.accepted && k.tok && !k.hold) = some cmd ∧ cmd.poison = false ∧ cmd.node = none ∧ (s.capture 0 cmd).op = 0xA8 ∧ (s.capture 0 cmd).raw = 0 ∧
    s.copyCheck 0 (s.capture 0 cmd) = .ok () ∧ (first accepted).accepted = true ∧ (first accepted).boxes = 1 ∧
    b.copyCheck 0 (b.capture 0 k) = trapOf cBound ∧ (first (next? (exec (.copyAccept 0) b))).code = cBound ∧
    ran (exec (.copyAccept 0) l) (fun t => (t.core 0).cq == [] && trapped 0x31 t) = true := by decide +kernel
theorem test_box_start : let s := accepted
    let k := first s
    let h := s.mapCore 0 fun x => { x with qpt := true }
    s.copyOf 0 0 = some k ∧ k.poison = false ∧ k.op = 0xA8 ∧ k.raw = 0 ∧ k.rot = 0 ∧ k.ssp = 2 ∧ k.dsp = 2 ∧ k.open_ = [] ∧ s.mayStart 0 k = true ∧ k.pieces = 2 ∧
    s.boundBad 0 0 0 (s.spadOfCopy k) 2 (k.piece 1).dst (k.piece 1).n = false ∧ s.flying (0, 0, 0, 1) = false ∧ s.translating (0, 0, 0, 1) 0 = false ∧
    s.onRecord (0, 0, 0, 1) = false ∧ boxed.flight.map (·.wsegs) = [[(.hbm 0x2000, 64)], [(.hbm 0x2040, 64)]] ∧ (first boxed).next = 1 ∧
    h.copyOf 0 0 = some k ∧ h.mayStart 0 k = false ∧ ran (exec (.copyBoxStart 0 0) h) (fun t => t.flight == []) = true := by decide +kernel
theorem test_copy_bytes : let s := boxed
    let a := s.flight.headD acc7
    s.accOf a.id = some a ∧ a.why = .piece 0 0 0 0 ∧ (s.pieceOf (0, 0, 0, 0)).isSome = true ∧ a.rsegs = [(.hbm 0x1000, 64)] ∧ a.wsegs = [(.hbm 0x2000, 64)] ∧
    a.n = 64 ∧ a.data = [] ∧ a.code = 0 ∧ s.pkg.peers = [] ∧ s.placeFrozen (.hbm 0x1000) = false ∧ s.coreBad 0 0 0 a.runc (.hbm 0x1000) 64 = false ∧ a.task = none ∧
    s.commitsAt (.hbm 0x1000) 64 = [] ∧ s.commitsAt (.hbm 0x2000) 64 = [] ∧ s.holders none 0x2000 = [] ∧
    (s.pieceOf (0, 0, 0, 0)).any (fun x => x.1.writeWaits (0, 0, 0, 0) x.2.2) = false ∧ (s.ctxOf 0).dirtyEn = false ∧ s.coreOk 0 0 0 a.wunc true (.hbm 0x2000) 63 = true ∧
    ran (exec (.memoryAccessArrival a.id) s) (fun t => ran (exec (.memoryAccessArrival a.id) t) fun u => u.hbm.byte false 0 0x2001 == 8 && u.flight.length == 1) = true := by
  decide +kernel
theorem test_copy_complete : let k : Copy := { first accepted with next := 1, ins := .cpy { fc with post := 2, inc := 1 } }
    let s := cp [k]
    let e := cp [{ k with ended := true, code := 0x15 }]
    s.copyOf 0 0 = some k ∧ k.accepted = true ∧ k.open_ = [] ∧ s.unbacked k = [] ∧ s.backing k = false ∧ k.boxes ≤ k.next ∧ k.quiet = false ∧ k.op = 0xA8 ∧ (s.core 0).waiters = [] ∧
    s.oldAtCore 0 0 0 = false ∧ s.objBad 0 0 false 2 = false ∧ k.sts = true ∧ k.soff = 0x100 ∧ s.spadOfCopy k = (0, 2 ^ 19 * 3) ∧
    s.cutAt 0 0 (.ground (sliceAt 0 0x100)) 15 = false ∧ ran (exec (.copyComplete 0 0) s) (fun t => (t.core 0).cq == [] && pegOf t == ⟨1, 0, 0⟩) = true ∧
    ran (exec (.copyComplete 0 0) e) (fun t => pegOf t == ⟨1, 0, 0x15⟩ && t.ground.byte false 0 0x100 == 0x15) = true := by decide +kernel
def pub : Publish := ⟨0, 0, 1, true, some (0, 3, 8), none, false, [], [], [], [], false⟩
def twinned (p : Publish) : State :=
  let x : Tagged Twin := ⟨⟨4, true, 1, 64, 0x100, 0x200⟩, 0, false⟩
  let s := [0, 1, 2, 3].foldl (fun s d => s.mapDie d fun y => { y with twins := [(1, x)] }) base
  (s.mapDie 1 fun y => { y with pubs := [p] }).mapStrand 0 fun y => { y with stall := 2 }
def twinOf (t : State) (d : Nat) : Twin := t.twin d 0 1 0
theorem test_publish : let a : Publish := { pub with started := true, prepared := [0, 1, 2, 3], acked := [0, 1, 2] }
    let c : Publish := { a with acked := [0, 1, 2, 3], committed := true, swapped := [1] }
    let f : Publish := { c with swapped := [0, 1, 2, 3], done := [0, 1, 2] }
    let l : Publish := { pub with pkg := false }
    let was (p : Publish) (q : Publish) (t : State) : Bool := (p.is 0 1) && (t.die 1).pubs == [q]
    (twinned pub).pubCheck pub = 0 ∧ (twinned a).pubStop { pub with started := true } 3 = 0 ∧ (twinned a).pubStop a 1 = 0 ∧ (twinned c).pubStop c 0 = 0 ∧
    (twinned l).pubStop { l with started := true } 0 = 0 ∧ ran (exec (.twinSwap 0 1 0) (twinned { l with started := true, swapped := [1] })) (fun t => twinOf t 0 == ⟨5, false, 1, 64, 0x200, 0x100⟩) = true ∧
    ran (exec (.publishPrepare 0 1 1) (twinned pub)) (fun t => was pub { pub with started := true, prepared := [1] } t && (t.die 1).holds == [1]) = true ∧
    ran (exec (.publishPrepare 0 1 3) (twinned { pub with started := true })) (fun t => (t.die 3).holds == [1]) = true ∧
    ran (exec (.prepareAck 0 1 2) (twinned { a with acked := [] })) (was pub { a with acked := [2] }) = true ∧
    ran (exec (.prepareAck 0 1 3) (twinned a)) (fun t => was pub c t && twinOf t 1 == ⟨5, false, 1, 64, 0x200, 0x100⟩ && (twinOf t 0).pend) = true ∧
    ran (exec (.publishCommit 0 1 0) (twinned c)) (fun t => twinOf t 0 == ⟨5, false, 1, 64, 0x200, 0x100⟩) = true ∧
    ran (exec (.commitAck 0 1 1) (twinned { f with done := [] })) (was pub { f with done := [1] }) = true ∧
    ran (exec (.commitAck 0 1 3) (twinned f)) (fun t => (t.die 1).pubs == [] && sc t 3 == 0x400 && pcOf t == 8 && (t.strand 0).stall == 0) = true ∧
    (twinned l).pubCheck l = 0 ∧ ran (exec (.twinSwap 0 1 1) (twinned l)) (fun t => twinOf t 1 == ⟨5, false, 1, 64, 0x200, 0x100⟩) = true := by decide +kernel
def shared : State := base.mapPkg fun p => { p with windows := [(0, ⟨9, 0, true, true, true, 1, 0⟩)], stations := [(5, ⟨0, 16, []⟩)] }
def leased : State := base.mapPkg fun p => { p with leases := [(0, { Lease.init with st := 2, ltag := 64, bdev := 9, bslot := 2, block := 0 })] }
theorem test_peer_requests : let ev (wr : Bool) : Instr := .peerRequestArrival 9 2 (.access 0x80 wr 8 0 none false) 0xAB 7 0
    shared.pkg.seen = [] ∧ shared.frozen (dieOfPa 0x80) = false ∧ shared.leaseFor 9 2 0x80 = none ∧ (shared.windowFor 9 0x80 8 true).map (·.owner) = some 0 ∧
    (shared.windowFor 9 0x80 8 false).isSome = true ∧ shared.isEviction 9 2 0x80 true = false ∧
    ran (exec (ev true) shared) (fun t => t.hbm.byte false 0 0x80 == 0xAB && t.sent == [.peerReply 9 7 0 []] && ran (exec (ev true) t) (· == t)) = true ∧
    (leased.leaseFor 9 2 0x80).map (fun l => (l.st, l.ltag)) = some (2, 64) ∧ ran (exec (ev true) leased) (fun t => t.hbm.byte true 64 0x80 == 0xAB) = true ∧
    ran (exec (ev false) leased) (fun t => t.sent == [.peerReply 9 7 0 (List.replicate 8 0)]) = true ∧ base.leaseFor 9 2 0x80 = none ∧
    base.windowFor 9 0x80 8 false = none ∧ ran (exec (ev false) base) (fun t => t.sent == [.peerReply 9 7 1 []]) = true := by decide +kernel
def req : PeerReq :=
  { id := 3, dev := 9, slot := 0, gen := 0, pa := 0x80, wr := false, n := 2, acc := some 1, cmd := none, wb := none, fences := [], poison := false, data := [], op := none, fetch := false, stale := false, station := 5, sentAt := 0,
    msg := .peerReq 9 0 0x80 false [] none false }
theorem test_peer_answers : let a := { boxed.flight.headD acc7 with rsegs := [(.peer 9 0x80, 64)], id := 1 }
    let s := { boxed.mapPkg fun p => { p with peers := [req] } with flight := [a] }
    let f := { base.mapPkg fun p => { p with peers := [{ req with acc := none, wb := some 77, fences := [0] }] } with cycle := linkTimeout }
    s.accOf 1 = some a ∧ a.why = .piece 0 0 0 0 ∧ (s.copyOf 0 0).isSome = true ∧ (first s).ended = false ∧
    ran (exec (.peerResponseArrival 3 0 0x201) s) (fun t => t.pkg.peers == [] && t.flight.map (·.data) == [[1, 2]]) = true ∧
    ran (exec (.peerResponseArrival 3 1 0) s) (fun t => t.flight == [] && (first t).code == cPagePerm) = true ∧
    ran (exec (.peerTimeout 3) { s with cycle := linkTimeout }) (fun t => t.flight == [] && (first t).code == cPeerLost) = true ∧
    a.wsegs ≠ [] ∧ req.wr = false ∧ req.wb = none ∧ req.cmd = none ∧ (s.pieceOf (0, 0, 0, 0)).isSome = true ∧
    ran (exec (.peerResponseArrival 3 3 0x201) s) (fun t => t.flight.map (fun a => (a.data, a.code)) == [([1, 2], cUncorrectable)]) = true ∧
    (let k : Copy := { first accepted with next := 1, wrote := [(77, 0x2000)] }
     let c := (f.mapCore 0 fun x => { x with cq := [k] })
     k.over = true ∧ c.copyOf 0 0 = some k ∧ k.ended = false ∧ ran (exec (.peerTimeout 3) c) (fun t => (first t).code == cPeerLost && (first t).codeAddr == 0x2000 && (first t).ended) = true ∧
     ran (exec (.peerResponseArrival 3 0 0) c) (fun t => t.pkg.peers == [] && first t == k) = true) ∧
    ran (exec (.peerTimeout 3) f) (fun t => (t.strand 0).peerLost && t.pkg.peers == []) = true ∧
    ran (exec (.peerTimeout 3) s) (fun t => t.pkg.peers == [req]) = true := by decide +kernel
def stationed (x : Station) : State := base.mapPkg fun p => { p with stations := [(5, x)], peers := [] }
theorem test_stations : ran (exec (.flitCheckFail 21) (stationed ⟨0, 16, [(1, 2), (3, 1)]⟩)) (fun t => t.station 5 == ⟨0, 16, [(1, 3), (3, 1)]⟩) = true ∧
    ran (exec (.flitCheckFail 21) (stationed ⟨0, 15, [(1, 3)]⟩)) (fun t => t.station 5 == ⟨1, 16, []⟩) = true ∧
    ran (exec (.flitCheckFail 21) (stationed ⟨0, 16, [(1, 3)]⟩)) (fun t => t.station 5 == ⟨2, 16, []⟩) = true ∧
    ran (exec (.retrainComplete 5) (stationed ⟨1, 2, []⟩)) (fun t => t.station 5 == ⟨0, 2, []⟩) = true ∧
    ran (exec (.bucketLeak 5) (stationed ⟨0, 2, []⟩)) (fun t => t.station 5 == ⟨0, 1, []⟩) = true ∧
    ran (exec (.stationUp 5 1025) (stationed Station.init)) (fun t => t.station 5 == ⟨0, 0, []⟩ && t.pkg.everUp && t.pkg.devNo == 1) = true ∧
    (stationed ⟨0, 2, []⟩).pkg.peers = [] ∧ (stationed ⟨0, 2, []⟩).upStations = [5] ∧
    ran (exec (.packetUndeliverable 5 9) (stationed ⟨0, 2, []⟩)) (fun t => t.upStations == [5] && !(t.reaches 9 5)) = true := by decide +kernel
/-- A station that alone is up and does not reach the peer carries nothing. -/
theorem station_for_one (s : State) (dev pa k : Nat) (h : s.upStations = [k]) (hk : s.reaches dev k = false) : s.stationFor dev pa = none := by
  simp [State.stationFor, h, Nat.mod_one, hk]
/-- Of two stations that are up the one that reaches the peer carries every packet, whatever the hash. -/
theorem station_for_two (s : State) (dev pa j k : Nat) (h : s.upStations = [j, k]) (hj : s.reaches dev j = false) (hk : s.reaches dev k = true) :
    s.stationFor dev pa = some k := by
  rcases Nat.mod_two_eq_zero_or_one (Config.stationHash dev (bits pa 6 7)) with e | e <;> simp [State.stationFor, h, e, hj, hk]
def routed (l : List (Nat × Station)) : State :=
  base.mapPkg fun p => { p with stations := l, peers := [{ req with acc := none }], routes := [(9, 0xFFDF)] }
theorem test_another_station : (routed [(5, ⟨0, 2, []⟩), (6, ⟨0, 0, []⟩)]).stationFor 9 0x80 = some 6 ∧ (routed [(5, ⟨0, 2, []⟩)]).stationFor 9 0x80 = none ∧
    (routed []).pkg.peers.map (fun r => (r.dev, r.station)) = [(9, 5)] :=
  ⟨station_for_two _ _ _ 5 6 (by decide +kernel) (by decide +kernel) (by decide +kernel), station_for_one _ _ _ 5 (by decide +kernel) (by decide +kernel), rfl⟩

/-! ### Translation, faults, the host's answers, invalidation -/

def dwords (l : List (Nat × Nat)) (s : State) : State :=
  { s with hbm := l.foldl (fun m x => m.write false 0 (cellsAt x.1 (leBytes 8 x.2))) s.hbm }
def va0 : Nat := 0x12345
/-- Tables of slot 0 at 0x10000 to 0x13000; the leaf of page 1 is readable and writable, A and D set, its frame 0x50000; page 2 is absent. -/
def mapped : State :=
  (dwords [(0x10000, 0x11001), (0x11000, 0x12001), (0x12000, 0x13001), (0x13008, 0x5030F)] base)|> fun s => (s.mapCtx 0 fun x => { x with s1Root := 0x10000 }).mapPkg fun p => { p with owner := [(0, 0)] }
def entries : List Nat := [0x10000, 0x11000, 0x12000, 0x13008]
theorem test_walk : bits va0 39 16 = 0 ∧ bits va0 30 9 = 0 ∧ bits va0 21 9 = 0 ∧ bits va0 16 5 = 1 ∧ (mapped.die 0).walkCache = [] ∧
    (mapped.ctxOf 0).s1Root.toNat = 0x10000 ∧ entries.all (fun a => mapped.ownerFor 0 (a / 0x80000000) == 0 && !((walkerSees mapped 0 a).bad false (tagOf 0 0) a 8)) = true ∧
    [(1, 0x10000, 0x11000), (2, 0x11000, 0x12000), (3, 0x12000, 0x13000)].all (fun x => let v := entryAt mapped 0 0 0 x.2.1
      bit v 0 && !(bit v 1) && bits v 2 6 == 0 && bits v 48 16 == 0 && bits v 8 40 * 256 == x.2.2 && x.2.2 % (if x.1 = 3 then 256 else 4096) == 0) = true ∧
    (let v := entryAt mapped 0 0 0 0x13008
     bit v 0 = true ∧ bit v 1 = true ∧ leafOk true 4 v = true ∧ lfMode v = 0 ∧ bit v 3 = true ∧ bit v 2 = true ∧ bit v 8 = true ∧ bit v 9 = true ∧
     lfFrame v = 0x50000 ∧ mapped.ownerFor 0 (lfFrame v / 0x80000000) < 64) ∧
    (match (mapped.walk 0 0 0 va0 true ⟨[], [], []⟩).1 with | .ok t => t.out va0 == 0x52345 && t.size == 16 | .error _ => false) = true := by decide +kernel
/-- The tables' entries stand in the die's walk cache. -/
def cachedEntries : List WalkEnt := [(0x10000, 0x11001), (0x11000, 0x12001), (0x12000, 0x13001), (0x13008, 0x5030F), (0x13010, 0)].map fun x => ⟨0, 0, x.1, BitVec.ofNat 64 x.2⟩
def walking (va : Nat) : State :=
  (mapped.mapCore 0 fun x => { x with cq := [first boxed] }).mapDie 0 fun x => { x with walkCache := cachedEntries, walks := [⟨0, 0, va, true, 0, [(0, 0, 0, 0)], false⟩], walkQ := [⟨0, 0, 0, false, 0, [], false⟩] }
theorem test_walk_ends : ((walking va0).die 0).walks[0]?.isSome = true ∧ (walking va0).flight = [] ∧
    ran (exec (.tableWalk 0 0) (walking va0)) (fun t => (t.die 0).l2.map (·.frame) == [0x50000] && (t.die 0).walks.map (·.wr) == [false]) = true ∧
    (match ((walking 0x20000).walk 0 0 0 0x20000 true ⟨[], [], []⟩).1 with | .ok _ => false | .error f => f.cause == wNotPresent) = true ∧
    ran (exec (.tableWalk 0 0) (walking 0x20000)) (fun t => (t.die 0).frecs.map (·.waiters) == [[(0, 0, 0, 0)]]) = true ∧
    (let q := (walking 0x20000).mapCopy 0 0 fun k => { k with quiet := true }
     (walking 0x20000).abandons (0, 0, 0, 0) = false ∧ q.abandons (0, 0, 0, 0) = true ∧ ran (exec (.tableWalk 0 0) q) (fun t => (t.die 0).frecs.all (·.waiters == [])) = true) := by decide +kernel
def frec : FRec :=
  { ix := 4, slot := 0, gen := 0, stage2 := false, hostRing := true, addr := 0x20000, cause := 1, wr := true, level := 4, core := 0, seq := 0, box := 0,
    waiters := [(0, 0, 0, 0)], written := false }
def responding (v : Nat) : State :=
  let s := { boxed with host := (cellsAt 0x900 (leBytes 8 v)).filter (·.2 != 0) }
  (s.mapDie 0 fun x => { x with frecs := [{ frec with written := true }] }).mapFn 0 fun f => { f with hResp := ⟨0x900, 6, 1, 0⟩ }
theorem test_fault_rings : let w := (base.mapDie 0 fun x => { x with frecs := [frec] }).mapFn 0 fun f => { f with hFault := ⟨0x800, 6, 64, 1⟩ }
    let n := (responding 4).mapFn 0 fun f => { f with hResp := ⟨0x900, 6, 0, 0⟩ }
    (w.die 0).frecs.find? (fun q => q.ix == 4 && !q.written) = some frec ∧ ((w.fn 0).faultRing true).on = true ∧
    (((w.fn 0).faultRing true).pi - ((w.fn 0).faultRing true).ci).toNat < 2 ^ 6 ∧
    ran (exec (.faultRecordWrite 0 4) w) (fun t => ((t.fn 0).faultRing true).pi == 65 && (t.die 0).frecs.map (·.written) == [true] &&
      Tbl.get 0 t.host 0x802 == 2) = true ∧
    n.nextResp 0 true = none ∧ ran (exec (.responseRingDoorbell 0 true 0) n) (fun t => ((t.fn 0).respRing true).ci == 0) = true ∧
    (responding 4).nextResp 0 true = some 4 ∧ (responding 4).respMeans 0 true 4 = some (false, 0, { frec with written := true }) ∧
    ran (exec (.faultResponseRetry 0 true) (responding 4)) (fun t => (t.die 0).frecs == [] && ((t.fn 0).respRing true).ci == 1) = true ∧
    (responding 5).respMeans 0 true 5 = none ∧ ran (exec (.faultResponseRetry 0 true) (responding 5)) (fun t => (t.fn 0).ignored == 1) = true ∧
    (responding 0x10004).respMeans 0 true 0x10004 = some (true, 0, { frec with written := true }) ∧ ((responding 0x10004).pieceOf (0, 0, 0, 0)).isSome = true ∧
    ran (exec (.faultResponseFail 0 true) (responding 0x10004)) (fun t => (first t).ended && (first t).code == cPageFault) = true := by decide +kernel
def asking (st : Nat) (pri : Bool) : State :=
  boxed.mapFn 0 fun f => { f with atsEn := true, priEn := pri, pageReqs := 1, atsWait := [⟨2 ^ 55 + 0x3000, 2 ^ 55 + 0x3456, true, st, [(0, 0, 0, 0)]⟩], atsInv := [(0x3000, [])] }
/-- What a page request waits for beside the allocation that the host sets (an open value). -/
theorem test_host_translations : let va : BitVec 64 := 2 ^ 55 + 0x3456
    let q := { asking 0 false with flight := [] }
    let z := asking 0 false
    let v := boxed.mapFn 0 fun f => { f with atsInv := [(0x3000, [(0, 0, 0)])] }
    let v := { v with flight := v.flight.map fun a => { a with rsegs := [(.host 0x9000, 64)] } }
    let h : Tlb := ⟨0, 0, 2 ^ 55 + 0x3000, 12, 0x9000, 0, 0, 0, true, false, false, true, true, true, 0, 0⟩
    let i := (asking 0 true).mapDie 2 fun x => { x with l2 := [h] }
    ((z.fn 0).atsWait.find? fun b => b.va == va.toNat / 4096 * 4096 && (b.st == 0 || b.st == 3)).isSome = true ∧ (z.copyOf 0 0).isSome = true ∧
    ran (exec (.atsTranslationCompletion 0 va 0x9000 12 true true) z) (fun t => (t.die 0).l2.map (·.frame) == [0x9000]) = true ∧
    (z.fn 0).priEn = false ∧ ran (exec (.atsTranslationCompletion 0 va 0x9000 12 true false) z) (fun t => (first t).code == cAtsFault) = true ∧
    ((asking 3 true).fn 0).priEn = true ∧ ran (exec (.atsTranslationCompletion 0 va 0x9000 12 true false) (asking 3 true)) (fun t => (first t).code == cAtsFault) = true ∧
    ((asking 0 true).fn 0).pageReqs = 1 ∧ ran (exec (.priPageResponse 0 va true) (asking 1 true)) (fun t => t.sent == [.ats 0 0 0x3456] && (t.fn 0).pageReqs == 0) = true ∧
    ran (exec (.priPageResponse 0 va false) (asking 1 true)) (fun t => (first t).code == cAtsFault) = true ∧
    ran (exec (.atsInvalidationRequest 0 va 12) i) (fun t => (t.die 2).l2 == [] && (t.fn 0).atsInv == [(0x3000, []), (0x3000, [])]) = true ∧
    (q.fn 0).atsInv = [(0x3000, [])] ∧ ran (exec (.atsInvalidationCompletion 0) q) (fun t => t.sent == [.atsInvDone 0]) = true ∧
    v.hostSent (0, 0, 0) = false ∧ ran (exec (.atsInvalidationCompletion 0) v) (fun t => t.sent == []) = true := by decide +kernel
theorem test_invalidations : let e : Tlb := ⟨0, 0, 0x10000, 16, 0x50000, 0, 0, 0, false, false, false, true, true, true, 0, 0⟩
    let x : Tlbi := ⟨0, 5, 0, 0x20000, false, [0], [], 0⟩
    let s := (base.mapDie 0 fun y => { y with l2 := [e] }).mapPkg fun p => { p with tlbis := [x] }
    let c (q : Bool) (f : List Nat) := (base.mapCore 0 fun y => { y with l1 := [e], l1Held := [0], qpt := q, forced := f }).mapPkg fun p => { p with tlbis := [{ x with dies := [], cores := [0] }] }
    let b := { c false [] with cores := (boxed.mapCore 0 fun y => { y with l1 := [e] }).cores, cycle := 300000 }
    (s.pkg.tlbis[0]?).isSome = true ∧ ran (exec (.tlbiL2Drop 0 0) s) (fun t => (t.die 0).l2 == [] && (t.ctxOf 0).tlbiDone == 5 && t.pkg.tlbis == []) = true ∧
    ((c true []).core 0).qpt = true ∧ (c true []).midBox 0 = false ∧ (s.die 0).walks = [] ∧
    ran (exec (.tlbiL2Drop 0 0) (s.mapDie 0 fun y => { y with walks := [⟨0, 0, 0x90000, false, 0, [], false⟩] })) (fun t => (t.die 0).walks.map (·.dropped) == [true]) = true ∧
    ran (exec (.tlbiCoreAcknowledge 0) (c true [0])) (fun t => (t.core 0).l1 == [] && (t.ctxOf 0).tlbiForced == 1 && !(t.core 0).qpt) = true ∧
    ran (exec (.tlbiCoreAcknowledge 0) (c false [])) (fun t => (t.core 0).l1 == [e]) = true ∧ ((c false []).ctxOf 0).tlbiWdog = 100 ∧
    ran (exec (.tlbiWatchdogExpiry 0 0) { c false [] with cycle := 299999 }) (fun t => (t.core 0).l1 == [e]) = true ∧
    ran (exec (.tlbiWatchdogExpiry 0 0) { c false [] with cycle := 300000 }) (fun t => (t.core 0).l1 == [] && (t.ctxOf 0).tlbiForced == 1) = true ∧
    b.midBox 0 = true ∧ ran (exec (.tlbiWatchdogExpiry 0 0) b) (fun t => (t.core 0).qpt && (t.core 0).forced == [0]) = true := by decide +kernel

/-! ### Ordered tasks, launches, groups, queues -/

def ft : FY := { fy with a := .imm 5, b := .imm 8, ix := 0 }
def readyTask (q t : Nat) : Task := { task q with ts := BitVec.ofNat 64 t, st := .ready }
theorem test_tspawn : let s := base
    let u := tasks [{ task 1 with nonspec := true, strand := some 0 }] 1
    let e : FY := { ft with a := .imm 0 }
    s.ready ft.pr (opdRegs [ft.a, ft.b]) [ft.d.dest] = true ∧ s.ready ft.pr (opdRegs [ft.a, ft.b] ++ [4, 5]) [ft.d.dest] = true ∧
    ran (exec (.tspawn { ft with b := .imm 6 }) s) (trapped cOperand) = true ∧ ((s.die 0).tasks.filter (·.st == .ready)).length < 4096 ∧
    ran (exec (.tspawn { ft with ix := 4 }) (withS s [(4, 7), (5, 9)])) (fun t => (t.die 0).tasks.map (fun x => (x.ts, x.entry, x.arg0, x.arg1)) == [(5, 8, 7, 9)]) = true ∧
    (u.taskOf 0).map (·.seq) = some 1 ∧ ran (exec (.tspawn ft) u) (fun t => (t.die 0).tasks.map (·.parent) == [none, some 1] && sc t 3 == 9 * 256) = true ∧
    ran (exec (.tspawn e) u) (trapped cOperand) = true ∧
    s.pillowRoom 0 1 false [2 ^ 64] = true := by decide +kernel
theorem test_task_ends : let f := ft
    let u := tasks [task 1, { task 2 with strand := some 0 }] 2
    let o := tasks [{ task 1 with nonspec := true, strand := some 0 }] 1
    base.ready f.pr [] [] = true ∧ base.taskOf 0 = none ∧ ran (exec (.tend f) base) (trapped cOperand) = true ∧ u.ready f.pr [] [] = true ∧ u.strandBusy 0 = false ∧
    ran (exec (.tend f) u) (fun t => (t.strand 0).st == .taskwait && ((t.die 0).task 2).any (·.st == .finished)) = true ∧
    ran (exec (.tend f) o) (fun t => (t.die 0).tasks == []) = true ∧ ran (exec (.tabort f) u) (fun t => (t.die 0).tasks.map (·.seq) == [1] && (t.strand 0).task.isNone) = true ∧
    u.ready f.pr [] [f.d.dest, 4] = true ∧ ran (exec (.cfr { f with a := .reg 4 }) u) (fun t => sc t 3 == 1 && sc t 4 == 1) = true ∧
    ran (exec (.cfr { f with a := .reg 4 }) base) (fun t => sc t 3 == m1 && sc t 4 == 2 ^ 48 - 1) = true ∧
    (u.groupOf 0).isSome = true ∧ ran (exec (.tid { f with m := 2 }) u) (fun t => sc t 3 == 2) = true ∧
    ran (exec (.narg f) base) (fun t => sc t 3 == 0) = true ∧ ran (exec (.narg { f with a := .imm 8 }) base) (trapped cOperand) = true := by decide +kernel
/-- A packet from its words: one group of one core, 8 vector registers and 16 pages, entry 0x40. -/
def pkt (l : List Nat) : BitVec 2048 := BitVec.ofNat 2048 (l.foldr (fun w a => w + 2 ^ 64 * a) 0)
def w0 : Nat := 2 ^ 60 + 2 ^ 57 + 1
def core0 : State := base.mapCtx 0 fun x => { x with maskA := 1 }
theorem test_launch : let s := withS (core0.mapCtx 0 fun x => { x with heapLimit := 0x10000 }) [(1, 0x200)]
    let good := dwords [(0x200, w0 + 2 ^ 32), (0x208, 0x40), (0x210, 8 * 2 ^ 58), (0x218, 16)] s
    let u := withS (tasks [task 1] 1) [(1, 0x200)]
    let x : State := { s with hbm := { s.hbm with side := [(11, ⟨0, false, true⟩)] } }
    let z := s.mapDie 0 fun y => { y with errFreeze := true }
    let f : FY := { fy with m := 0 }
    s.ready f.pr (opdRegs [f.a]) [f.d.dest] = true ∧ s.inTask 0 = false ∧ s.resolve 0 false 2 0x200 256 = .ok ⟨.hbm 0x200, 2⟩ ∧ s.performedTo 0 2 = true ∧
    s.commitsAt (.hbm 0x200) 256 = [] ∧ s.placeFrozen (.hbm 0x200) = false ∧ s.coreBad 0 0 0 [] (.hbm 0x200) 256 = false ∧ s.oldAtCore 0 0 0 = false ∧
    x.coreBad 0 0 0 [] (.hbm 0x200) 256 = true ∧ ran (exec (.launch f) x) (trapped cUncorrectable) = true ∧
    z.placeFrozen (.hbm 0x200) = true ∧ z.coreBad 0 0 0 [] (.hbm 0x200) 256 = false ∧ ran (exec (.launch f) z) (fun t => sc t 3 == cContained.toNat) = true ∧
    good.pktCheck 0 0 (pkt [w0 + 2 ^ 32, 0x40, 8 * 2 ^ 58, 16]) = 0 ∧ s.pktCheck 0 0 0 ≠ 0 ∧
    ran (exec (.launch f) s) (fun t => sc t 3 == cOperand.toNat && (t.die 0).store == []) = true ∧
    ran (exec (.launch f) good) (fun t => sc t 3 == 0x8000100000000000 && (t.storeEnt 0x80001000).st == .pending) = true ∧
    u.inTask 0 = true ∧ ran (exec (.launch f) u) (trapped cOperand) = true ∧ ran (exec (.launch f) (withS s [(1, 0x210)])) (trapped cMisaligned) = true := by
  decide +kernel
/-- Strand 0 waits for a task in a group that serves them. -/
def serving (l : List Task) : State :=
  ({ tasks l 0 with groups := [(0, { fetchGroup with pkt := pkt [w0 + 2 ^ 52] })] }).mapStrand 0 fun x => { x with st := .taskwait, task := none }
theorem test_task_unit : let r := readyTask 2 5
    let v := { task 1 with st := .finished }
    let e : Pillow := ⟨1, false, 4, [(3, 0xAB)], 0, 0, false⟩
    let a := e.commit 0 0 3
    let w : State := { base with flight := [a], nextId := 4 }
    let rec' : TrapRec := ⟨cOperand, 0, 0, 0, 0, 0, 0, 0, 0, 0⟩
    let f := { task 1 with st := .faulted, fault := some rec' }
    ((serving [r]).die 0).readyTask 0 = some r ∧ (serving [r]).servingStrand 0 0 = some 0 ∧ ((serving [r]).die 0).freePool = some 0 ∧
    ran (exec (.taskStart 0 0) (serving [r])) (fun t => (t.strand 0).task == some 2 && (t.die 0).tasks.map (·.st) == [.running]) = true ∧
    ((serving [v]).die 0).oldest 0 = some v ∧
    ran (exec (.taskCommit 0 0) ((serving [v]).mapCore 0 fun x => { x with pillow := [e] })) (fun t => (t.die 0).tasks == [] &&
      t.flight.map (fun x => (x.why, x.dst, x.data)) == [(.commit 0, .hbm 0x100, [0xAB])] && (t.core 0).pillow == []) = true ∧
    w.accOf 3 = some a ∧ w.mayPerform a = true ∧ w.commitsAt a.dst 64 = [a] ∧ w.coreOk 0 0 0 [] true (.hbm (4 * 64)) 3 = true ∧ (w.ctxOf 0).dirtyEn = false ∧
    ran (exec (.memoryAccessArrival 3) w) (fun t => t.flight == [] && t.hbm.byte false 0 0x103 == 0xAB) = true ∧
    ran (exec (.taskCommit 0 0) (serving [{ task 1 with st := .stalled }])) (fun t => (t.die 0).tasks.map (·.nonspec) == [true]) = true ∧
    ((serving [f]).die 0).oldest 0 = some f ∧ ((serving [f]).group 0).all (·.fail.isNone) = true ∧
    ran (exec (.taskCommit 0 0) (serving [f])) (fun t => trapped cOperand t && (t.die 0).tasks == []) = true := by decide +kernel
/-- Core 1 idle; the token of a live launch of packet `p` in its queue. -/
def tok1 : QEnt := ⟨0, 0, 0, 1, 0, 0x80000000, none, 0⟩
def queuedUp (p : BitVec 2048) : State :=
  ((core0.mapCtx 0 fun x => { x with maskA := 3 }).mapDie 0 fun x => { x with store := [(0, { StoreEnt.init with st := .live, pkt := p, total := 1, given := 1 })] }).mapCore 1 fun x =>
    { x with queue := [tok1] }
theorem test_dispatch : let p := pkt [w0, 0x40, 8 * 2 ^ 58, 16]
    let l := pkt [w0 + 2 ^ 54, 0x40, 8 * 2 ^ 58, 16]
    let n := pkt [2 * 2 ^ 60 + 2 ^ 57 + 1, 0xA8 * 2 ^ 56]
    let k := pkt [w0 + 2 ^ 51, 0x40, 8 * 2 ^ 58, 16]
    let g := dwords [(0x40, 0x100), (0x48, 0x200), (0x50, 0x300), (0x58, 9)] (queuedUp l)
    let b := pkt [w0 + 2 ^ 44, 0x40, 8 * 2 ^ 58, 16, 0, 0, 0, 0, 0, 0, 0, 0, 0, 0, 0, 0, 0x20000, 64 + 2 * 2 ^ 32]
    [p, l, n, b].all (fun q => (queuedUp q).unitQueue 1 1 == [tok1] && !((queuedUp q).spent tok1) && (queuedUp q).pktOf tok1 == some q && ((queuedUp q).fits 1 tok1).isSome) = true ∧
    (queuedUp p).opndCode 1 0 0 p = 0 ∧ ran (exec (.groupDispatch 1 1) (queuedUp p)) (fun t => (t.group 1).any (·.strands == [4, 5, 6, 7]) && (t.getPc 4).toNat == 0x40) = true ∧
    pktPark k = true ∧ ran (exec (.groupDispatch 1 1) (queuedUp k)) (fun t => (t.strand 4).st == .running && (t.getPc 4).toNat == 0x40 &&
      (t.strand 5).st == .parked && (t.getPc 5).toNat == 0) = true ∧ g.commitsAt (.hbm ((g.heapTriple 1 0).2.2 + 0x40)) 32 = [] ∧
    (queuedUp b).opndCode 1 0 0 b = cBound ∧ ran (exec (.groupDispatch 1 1) (queuedUp b)) (fun t => (t.group 1).any (·.fail.any (·.code == cBound))) = true ∧
    g.loopRec 1 0 0 l = .ok (0x100, 0x200, 0x300, 9) ∧ ran (exec (.groupDispatch 1 1) g) (fun t => (t.getPc 4).toNat == 0x100 && t.getCtl 4 nLPH == 1) = true ∧
    (dwords [(0x40, 1)] (queuedUp l)).loopRec 1 0 0 l = .error cOperand ∧
    ran (exec (.groupDispatch 1 1) (dwords [(0x40, 1)] (queuedUp l))) (fun t => (t.group 1).any (·.fail.any (·.code == cOperand))) = true ∧
    ran (exec (.groupDispatch 1 1) (queuedUp n)) (fun t => (t.core 1).cq.map (fun c => (c.node, c.accepted)) == [(some 0x80000000, true)]) = true ∧ ((queuedUp n).core 1).cq = [] := by decide +kernel
/-- The group of strand 0 has halted; its launch has `n` groups and a successor; target: peg 2 of core 0. -/
def target : Nat := 2 * 2 ^ 62 + 3 * 2 ^ 48 + 2
def ending (n : Nat) (fail : Option TrapRec) : State :=
  let p := pkt [w0, 0x40, 8 * 2 ^ 58, 16, target, 0, 0x80000001]
  let s := (core0.mapDie 0 fun x => { x with store := [(0, { StoreEnt.init with st := .live, pkt := p, total := n, next := 1, given := 1 })] })
  { s with groups := [(0, { fetchGroup with ref := 0x80000000, pkt := p, fail := fail })] }.mapStrand 0 fun x => { x with st := .halted }
theorem test_group_end : let g (n : Nat) (f : Option TrapRec) (p : Group → Bool) : Bool := ((ending n f).group 0).any p
    let r : TrapRec := ⟨cOperand, 0, 0, 0, 0, 0, 0, 0, 0, 0⟩
    let run := (ending 1 none).mapStrand 0 fun x => { x with st := .running }
    g 1 none (fun g => pktTargets g.pkt == [target, 0] && (ending 1 none).canEnd 0 g && g.fail.isNone) = true ∧ tgtType target = 2 ∧ (ending 1 none).frozen 0 = false ∧
    (ending 1 none).oldAtCore 0 0 0 = false ∧ (ending 1 none).objBad 0 0 false 2 = false ∧ ((ending 1 none).core 0).waiters = [] ∧
    (run.group 0).any (fun g => run.canEnd 0 g) = false ∧ ran (exec (.groupEnd 0) run) (fun t => t.groups.length == 1) = true ∧
    ran (exec (.groupEnd 0) (ending 1 none)) (fun t => pegOf t == ⟨3, 0, 0⟩ && t.pkg.decs == [(0x80000001, 0, 0)] && (t.strand 0).st == .free &&
      (t.storeEnt 0x80000000).st == .free) = true ∧
    ran (exec (.groupEnd 0) (ending 2 none)) (fun t => t.pkg.decs == [] && (t.storeEnt 0x80000000).ended == 1) = true ∧
    r.latch ≠ 0 ∧ ((ending 1 (some r)).fn 0).evBuf = [] ∧
    ran (exec (.groupEnd 0) (ending 1 (some r))) (fun t => pegOf t == ⟨0, 0, cOperand⟩ && (t.fn 0).evBuf.length == 1) = true := by decide +kernel
theorem test_decrements : let s (p : Nat) := (base.mapPkg fun x => { x with decs := [(0x80000000, 0, 0)] }).mapDie 0 fun x =>
      { x with store := [(0, { StoreEnt.init with st := if p = 0 then .free else .pending, pred := p })] }
    (s 1).oldAtCore 0 0 0 = false ∧ ((s 1).pendingEnt 0x80000000 0 0).isSome = true ∧
    ran (exec (.succDecrement 0) (s 1)) (fun t => (t.storeEnt 0x80000000).st == .live && t.pkg.decs == []) = true ∧
    ran (exec (.succDecrement 0) (s 2)) (fun t => (t.storeEnt 0x80000000).pred == 1 && (t.storeEnt 0x80000000).st == .pending) = true ∧
    ((s 0).pendingEnt 0x80000000 0 0).isNone = true ∧ ran (exec (.succDecrement 0) (s 0)) (fun t => (t.die 0).stray == 1 && (t.ctxOf 0).genDrops == 0) = true ∧
    (let o := (s 1).mapCtx 0 fun x => { x with gen := 1 }
     o.oldAtCore 0 0 0 = true ∧ ran (exec (.succDecrement 0) o) (fun t => (t.die 0).stray == 1 && (t.ctxOf 0).genDrops == 1 && (t.storeEnt 0x80000000).pred == 1) = true) := by decide +kernel
theorem test_queue_moves : let s := core0.mapDie 0 fun x => { x with bays := [(0, { Bay.init with queue := [tok1, { tok1 with prio := 2, order := 7 }] })] }
    bayOfCore 0 = 0 ∧ (s.core 0).queue = [] ∧ queued s tok1 = 1 ∧
    ran (exec (.queueBlockMove 0 0 0) s) (fun t => (t.core 0).queue.map (·.order) == [7, 0] && queued t tok1 == 1) = true := by decide +kernel
/-- Queue 0 of slot 0, its rings in host memory at 0x1000 and 0x8000, 16 entries. -/
def lq : LQueue := { LQueue.init with base := 0x1000, cbase := 0x8000, en := true, loc := true, size := 4, pi := 1 }
def hosted (x : LQueue) (w : List Nat) : State :=
  { core0 with host := (cellsAt 0x1000 (leBytes 256 (pkt w).toNat)).filter (·.2 != 0) }.mapFn 0 fun f => { f with lq := [(0, x)] }
theorem test_launch_queue : let ok := hosted lq [w0, 0x40, 8 * 2 ^ 58, 16]
    ok.deaf 0 = false ∧ ran (exec (.launchQueueDoorbell 0 0 9) ok) (fun t => (t.lqOf 0 0).pi == 9) = true ∧
    ran (exec (.launchQueueEnable 0 0 0x4051) ok) (fun t => t.lqOf 0 0 == { lq with size := 5, loc := false, die := 2 }) = true ∧
    ran (exec (.launchQueueEnable 0 0 0x31) ok) (fun t => t.lqOf 0 0 == lq && (t.fn 0).badAccess == 1) = true ∧
    (ok.lqOf 0 0).room = true ∧ ok.frozen 0 = false ∧ ok.ringFrozen true 0x1000 = false ∧ ok.pktCheck 0 0 (pkt [w0, 0x40, 8 * 2 ^ 58, 16]) = 0 ∧
    ran (exec (.packetFetch 0 0) ok) (fun t => (t.lqOf 0 0).ci == 1 && (t.lqOf 0 0).waiting == [0x8000100000000001] && (t.storeEnt 0x80001000).st == .live) = true ∧
    ran (exec (.packetFetch 0 0) (hosted lq [])) (fun t => (t.lqOf 0 0).waiting == [2 + BitVec.ofNat 128 (cOperand.toNat * 256)] && (t.die 0).store == []) = true ∧
    ran (exec (.launchRetry 0 0) (hosted { lq with full := true } [w0, 0x40, 8 * 2 ^ 58, 16])) (fun t => (t.lqOf 0 0).ci == 1 && !(t.lqOf 0 0).full) = true := by decide +kernel
theorem firstBelow_eq_none (p : Nat → Bool) : ∀ n, (∀ i, i < n → p i = false) → firstBelow n p = none
  | 0, _ => rfl
  | n + 1, h => by simp [firstBelow, firstBelow_eq_none p n fun i hi => h i (by omega), h n (by omega)]
theorem get_const (x : StoreEnt) (i : Nat) : ∀ l : List Nat, i ∈ l → Tbl.get StoreEnt.init (l.map fun j => (j, x)) i = x
  | [], h => by simp at h
  | j :: t, h => by
    by_cases e : i = j
    · simp [Tbl.get, e]
    · simp [Tbl.get, e, get_const x i t (by simpa [e] using h)]
/-- A die's store with no free entry. -/
def crowded : State :=
  (hosted lq [w0, 0x40, 8 * 2 ^ 58, 16]).mapDie 0 fun x => { x with store := (List.range 1024).map fun i => (i, { StoreEnt.init with st := .pending }) }
theorem crowded_full : crowded.freeStore 0 = none := by
  refine firstBelow_eq_none _ _ fun i hi => ?_
  rw [crowded, mapDie_die_self, get_const _ _ _ (List.mem_range.2 hi)]
  decide
theorem test_full_store : crowded.pktCheck 0 0 (pkt [w0, 0x40, 8 * 2 ^ 58, 16]) = cFull := by
  unfold State.pktCheck
  rw [crowded_full]
  decide +kernel
theorem test_queue_teardown : let s := hosted { lq with waiting := [7], cpi := 17, cci := 16 } []
    let e := hosted { lq with waiting := [4], td := true } []
    let t (l : Option Nat) := hosted { lq with td := true, tdUntil := 0, tdCount := l } []
    let p := (hosted lq []).mapDie 0 fun x => { x with store := [(0, { StoreEnt.init with st := .pending, q := some 0, pred := 1, total := 1 })] }
    let g := { t none with groups := [(0, { fetchGroup with q := some 0, ref := 0x80000005 })] }
    let n := { t (some 1) with groups := [] }
    (s.lqOf 0 0).waiting = [7] ∧ ((s.lqOf 0 0).cpi - (s.lqOf 0 0).cci).toNat < 2 ^ 4 ∧ s.ringFrozen true 0x8010 = false ∧
    ran (exec (.completionRecordWrite 0 0) s) (fun t => Tbl.get 0 t.host 0x8010 == 7 && Tbl.get 0 t.host 0x801F == 0 && (t.lqOf 0 0).cpi == 18) = true ∧
    ran (exec (.completionRecordWrite 0 0) e) (fun t => !(t.lqOf 0 0).td && !(t.lqOf 0 0).en && Tbl.get 0 t.host 0x800F == 1) = true ∧
    p.launchesOf 0 0 = [0x80000000] ∧ (p.storeEnt 0x80000000).st = .pending ∧ pktTargets (p.storeEnt 0x80000000).pkt = [0, 0] ∧
    (pktSucc (p.storeEnt 0x80000000).pkt).all (refV · == false) = true ∧ ((p.ctxOf 0).tdWindow = 100) ∧
    ran (exec (.teardownStart 0 0) p) (fun t => (t.lqOf 0 0).td && (t.lqOf 0 0).tdUntil == 100000 && (t.storeEnt 0x80000000).st == .free) = true ∧
    g.launchesOf 0 0 = [] ∧ (g.groups.map (·.2.q)) = [some 0] ∧ (g.lqOf 0 0).tdCount = none ∧
    ran (exec (.teardownWindowExpiry 0 0) g) (fun t => (t.lqOf 0 0).tdCount == some 1 && trapped cTeardown t) = true ∧
    n.launchesOf 0 0 = [] ∧ n.groups = [] ∧
    ran (exec (.teardownWindowExpiry 0 0) n) (fun t => (t.lqOf 0 0).waiting == [BitVec.ofNat 128 (4 + cTeardown.toNat * 256 + 2 ^ 64)]) = true ∧
    ran (exec (.teardownWindowExpiry 0 0) s) (fun t => (t.lqOf 0 0).waiting == [7]) = true := by decide +kernel
/-- A die's task queue with no room, at the group's own strand. -/
theorem test_full_tasks : 4096 ≤ (((base.mapDie 0 fun x => { x with tasks := List.replicate 4096 (readyTask 1 1) }).die 0).tasks.filter (·.st == .ready)).length := by
  rw [mapDie_die_self, List.filter_replicate_of_pos (by decide), List.length_replicate]

/-! ### Pre-emption -/

/-- The group of strand 0 alone, without objects; `b` is CTRL of its packet. -/
def small (b : Nat) : Group := { fetchGroup with strands := [0], pkt := pkt [w0 + b], ref := 0x80000000 }
def alone (g : Group) : State :=
  ({ base with groups := [(0, g)] }.mapCtx 0 fun x => { x with heapLimit := 0x400000, saveFrames := 1 }).mapStrand 1 fun _ => Strand.init
def rests (s : State) : State := s.mapStrand 0 fun x => { x with st := .halted }
theorem test_choices : let s := alone (small 0)
    let n := s.mapCtx 0 fun x => { x with saveFrames := 0 }
    let r := small (2 ^ 53)
    let d (s : State) (cost : Nat) := (s.setCtl 0 nRLBL 4).setCtl 0 nRCOST (BitVec.ofNat 64 cost)
    (rests s).drainIn (small 0) 0 = some 0 ∧ 0 ≤ (rests s).preemptDl 0 ∧ (rests s).choose 0 (small 0) 0 = 1 ∧
    s.drainIn (small 0) 0 = none ∧ s.saveOk (small 0) = true ∧ s.discardOk (small 0) = false ∧ s.choose 0 (small 0) 0 = 2 ∧
    (d n 9).saveOk r = false ∧ (d n 9).discardOk r = true ∧ (d n 9).choose 0 r 0 = 3 ∧ n.saveOk (small 0) = false ∧ n.choose 0 (small 0) 0 = 0 ∧
    (d s 9).saveOk r = true ∧ (d s 9).discardOk r = true ∧ (d s 9).discardCost r 0 = some 9 ∧ (d s 9).choose 0 r 0 = 3 ∧ (d s 9999).choose 0 r 0 = 2 ∧
    (s.mapStrand 0 fun x => { x with stall := 3 }).choose 0 (small 0) 0 = 0 := by
  decide +kernel
/-- A more urgent launch waits on core 0. -/
def pressed (g : Group) : State :=
  let e : QEnt := ⟨0, 0, 1, 1, 0, 0x80000001, none, 0⟩
  (((alone g).mapCtx 0 fun x => { x with maskA := 1 }).mapDie 0 fun x =>
    { x with store := [(1, { StoreEnt.init with st := .live, pkt := pkt [w0 + 2 ^ 55], total := 1 })] }).mapCore 0 fun x => { x with queue := [e] }
theorem test_requests : let g := small 0
    let s := pressed g
    let a := (alone g).mapStrand 0 fun x => { x with atSafe := true }
    let h := { g with pre := some 5, choice := [(0, 1)] }
    let d := { alone h with cycle := 150005 }
    (s.group 0).any (fun x => (s.charge 0).wantsOut x 0) = true ∧
    ran (exec (.preemptRequest 0) s) (fun t => (t.group 0).any (fun x => x.pre == some 0 && Tbl.get 0 x.choice 0 == 2) && (t.strand 0).st == .blocked) = true ∧
    ((alone g).group 0).any (fun x => ((alone g).charge 0).wantsOut x 0) = false ∧
    ran (exec (.preemptRequest 0) (alone g)) (fun t => (t.group 0).any (·.pre.isNone)) = true ∧
    ran (exec (.safePointArrival 0) a) (fun t => !(t.strand 0).atSafe && (t.strand 0).st == .running) = true ∧
    ran (exec (.safePointArrival 0) ((alone h).mapStrand 0 fun x => { x with atSafe := true })) (fun t => (t.strand 0).st == .blocked) = true ∧
    d.preemptDl 0 = 150000 ∧ d.saveOk h = true ∧ h.on 0 = [0] ∧ (d.strand 0).atRest = false ∧
    ran (exec (.preemptDeadlineExpiry 0 0) d) (fun t => (t.group 0).any (Tbl.get 0 ·.choice 0 == 2) && (t.strand 0).st == .blocked) = true ∧
    (let n := d.mapCtx 0 fun x => { x with saveFrames := 0 }
     h.dbgSince = none ∧ n.saveOk h = false ∧ ran (exec (.preemptDeadlineExpiry 0 0) n) (fun t => (t.group 0).any (Tbl.get 0 ·.choice 0 == 4) && (t.strand 0).st == .running) = true) ∧
    ran (exec (.preemptDeadlineExpiry 0 0) { d with cycle := 150004 }) (fun t => (t.strand 0).st == .running) = true ∧ (d.ctxOf 0).schedSlice = 1000 ∧
    ran (exec (.preemptWatchdog 0) { d with cycle := 12000005 }) (trapped cWatchdog) = true ∧
    ran (exec (.preemptWatchdog 0) { d with cycle := 12000004 }) (fun t => !(trapped cWatchdog t)) = true := by decide +kernel
/-- A save by value that may complete; a saved group of one strand that may come back, its record saying PC 0x44, p1 3 and s1 7. -/
def savable : State := withS ((alone { small 0 with pre := some 0, choice := [(0, 2)] }).mapStrand 0 fun x => { x with st := .blocked, atSafe := true }) [(1, 7)]
def restorable : State := dwords [(0x100, 0x44), (0x130, 3), (0x170, 7)] (alone { small 0 with st := .restoring, frame0 := some 0, choice := [(0, 2)] })
theorem test_frames : let g := { small 0 with pre := some 0, choice := [(0, 2)] }
    (savable.group 0).map (·.choice) = some g.choice ∧ g.cores = [0] ∧ g.on 0 = g.strands ∧ savable.coreDone 0 g 0 = true ∧ savable.frameRun 0 1 = some 0 ∧
    savable.framesIn 0 0 0 1 = true ∧ (savable.die (queueDie g.ref g.level)).queue.length < 4096 ∧ (savable.ctxOf 0).dirtyEn = false ∧ savable.flight = [] ∧
    savable.coreOk 0 0 0 [] true (.hbm (savable.frameAt 0 0 0)) (frameBytes - 1) = true ∧
    restorable.framesIn 0 0 0 1 = true ∧ restorable.frameAt 0 0 0 = 0 ∧
    (({ small 0 with st := .restoring }).ranges 2 1 0).all (fun r => !(restorable.coreBad 0 0 0 [] (.hbm (restorable.frameAt 0 0 0 + r.1)) r.2)) = true ∧ restorable.flight = [] ∧
    ran (exec (.restore_ 0) restorable) (fun t => pcOf t == 0x44 && sc t 1 == 7 && t.getP 0 1 == 3 && (t.group 0).any (·.st == .running)) = true := by decide +kernel

/-! ### The sequencer, upkeep -/

/-- Generation 511 + `w` of slot 1 with GEN_LW 0, asked to advance by strand 0. -/
def advancing (gen : Nat) : State :=
  ((base.mapCtx 1 fun x => { x with gen := BitVec.ofNat 16 gen }).mapPkg fun p =>
    { p with seqQ := [.genAdv 1 0 3 8], windows := [(2, ⟨9, 1, true, true, true, 1, 0⟩)] }).mapStrand 0 fun x => { x with stall := 3 }
def cutting (dies cores : List Nat) : State :=
  let s := (advancing 5).mapPkg fun p => { p with seqQ := [], seqRun := some ⟨.genAdv 1 0 3 8, dies, cores⟩ }
  { s with groups := [(4, { fetchGroup with slot := 1, gen := 4, cores := [1], strands := [4] })] }.mapDie 2 fun x =>
    { x with syncWaits := [⟨4, 1, 4, 2, 8, .sram 2 8, 5, 3, none⟩] }
theorem test_generation_advance : let r (t : State) : Bool := t.pkg.seqQ == [] && (t.strand 0).stall == 0
    ((advancing 512).ctxOf 1).gen - ((advancing 512).ctxOf 1).genLw = 512 ∧
    ran (exec .genAdvAccept (advancing 512)) (fun t => r t && sc t 3 == cGenWindow.toNat + 512 * 256 && (t.ctxOf 1).gen == 512) = true ∧
    ran (exec .genAdvAccept (advancing 511)) (fun t => t.pkg.seqQ == [] && (t.ctxOf 1).gen == 512 && t.pkg.seqRun.any (·.cores.length == 192) && !(t.window 2).v) = true ∧
    ran (exec (.dieCut 2) (cutting [2] [1])) (fun t => (t.die 2).syncWaits == [] && t.pkg.seqRun.any (·.dies == [])) = true ∧
    ran (exec (.coreCut 1) (cutting [2] [1])) (fun t => t.groups.length == 1) = true ∧
    ran (exec (.coreCut 1) (cutting [] [1])) (fun t => t.groups == [] && t.pkg.seqRun.any (·.cores == [])) = true ∧
    ran (exec .sequencerChangeDone (cutting [] [1])) (fun t => t.pkg.seqRun.isSome) = true ∧
    ran (exec .sequencerChangeDone (cutting [] [])) (fun t => t.pkg.seqRun.isNone && (t.strand 0).stall == 0 && sc t 3 == 5 * 256 && pcOf t == 8) = true := by decide +kernel
def owned : State := base.mapPkg fun p => { p with owner := [(0, 1), (3, 0)] }
theorem test_cut_registers : owned.seqIdle = true ∧
    ran (exec (.heapWindowWrite 1 1 0x20000) owned) (fun t => (t.ctxOf 1).heapLimit == 0x20000 && (t.heapTriple 7 1).2.1 == 0 && t.pkg.seqRun.isSome) = true ∧
    owned.heapOk 1 0 0x20001 0 = false ∧ ran (exec (.heapWindowWrite 1 1 0x20001) owned) (· == owned) = true ∧
    owned.syncOk 1 64 0 0 0 = false ∧ ran (exec (.syncWindowWrite 2 1 64) owned) (fun t => (t.ctxOf 1).sramLen == 64 && (t.syncWindow 192 1).2.2.1 == 0) = true ∧
    ran (exec (.syncWindowWrite 2 1 65) owned) (· == owned) = true ∧
    ran (exec (.dirtySelWrite 1) owned) (fun t => t.pkg.dirtySel && !t.pkg.dirtyShown && !(t.dirtyHalf 3)) = true ∧ ran (exec (.dirtySelWrite 2) owned) (· == owned) = true ∧
    ran (exec (.perfSelWrite 1 7 0xD) owned) (fun t => Tbl.get 0 (t.ctxOf 1).perfSel 7 == 0xD && t.perfSelOf 191 1 7 == 0) = true ∧
    ran (exec (.perfSelWrite 1 7 0xE) owned) (· == owned) = true ∧
    owned.ownerOk 5 2 = true ∧ ran (exec (.ownerTableWrite 5 2) owned) (fun t => t.owner 5 == 2 && t.ownerFor 3 5 == 0xFF && t.ownerNow 5 == 0xFF) = true ∧
    owned.ownerOk 5 0xFE = false ∧ ran (exec (.ownerTableWrite 5 0xFE) owned) (· == owned) = true := by decide +kernel
theorem test_unit_cuts : let s (r : SeqReq) (d c : List Nat) := owned.mapPkg fun p => { p with seqRun := some ⟨r, d, c⟩ }
    let h := { s (.heap 1 0 0x20000 0) [] [7] with oldHeap := [(7 * 64 + 1, (0, 0, 0))] }.mapCtx 1 fun x => { x with heapLimit := 0x20000 }
    let y := { s (.sync 1 64 0 0 0) [2] [7] with oldSync := [(7 * 64 + 1, (0, 0, 0, 0)), (194 * 64 + 1, (0, 0, 0, 0))] }.mapCtx 1 fun x => { x with syncLimit := 64 }
    let p := ((s (.perfSel 1 2 0) [] [7]).mapCtx 1 fun x => { x with perfSel := [(2, 0xD)] }).mapCore 7 fun x => { x with perf := [(10, ⟨5, 1024, false⟩)] }
    (h.heapTriple 7 1).2.1 = 0 ∧ ran (exec (.configChangeCut 7) h) (fun t => (t.heapTriple 7 1).2.1 == 0x20000 && t.pkg.seqRun.any (·.cores == [])) = true ∧
    ran (exec (.configChangeCut 194) y) (fun t => (t.syncWindow 194 1).1 == 64 && (t.syncWindow 7 1).1 == 0) = true ∧
    ran (exec (.configChangeCut 7) p) (fun t => (t.core 7).perf == [] && t.perfSelOf 7 1 2 == 0xD) = true ∧
    ran (exec (.configChangeCut 195) (s (.dirtySel true) [3] [])) (fun t => t.dirtyHalf 3) = true ∧
    (let o := (s (.owner 5 2 0xFF) [3] []).mapPkg fun p => { p with owner := [(5, 2)] }
     o.ownerFor 3 5 = 0xFF ∧ ran (exec (.configChangeCut 195) o) (fun t => t.ownerFor 3 5 == 2) = true) ∧
    ran (exec .sequencerChangeDone (s (.dirtySel true) [] [])) (fun t => t.pkg.dirtyShown && t.pkg.seqRun.isNone) = true := by decide +kernel
theorem test_admin_registers : let s := { owned with ref := 100, groups := [] }
    let e := { s.mapCtx 1 fun x => { x with timeExempt := true } with groups := [(4, { fetchGroup with slot := 1 })] }
    let w : BitVec 128 := BitVec.ofNat 128 (0x100 * 2 ^ 16 + 2 * 2 ^ 40 + 7 * 2 ^ 64 + 1 * 2 ^ 67 + 9 * 2 ^ 73)
    ran (exec (.timeScaleWrite 1 (2 ^ 33)) s) (fun t => t.timeOf 1 == 100 && (t.ctxOf 1).timeScale == 2 ^ 33) = true ∧
    ran (exec (.timeOffWrite 1 5) s) (fun t => t.timeOf 1 == 105) = true ∧ (s.ctxOf 1).timeExempt = false ∧ (e.ctxOf 1).timeExempt = true ∧ e.slotInFlight 1 = true ∧
    ran (exec (.timeOffWrite 1 (BitVec.ofNat 64 m1)) e) (fun t => !(t.ctxOf 1).timeExempt && (t.ctxOf 1).timeOff == 0) = true ∧
    ran (exec (.timeOffWrite 1 (BitVec.ofNat 64 m1)) s) (· == s) = true ∧ s.anyInFlight = false ∧ ran (exec (.errModeWrite 1) s) (fun t => t.pkg.errMode) = true ∧
    owned.anyInFlight = true ∧ ran (exec (.errModeWrite 1) owned) (· == owned) = true ∧ bits w.toNat 83 45 = 0 ∧ bits w.toNat 0 16 = 0 ∧
    s.ownsRange 1 0x1000000 0x20000 = true ∧ ran (exec (.peerWindowWrite 63 w) s) (fun t => t.window 63 == ⟨9, 1, true, true, true, 2, 0x100⟩) = true ∧
    ran (exec (.peerWindowWrite 63 (w + 1)) s) (· == s) = true ∧
    ran (exec (.multicastGroupWrite 4161 (16 + 63 * 2 ^ 8)) s) (fun t => t.mcastOf 1 1 1 (t.slotTag 1) == 16 + 63 * 2 ^ 8) = true ∧
    ran (exec (.multicastGroupWrite 4161 17) s) (· == s) = true := by decide +kernel
/-- Generation 600 of slot 0; a granule of the first slice and of device memory whose tags are 600 generations old, poisoned, or current. -/
def aged (tag : Tag) (lease poison : Bool) : State :=
  { base with ground := ⟨[(0x40, 7)], [(1, ⟨tag, lease, poison⟩)]⟩, hbm := ⟨[(0x40, 7)], [(1, ⟨tag, lease, poison⟩)]⟩, strands := [(9, { Strand.init with sregs := [(5, ⟨8, tag, false⟩)] })],
              cores := [(9, { Core.init with pegs := [(5, ⟨⟨1, 0, 0⟩, tag, false⟩)] })], dies := [(1, { Die.init with twins := [(5, ⟨⟨1, false, 0, 0, 0, 0⟩, tag, false⟩)] })] }.mapCtx 0
    fun x => { x with gen := 600, maskA := 1 }
theorem test_ground_scrub : let o := aged 0 false false
    let c := aged 600 false false
    let v (e : Nat) (s : State) (p : State → Bool) : Bool := ran (exec (.sliceScrubVisit 0 2 e) s) p
    (o.ground.gran 0x40).lease = false ∧ 511 < o.age 0 ∧ v 0 o (fun t => t.ground.gran 0x40 == Gran.zero && t.ground.raw 0x40 == 0) = true ∧
    c.age 600 = 0 ∧ v 0 c (· == c.seenAt (.array 0 2)) = true ∧ v 0 (aged 500 false true) (fun t => t.ground.gran 0x40 == Gran.zero) = true ∧ (c.die 0).ceSlice ≠ BitVec.allOnes 32 ∧
    v 1 c (fun t => (t.die 0).ceSlice == 1 && t.ground == c.ground) = true ∧ c.pkg.errMode = false ∧
    v 2 c (fun t => t.ground.gran 0x40 == ⟨600, false, true⟩ && t.ground.raw 0x40 == 7) = true ∧ v 2 (aged 500 false false) (fun t => t.ground.gran 0x40 == Gran.zero) = true ∧
    c.coreOwner 0 = some 0 ∧ v 3 (aged 500 false false) (fun t => t.ground.gran 0x40 == ⟨600, false, true⟩ && (t.fn 0).evBuf.length == 1) = true ∧
    v 2 (c.mapPkg fun p => { p with errMode := true }) (fun t => t.frozen 0) = true := by decide +kernel
theorem test_memory_scrub : let o := aged 0 false false
    let c := aged 600 false false
    let l := aged 9 true false
    let k := c.channelOf 0x40
    let h := l.mapPkg fun p => { p with leases := [(0, { Lease.init with st := 2, ltag := 9, block := 0 })] }
    let d := o.allocate 0 none 0x40 ⟨true, 600, false, [], some (Gran.zero, [])⟩
    let u := c.mapPkg fun p => { p with chanUnc := [(k.1 * 32 + k.2, 63)] }
    let v (e : Nat) (s : State) (p : State → Bool) : Bool := ran (exec (.hbmScrubVisit 1 e) s) p
    v 0 o (fun t => t.hbm.gran 0x40 == Gran.zero) = true ∧ v 0 c (· == c.seenAt (.hbm 1)) = true ∧ (c.seenAt (.hbm 1)).pkg.visited.contains (.hbm 1) = true ∧ c.dirtyBay none 0x40 = none ∧ l.dirtyBay none 0x40 = none ∧ l.leaseHolds 1 9 = false ∧ v 0 l (fun t => t.hbm.gran 0x40 == Gran.zero) = true ∧
    h.leaseHolds 1 9 = true ∧ v 0 h (· == h.seenAt (.hbm 1)) = true ∧ d.dirtyBay none 0x40 ≠ none ∧ v 0 d (fun t => t.hbm == d.hbm && t.pkg.visited == [.hbm 1]) = true ∧ v 1 c (fun t => Tbl.get 0 t.pkg.chanCorr (k.1 * 32 + k.2) == 1) = true ∧
    v 2 c (fun t => t.hbm.gran 0x40 == ⟨600, false, true⟩ && Tbl.get 0 t.pkg.chanUnc (k.1 * 32 + k.2) == 1) = true ∧
    (u.stackOf k.1).st = 0 ∧ v 2 u (fun t => t.stackOf k.1 == ⟨1, k.2, 0⟩) = true := by decide +kernel
theorem test_channels : let s (st : Nat) := base.mapPkg fun p => { p with stk := if st = 0 then [] else [(7, ⟨st, 30, 0x7FFFFF⟩)] }
    ran (exec (.chanRetireWrite 255) (s 0)) (fun t => t.stackOf 7 == ⟨1, 31, 0⟩ && (t.fn 0).evBuf.length == 1) = true ∧
    ran (exec (.chanRetireWrite 255) (s 2)) (· == s 2) = true ∧ ran (exec (.chanRetireWrite 256) (s 0)) (· == s 0) = true ∧
    ran (exec (.channelTrainingFail 7 31) (s 0)) (fun t => t.stackOf 7 == ⟨1, 31, 0⟩) = true ∧ ran (exec (.chanSecondFail 7 31) (s 0)) (· == s 0) = true ∧
    ((s 2).stackOf 7).retCh ≠ 31 ∧ ran (exec (.stripeRebuild 7) (s 1)) (fun t => t.stackOf 7 == ⟨2, 30, 0x800000⟩) = true ∧
    ran (exec (.stripeRebuild 7) (s 2)) (· == s 2) = true := by decide +kernel
/-- What a burst and a boundary do to a pseudo-channel's banks depends on their number, which Config leaves open. -/
theorem test_refresh : let s (x : MBank) := base.mapPkg fun p => { p with mbanks := [(5, x)] }
    let y : MBank := { MBank.init with debt := 2 }
    ran (exec (.perBankRefresh 5) (s y)) (fun t => t.mbank 5 == { y with busy := true }) = true ∧ ran (exec (.perBankRefresh 5) (s MBank.init)) (fun t => t.mbank 5 == MBank.init) = true ∧
    ran (exec (.refreshEnd 5) (s { y with busy := true })) (fun t => t.mbank 5 == { y with debt := 1 }) = true ∧ ran (exec (.refreshEnd 5) (s y)) (fun t => t.mbank 5 == y) = true ∧
    ran (exec (.bankStarvation 5 1 1) (s y)) (fun t => t.mbank 5 == y) = true := by decide +kernel
theorem test_activations : let s (l : List Track) := base.mapPkg fun p => { p with mbanks := [(5, { MBank.init with track := l, mitig := [(1, 7)] })] }
    let tr (l : List Track) (p : MBank → Bool) : Bool := ran (exec (.rowActivation 5 77 1) (s l)) fun t => p (t.mbank 5)
    base.pkg.distLimit = 1024 ∧ base.pkg.distThrottle = 8 ∧ tr [⟨77, 3, 1, 15⟩] (·.track == [⟨77, 4, 1, 15⟩]) = true ∧ tr [⟨77, 3, 2, 2⟩] (·.track == [⟨77, 4, 2, 1⟩]) = true ∧
    tr [⟨77, 3, 2, 1⟩] (·.track == [⟨77, 4, 1, 1⟩]) = true ∧ tr [⟨77, 1023, 1, 3⟩] (fun b => b.throttled == [1] && b.track == [⟨77, 0, 1, 4⟩]) = true ∧
    tr [] (·.track == [⟨77, 1, 1, 1⟩]) = true ∧
    tr ((List.range 16).map fun i => ⟨i, if i = 9 then 2 else 5, 0, 0⟩) (fun b => b.track.map (·.row) == [0, 1, 2, 3, 4, 5, 6, 7, 8, 77, 10, 11, 12, 13, 14, 15] &&
      b.track.map (·.count) == [5, 5, 5, 5, 5, 5, 5, 5, 5, 3, 5, 5, 5, 5, 5, 5]) = true ∧
    ran (exec (.disturbIntervalReset 5) (s [⟨77, 3, 1, 2⟩])) (fun t => t.mbank 5 == MBank.init) = true := by decide +kernel
theorem test_sweeps : let o := aged 0 false false
    let n := { State.reset with strands := [(9, { Strand.init with sregs := [(5, ⟨8, 600, false⟩)] })] }.mapCtx 0 fun x => { x with gen := 600 }
    let m := n.seenAt (.elem (.scalar 9 5))
    o.elemTag (.scalar 9 6) = none ∧ o.elemTag (.scalar 9 5) = some (0, false) ∧ 511 < o.age 0 ∧ ran (exec (.tagSweepVisit (.scalar 9 5)) o) (fun t => (t.strand 9).sregs == []) = true ∧
    o.elemTag (.peg 9 5) = some (0, false) ∧ ran (exec (.tagSweepVisit (.peg 9 5)) o) (fun t => (t.core 9).pegs == []) = true ∧
    o.elemTag (.twin 1 5) = some (0, false) ∧ ran (exec (.tagSweepVisit (.twin 1 5)) o) (fun t => (t.die 1).twins == []) = true ∧
    n.elemTag (.scalar 9 5) = some (600, false) ∧ n.age 600 ≤ 511 ∧ ran (exec (.tagSweepVisit (.scalar 9 5)) n) (· == n.seenAt (.elem (.scalar 9 5))) = true ∧
    n.sites = [.elem (.scalar 9 5)] ∧
    m.sites.all m.pkg.visited.contains = true ∧ ran (exec .sweepPassEnd m) (fun t => (t.ctxOf 0).genLw == 0 && Tbl.get 0 t.pkg.passGen 0 == 600) = true ∧
    n.pkg.visited = [] ∧ ran (exec .sweepPassEnd n) (· == n) = true := by decide +kernel

/-! ### Leases, the host, the debugger, resets -/

/-- Lease entry 3: block 5, lent to slot 2 of device 9; borrow entry 4: from device 9, slot 2, fallback block 6, leaves at 0x7000. -/
def ls : Lease := { Lease.init with bdev := 9, bslot := 2, block := 5, ltag := 33, bidx := 4, fbk := 6, bgen := 1 }
def bw : Borrow := { Borrow.init with l3a := 7, l3b := 8, ipa := 11, fbk := 6, ltag := 33, lblock := 5, ldev := 9, slot := 2, lidx := 3 }
def lent (x : Lease) (y : Borrow) : State := base.mapPkg fun p => { p with leases := [(3, x)], borrows := [(4, y)], owner := [(5, 0xFE), (6, 2)] }
theorem test_lease_entries : let s := lent Lease.init Borrow.init
    let v (st : Nat) : BitVec 64 := BitVec.ofNat 64 (st * 2 ^ 61 + 9 * 2 ^ 35 + 2 * 2 ^ 29 + 7 * 2 ^ 21)
    let w (st fbk : Nat) : BitVec 256 := BitVec.ofNat 256 (8 * 2 ^ 156 + 7 * 2 ^ 120 + 11 * 2 ^ 103 + fbk * 2 ^ 94 + 9 * 2 ^ 60 + 2 * 2 ^ 54 + st * 2 ^ 51)
    s.deaf 0 = false ∧ bits (v 1).toNat 61 3 = 1 ∧ bits (v 1).toNat 11 10 = 0 ∧ bits (v 1).toNat 21 8 = 7 ∧ s.owner 7 = 0xFF ∧ (s.pkg.lgen - s.pkg.low).toNat < 65535 ∧
    ran (exec (.leaseEntrySet 3 (v 0)) s) (fun t => t.lease 3 == { Lease.init with bdev := 9, bslot := 2, block := 7 }) = true ∧
    ran (exec (.leaseEntrySet 3 (v 0)) (lent { ls with st := 2 } bw)) (fun t => (t.fn 0).badAccess == 1) = true ∧
    ran (exec (.leaseOffer 3 (v 1)) s) (fun t => (t.lease 3).st == 1 && t.owner 7 == 0xFE && t.pkg.lgen == 1 && t.sent == [.krytyth 9 (kryt 1 3 0xFF 2 1 0 7 0)]) = true ∧
    (s.mapPkg fun p => { p with owner := [(7, 1)] }).owner 7 ≠ 0xFF ∧
    ran (exec (.leaseOffer 3 (v 1)) (s.mapPkg fun p => { p with owner := [(7, 1)] })) (fun t => (t.lease 3).st == 0 && (t.fn 0).evBuf.length == 1) = true ∧
    ran (exec (.leaseOffer 3 (v 1)) (lent { ls with st := 1 } bw)) (fun t => (t.fn 0).badAccess == 1) = true ∧
    ran (exec (.leaseReclaimStart 3) (lent { ls with st := 2 } bw)) (fun t => (t.lease 3).st == 3 && t.sent == [.krytyth 9 (kryt 4 3 4 2 33 0 5 0)]) = true ∧
    ran (exec (.leaseReclaimStart 3) s) (· == s) = true ∧
    ran (exec (.borrowEntrySet 4 (w 0 6)) s) (fun t => t.borrow 4 == { Borrow.init with l3b := 8, l3a := 7, ipa := 11, fbk := 6, ldev := 9, slot := 2 }) = true ∧
    ran (exec (.borrowWait 4 (w 1 6)) s) (fun t => (t.borrow 4).st == 1) = true ∧ ran (exec (.borrowWait 4 (w 1 7)) s) (fun t => (t.fn 0).badAccess == 1) = true ∧
    ran (exec (.borrowWithdraw 4) (lent ls { bw with st := 1 })) (fun t => (t.borrow 4).st == 0) = true ∧ ran (exec (.borrowWithdraw 4) s) (· == s) = true ∧
    ran (exec (.borrowRelease 4) (lent ls { bw with st := 4 })) (fun t => (t.borrow 4).st == 0) = true ∧ ran (exec (.borrowRelease 4) s) (· == s) = true := by
  decide +kernel
theorem test_grants : let w := lent { ls with st := 1 } { bw with st := 1 }
    let a := lent { ls with st := 2 } bw
    (w.pkg.borrows.find? fun b => b.2.st == 1 && b.2.ldev == 9 && b.2.slot == 2) = some (4, { bw with st := 1 }) ∧
    ran (exec (.grant 9 (kryt 1 3 0xFF 2 33 0 5 0)) w) (fun t => t.borrow 4 == { bw with st := 2 } && t.sent == [.krytyth 9 (kryt 2 3 4 2 33 0 5 0)]) = true ∧
    (a.pkg.borrows.find? fun b => b.2.st == 1 && b.2.ldev == 9 && b.2.slot == 2) = none ∧
    ran (exec (.grant 9 (kryt 1 3 0xFF 2 33 0 5 0)) a) (fun t => t.sent == [.krytyth 9 (kryt 3 3 0xFF 2 33 1 5 0)] && t.pkg == a.pkg) = true ∧
    ran (exec (.accept 9 (kryt 2 3 4 2 33 0 5 0)) w) (fun t => t.lease 3 == { ls with st := 2 }) = true ∧ w.pkg.held = [] ∧
    ran (exec (.refuse 9 (kryt 3 3 0xFF 2 33 1 5 0)) w) (fun t => (t.lease 3).st == 0 && t.owner 5 == 0xFF) = true ∧
    ran (exec (.refuse 9 (kryt 3 3 0xFF 2 33 1 5 0)) a) (· == a) = true ∧ kOk 1 (kryt 1 3 0xFF 2 33 1 5 0) = false ∧
    ran (exec (.grant 9 (kryt 1 3 0xFF 2 33 1 5 0)) w) (fun t => t.pkg.discarded == 1 && t.sent == []) = true := by decide +kernel
theorem test_borrower : let s := lent ls { bw with st := 2 }
    let r := lent ls { bw with st := 3 }
    let p := dwords [(0x7000, 0x280000003)] (r.mapDie 1 fun x => { x with l2 := [⟨2, 0, 0, 21, 5 * 2 ^ 31, 2, 9, 0, false, false, true, true, true, true, 0, 0⟩] })
    let c (d : Bool) := ((s.mapPkg fun p => { p with stations := [(5, ⟨0, 2, []⟩), (6, ⟨0, 0, []⟩)], routes := [(9, 0xFFDF)] }).allocate 0 (some 9) (5 * 2 ^ 31)
      ⟨d, 2048, false, List.replicate 64 7, none⟩)
    ran (exec (.reclaim 9 (kryt 4 3 4 2 33 0 5 0)) s) (fun t => (t.borrow 4).st == 3) = true ∧ r.pkg.peers = [] ∧
    ran (exec (.borrowerFlushDone 4) r) (fun t => (t.borrow 4).flushed && t.sent == [.krytyth 9 (kryt 5 3 4 2 33 0 5 6)]) = true ∧
    ran (exec (.borrowerFlushDone 4) s) (· == s) = true ∧
    (((c true).bay 0).lines.map (fun e => (decide (e.1 < 65536), decide (e.2.tag < 2 ^ 21), e.2.peer, e.2.addr e.1 0 / 2 ^ 31, (e.2.sectors e.1).map fun x => (x.1, x.2.dirty))) ==
      [(true, true, some 9, 5, [(5 * 2 ^ 31, true)])]) = true ∧ (c true).upStations = [5, 6] ∧ (c true).reaches 9 5 = false ∧ (c true).reaches 9 6 = true ∧
    ran (exec (.reclaim 9 (kryt 4 3 4 2 33 0 5 0)) (c false)) (fun t => (t.bay 0).lines == [] && (t.borrow 4).st == 3) = true ∧
    ran (exec (.pieceMoved 9 (kryt 6 3 4 2 33 0 5 0)) p) (fun t => (t.borrow 4).moved == 1 && ofLe (t.hbm.read false 0 0x7000 8) == 6 * 2 ^ 31 + 3 && (t.die 1).l2 == [] &&
      t.sent == [.krytyth 9 (kryt 7 3 4 2 33 0 5 0)]) = true := by decide +kernel
/-- The bytes that a copied piece sends are 2 MiB: its hypotheses are met here, its run is left to a proof. -/
theorem test_lender : let s (f : Bool) (m c : Nat) := lent { ls with st := 3, flushed := f, moved := m, copied := c } bw
    ran (exec (.flushed 9 (kryt 5 3 4 2 33 1 5 6)) (s false 0 0)) (fun t => (t.lease 3).flushed && (t.lease 3).fbk == 6) = true ∧
    (s true 0 3).lease 3 = { ls with st := 3, flushed := true, copied := 3 } ∧ ran (exec (.pieceCopyDone 3) (s true 0 4)) (fun t => t.sent == []) = true ∧
    ran (exec (.pieceAck 9 (kryt 7 3 4 2 33 0 5 0)) (s true 0 4)) (fun t => (t.lease 3).moved == 1) = true ∧
    ran (exec (.pieceAck 9 (kryt 7 3 4 2 33 1023 5 0)) (s true 1023 1024)) (fun t => (t.lease 3).st == 0 && t.owner 5 == 0xFF && t.sent == [.krytyth 9 (kryt 8 3 4 2 33 0 5 0)]) = true := by
  decide +kernel
theorem test_lease_ends : let s := { lent { ls with st := 3, since := 1 } { bw with st := 3, since := 1 } with cycle := reclaimLimit }
    let e := { s with cycle := reclaimLimit + 1 }
    (s.fn 2).evBuf = [] ∧ ran (exec (.done_ 9 (kryt 8 3 4 2 33 0 5 0)) s) (fun t => (t.borrow 4).st == 0 && (t.fn 2).evBuf.length == 1) = true ∧
    ran (exec (.done_ 9 (kryt 8 3 4 2 33 1 5 0)) s) (fun t => (t.borrow 4).st == 4) = true ∧
    ran (exec (.borrowerReclaimTimeout 4) s) (· == s) = true ∧ ran (exec (.borrowerReclaimTimeout 4) e) (fun t => (t.borrow 4).st == 4) = true ∧ s.pkg.held = [] ∧
    ran (exec (.release_ 9 (kryt 9 3 4 2 33 0 5 0)) s) (fun t => (t.lease 3).st == 0 && t.owner 5 == 0xFF) = true ∧
    ran (exec (.lenderReclaimTimeout 3) s) (· == s) = true ∧
    ran (exec (.lenderReclaimTimeout 3) e) (fun t => (t.lease 3).st == 0 && t.sent == [.krytyth 9 (kryt 8 3 4 2 33 1 5 0)] && (t.fn 0).evBuf.length == 1) = true := by decide +kernel
theorem test_host_registers : let s := base
    let w (fn bar off size : Nat) (v : W64) (p : State → Bool) : Bool := ran (exec (.hostRegisterWrite fn bar off size v) s) p
    s.deaf 63 = false ∧ s.deaf 0 = false ∧ s.noImage = false ∧ w 63 0 0xC0 8 0x100 (fun t => (t.lqOf 63 3).base == 0x100) = true ∧
    w 0 4 0x3F00C0 8 0x100 (fun t => (t.lqOf 63 3).base == 0x100) = true ∧ w 63 0 0xC0 8 1 (fun t => (t.fn 63).badAccess == 1 && (t.fn 63).evBuf.length == 1) = true ∧
    w 63 0 0x18 4 9 (fun t => (t.lqOf 63 0).pi == 9) = true ∧ w 63 0 0x200 8 0x3006 (fun t => (t.fn 63).evBase == 0x3000 && (t.fn 63).evSize == 6) = true ∧
    w 63 0 0x20C 4 9 (fun t => (t.fn 63).evCi == 9) = true ∧ w 63 0 0x1C 4 9 (fun t => (t.fn 63).badAccess == 1 && (t.fn 63).evBuf.length == 1) = true ∧
    w 63 0 0x128 4 9 (fun t => (t.fn 63).badAccess == 1) = true ∧ w 63 0 0x18 2 9 (fun t => (t.fn 63).badAccess == 1 && (t.fn 63).evBuf == []) = true ∧
    w 63 0 0x10000 8 9 (fun t => (t.fn 63).badAccess == 1) = true ∧ w 0 0 0x10028 8 1000 (fun t => t.pkg.pwrLimit == 1000) = true ∧
    ran (exec (.bar2WinWrite 63 15) s) (fun t => (t.fn 63).bar2Win == 15) = true ∧ ran (exec (.bar2WinWrite 63 16) s) (fun t => (t.fn 63).badAccess == 1) = true := by
  decide +kernel
theorem test_host_heap : let s := base
    let z := s.mapDie 0 fun x => { x with errFreeze := true }
    let q := s.mapFn 0 fun f => { f with resetting := true }
    let a := s.mapPkg fun p => { p with seqRun := some ⟨.genAdv 0 4 3 8, [0], [1]⟩ }
    s.deaf 0 = false ∧ s.frozen (dieOfPa 0xFFFC) = false ∧ (s.ctxOf 0).heapLimit.toNat = 0x10000 ∧
    ran (exec (.hostHeapWrite 0 0xFFFC 4 0x04030201) s) (fun t => t.hbm.read false 0 0xFFFC 4 == [1, 2, 3, 4]) = true ∧
    ran (exec (.hostHeapWrite 0 0xFFFD 4 0x04030201) s) (fun t => t.hbm == s.hbm && (t.fn 0).badAccess == 1) = true ∧
    ran (exec (.hostMemoryRead 0 0xFFFC 4) s) (fun t => t.sent == [.hostRead [0, 0, 0, 0]]) = true ∧
    ran (exec (.hostMemoryRead 0 0xFFFD 4) s) (fun t => t.sent == [.hostRead [0xFF, 0xFF, 0xFF, 0xFF]]) = true ∧
    z.frozen (dieOfPa 0xFFFC) = true ∧ ran (exec (.hostMemoryRead 0 0xFFFC 4) z) (fun t => t.sent.length == 1 && t.hbm == z.hbm) = true ∧
    s.beforeCut 0 0xFFFC 4 = false ∧ a.beforeCut 0 0xFFFC 4 = true ∧ ran (exec (.hostHeapWrite 0 0xFFFC 4 0x04030201) a) (· == a) = true ∧
    q.deaf 0 = true ∧ ran (exec (.hostHeapWrite 0 0xFFFC 4 0x04030201) q) (· == q) = true := by decide +kernel
theorem test_host_messages : let s := base.mapFn 3 fun f => { f with evBuf := [5], evBase := 0x1000, evSize := 6, evPi := 64, evCi := 1, evWb := 0x800, msixMask := [(0, false)], mbDrop := false }
    let b := s.mapFn 3 fun f => { f with mbInBusy := true, mbOutBusy := true, msixPend := [(6, true)] }
    (s.fn 3).evBuf = [5] ∧ (s.fn 3).evRoom = true ∧
    ran (exec (.eventRecordWrite 3) s) (fun t => Tbl.get 0 t.host 0x1000 == 5 && Tbl.get 0 t.host 0x800 == 65 && t.sent == [.msix 3 0] && (t.fn 3).evBuf == []) = true ∧
    (base.fn 3).evBuf = [] ∧ ran (exec (.eventRecordWrite 3) base) (· == base) = true ∧ s.deaf 3 = false ∧
    Tbl.get true (b.fn 3).msixMask 6 = true ∧ ran (exec (.msixUnmask 3 6) b) (fun t => t.sent == [.msix 3 6] && !(Tbl.get true (t.fn 3).msixMask 6)) = true ∧
    Tbl.get true (s.fn 3).msixMask 0 = false ∧ ran (exec (.msixUnmask 3 0) s) (· == s) = true ∧
    (s.fn 3).mbInBusy = false ∧ ran (exec (.mailboxSend 3 true 7) s) (fun t => (t.fn 3).mbIn == BitVec.ofNat 512 (7 * 2 ^ 448) && (t.fn 3).mbInBusy) = true ∧
    ran (exec (.mailboxSend 3 true 7) b) (fun t => (t.fn 3).mbDrop && t.sent == []) = true ∧ ran (exec (.mailboxSend 3 false 7) s) (fun t => (t.fn 3).mbOutBusy) = true ∧
    ran (exec (.mailboxSend 3 false 7) b) (fun t => (t.fn 3).mbDrop) = true ∧ ran (exec (.mailboxBusyClear 3 true) b) (fun t => !(t.fn 3).mbInBusy && (t.fn 3).mbOutBusy) = true := by
  decide +kernel
theorem test_host_reads : let s := (base.mapCore 0 fun x => { x with port := some 0 }).mapFn 3 fun f => { f with mbOutBusy := true, evPi := 9, badAccess := 2, bar2Win := 5 }
    let d := (s.mapStrand 0 fun x => { x with dbg := true, brkVal := 77 }).mapFn 0 fun f => { f with dbgCore := 0, dbgSel := 5 * 2 ^ 16 }
    let r (s : State) (k o n : Nat) : Nat := (s.registerRead k 0 o n).1
    s.noImage = false ∧ d.noImage = false ∧ s.registerRead 3 0 0x120 8 = (0, s) ∧ r s 3 0x18 4 = 0 ∧ r s 3 0x208 4 = 9 ∧ r s 3 0x500 4 = 2 ∧ r s 3 0x508 8 = 5 ∧
    r s 3 0x380 8 = 1 ∧ r s 3 0x430 4 = 2 ^ 32 - 1 ∧ ((s.registerRead 3 0 0x430 4).2.fn 3).badAccess = 3 ∧ r s 3 0x18 8 = 2 ^ 64 - 1 ∧ r s 0 0x10028 8 = 2800 ∧
    s.mayDebug 3 0 = false ∧ r s 3 0x420 8 = 0 ∧ d.mayDebug 0 0 = true ∧ (d.core 0).port = some 0 ∧ d.dbgStrands 0 0 1 = [0] ∧
    (s.strand 0).dbg = false ∧ r s 0 0x420 8 = 0 ∧ r d 0 0x420 8 = sc d 5 ∧ r d 0 0x428 8 = 77 := by decide +kernel
theorem test_debug : let s := base.mapCore 0 fun x => { x with port := some 0 }
    let d := (s.mapStrand 0 fun x => { x with dbg := true, brkLen := 8 }).mapFn 0 fun f => { f with dbgCore := 0, dbgSel := 5 * 2 ^ 16 }
    let sel (v : Nat) := d.mapFn 0 fun f => { f with dbgSel := BitVec.ofNat 64 v }
    s.mayDebug 0 0 = true ∧ s.mayDebug 1 0 = false ∧ ran (exec (.debugAttach 0 7) s) (fun t => (t.core 7).port == some 0) = true ∧
    ran (exec (.debugAttach 1 7) s) (· == s) = true ∧ (s.core 0).port = some 0 ∧ s.dbgStrands 0 0 1 = [0] ∧
    ran (exec (.debugHalt 0 1) s) (fun t => (t.strand 0).dbg && !(t.strand 1).dbg) = true ∧ ran (exec (.debugResume 0 1) d) (fun t => !(t.strand 0).dbg && pcOf t == 8) = true ∧
    ran (exec (.debugStep 0 1) d) (fun t => (t.strand 0).oneStep && pcOf t == 8) = true ∧ (base.core 0).port = none ∧ ran (exec (.debugHalt 0 1) base) (· == base) = true ∧
    s.deaf 0 = false ∧ ran (exec (.debugDataWrite 0 9) s) (· == s) = true ∧ (d.strand 0).dbg = true ∧ ran (exec (.debugDataWrite 0 9) d) (fun t => sc t 5 == 9) = true ∧
    ran (exec (.debugDataWrite 0 9) (sel (2 ^ 12 + 7 * 2 ^ 16))) (fun t => t.getP 0 7 == 9) = true ∧ ran (exec (.debugDataWrite 0 12) (sel (2 * 2 ^ 12))) (fun t => pcOf t == 12) = true ∧
    ran (exec (.debugDataWrite 0 9) (sel (64 * 2 ^ 16))) (fun t => (t.fn 0).badAccess == 1) = true := by decide +kernel
theorem test_resets : let s := ((aged 5 false false).mapFn 2 fun f => { f with evSize := 6, mbIn := 5, lq := [(1, lq)] }).mapPkg fun p => { p with flash0 := 1, flash1 := 1 }
    ran (exec (.vfFunctionLevelReset 2) s) (fun t => (t.fn 2).lq == [] && (t.fn 2).evSize == 0 && t.deaf 2 && t.ground == s.ground) = true ∧ s.deaf 0 = false ∧
    (s.mapFn 0 fun f => { f with resetting := true }).deaf 0 = true ∧
    [0, 1, 2, 3].all (fun d => (s.die d).tasks.isEmpty && (s.die d).syncWaits.isEmpty && (s.die d).pubs.isEmpty) = true ∧
    (s.die 0).bays = [] ∧ ran (exec (.dieReset 1) s) (fun t => t.hbm == s.hbm && (t.die 0).bays == [] && t.ground.raw 0x40 == 0 && t.ground.gran 0x40 == Gran.zero && (t.strand 9).sregs == [] && (t.die 1).twins == (s.die 1).twins &&
      (t.die 0).resetting && (t.group 0).any (·.fail.isSome)) = true ∧
    verifyStep (s.pkg.flash false) = 1 ∧ verifyStep (s.pkg.flash true) = 1 ∧
    ran (exec .devReset s) (fun t => t.groups == [] && t.strands == [] && t.hbm == State.reset.hbm && t.noImage && t.pkg.resetting) = true ∧
    ran (exec .coldReset s) (fun t => t.groups == [] && t.cores == [] && t.ground == State.reset.ground) = true ∧
    ran (exec .powerLoss s) (fun t => t.groups == [] && t.hbm == State.reset.hbm) = true ∧
    ran (exec (.resetEnd 0 2) (s.mapFn 2 fun f => { f with resetting := true })) (fun t => !(t.fn 2).resetting) = true ∧
    ran (exec (.resetEnd 1 3) (s.mapDie 3 fun x => { x with resetting := true })) (fun t => !(t.die 3).resetting) = true ∧
    ran (exec (.resetEnd 2 0) (s.mapPkg fun p => { p with resetting := true })) (fun t => !t.pkg.resetting) = true := by decide +kernel
theorem test_firmware_and_clock : let s := base.mapPkg fun p => { p with fwStage := 0x100, meas1 := 6, attNonce := 5 }
    let b := s.mapPkg fun p => { p with attBusy := true }
    let h := s.mapPkg fun p => { p with clock := 1500, pwrNow := 3000 }
    let w (power heat : Nat) := s.mapPkg fun p => { p with pwrNow := BitVec.ofNat 16 power, temps := [(2, BitVec.ofNat 16 heat)] }
    s.deaf 0 = false ∧ ran (exec (.fwCmd 1) (dwords [(0x110, 3), (0x100, 0xABCDEF)] s)) (fun t => t.pkg.flash1 == 1 + 0xABCDEF && t.pkg.flash0 == 0) = true ∧
    ran (exec (.fwCmd 0) s) (· == s) = true ∧ ran (exec (.fwCmd 2) s) (fun t => (t.fn 0).badAccess == 1) = true ∧
    ran (exec (.attCmd 1) s) (fun t => t.pkg.attBusy) = true ∧ ran (exec (.attCmd 1) b) (· == b) = true ∧ ran (exec (.attCmd 2) s) (fun t => (t.fn 0).badAccess == 1) = true ∧
    b.pkg.attBusy = true ∧ ran (exec .attestationReportDone b) (fun t => !t.pkg.attBusy) = true ∧ ran (exec .attestationReportDone s) (· == s) = true ∧
    s.pkg.clock = 3000 ∧ ran (exec (.clockStep true) s) (fun t => t.pkg.clock == 3000 && t.fns == s.fns) = true ∧
    ran (exec (.clockStep false) (w 2801 0)) (fun t => t.pkg.clock == 2900 && (t.fn 0).evBuf.length == 1) = true ∧
    ran (exec (.clockStep false) (w 2800 105)) (fun t => t.pkg.clock == 3000) = true ∧ ran (exec (.clockStep false) (w 0 106)) (fun t => t.pkg.clock == 2900) = true ∧
    ran (exec (.clockStep true) { h with pkg := { h.pkg with pwrNow := 2659 } }) (fun t => t.pkg.clock == 1600) = true ∧
    ran (exec (.clockStep true) { h with pkg := { h.pkg with pwrNow := 2660 } }) (fun t => t.pkg.clock == 1500) = true ∧
    ran (exec (.clockStep false) h) (fun t => t.pkg.clock == 1500) = true ∧
    ran (exec .thermalTrip (w 0 115)) (fun t => t.frozen 3 && (t.group 0).any (·.fail.isSome)) = true ∧ ran (exec .thermalTrip (w 0 114)) (fun t => !(t.frozen 3)) = true := by
  decide +kernel

/-! ### Clauses added after the review -/

/-- The record of the tests as its descriptor's bytes hold it; bytes in a row are distinct, and the tenancy may write them. -/
theorem test_tile_record : recordAt tensors (ment (.tdeq fx) 0x3000 0) (descOf 0x3000) 2 rec2 ∧
    sxW (sliceByte tensors (ment (.tchk fx) 0x2000 0) 0x2000).toNat = none := by unfold recordAt; decide +kernel
theorem row_nodup (o n : Nat) : ((List.range n).map (o + ·)).Nodup := List.nodup_range.map fun _ _ h => by simpa using h
theorem test_tile_rows : (∀ o n, ∀ a ∈ (List.range n).map (o + ·), tensors.allowedAt 0 0 (.ground (sliceAt 0 0)) a = true) ∧ (descOf 0x5000).off = 0x5000 :=
  ⟨fun _ _ _ _ => by rfl, by decide⟩
def half (t : State) (o : Nat) : Nat := ofLe ((List.range 2).map fun q => t.ground.byte false 0 (o + q))
theorem test_tquant : (let s := { mat (.tquant fx) (desc 0x4000 2) 0x5000 with ground := tensors.ground.write false 0 (cellsAt 0x4000 (leBytes 4 0x3F800000)) }
     mran s (fun t => let r := TRec.ofBytes 2 (t.ground.read false 0 0x5000 (recBytes 2))
      r.bad 2 == 0 && (fmt32.convert 0 false (r.val 2 0 0)).1 == 0x3F800000 && (r.val 2 1 0).isZero) = true) := by decide +kernel
theorem test_tdeq : mran (mat (.tdeq { fx with m := 1 }) 0x3000 (desc 0x4000 1)) (fun t => half t 0x4002 == 0xBE00 && half t 0x4000 == 0) = true := by decide +kernel
theorem test_ttrn_record : mran (mat (.ttrn fx) 0x3000 0x5000) (fun t => t.ground.read false 0 0x5000 (recBytes 2) == (rec2.transpose 2).toBytes 2) = true := by decide +kernel
theorem test_tunpk : mran (mat (.tunpk fx) 0x3400 0x5000) (fun t => let r := TRec.ofBytes 2 (t.ground.read false 0 0x5000 (recBytes 2))
      r.val 2 0 1 == rec2.val 2 0 1) = true := by decide +kernel
theorem test_tchk_packed : mran (mat (.tchk { fx with m := 1 }) 0x3400 0) (fun t => (t.strand 0).s 0 2 == 0x310000) = true := by decide +kernel
theorem test_gate : let p : Pred := ⟨1, false⟩
    gateOf (.ld { fm with pr := p }) = some p ∧ gateOf (.trap { fa with pr := p }) = some p ∧ gateOf (.vadd fv) = none ∧
    ran (exec (.ld { fm with pr := p }) base) (fun t => pcOf t == 8 && t.flight == []) = true := by decide +kernel
/-- Index 63 of a slot's registers; a counter of a core; a chip word of the owner table; the mask of a slot, of a window's second half. -/
theorem test_more_registers : let f (id : Nat) : FS := ⟨p0, .reg 3, .reg 1, BitVec.ofNat 16 id⟩
    let s := (withS base [(1, 63)]).mapCtx 63 fun x => { x with s2Root := 0x7000, maskC := 5, perfSel := [(7, 2)] }
    let w := (withS base [(1, 1)]).mapPkg fun p => { p with windows := [(0, ⟨9, 1, true, true, true, 1, 0⟩)], owner := [(1, 3)] }
    let c := (withS base [(1, 0)]).mapCore 0 fun x => { x with perf := [(3, ⟨5, 0, false⟩)] }
    let r (s : State) (id v : Nat) : Bool := ran (exec (.sysrd (f id)) s) fun t => sc t 3 == v
    r s 0x3019 0x7000 = true ∧ r s 0x3022 5 = true ∧ r s 0x3057 2 = true ∧ r w 0xA000 3 = true ∧ r w 0xA001 (1 + 2 + 4 + 8 + 9 * 512) = true ∧
    idSpace (f 0x4003).id = 2 ∧ sysCheck 0 (f 0x4003).id false (c.val (f 0x4003).a) = .ok (0, 0) ∧ perfFree (c.perfSelOf 0 0 3) = false ∧ r c 0x4003 5 = true := by decide +kernel
theorem test_sync_answers : let a (o : Nat) : Acc := { acc7 with why := .sync ⟨o, 0, 8, 6, 5, none, win, none⟩ 3, wsegs := [], dst := .none }
    let s := (flying (a 23)).syncPut 0 0 (.sram 0 8) ⟨9, 0x31⟩
    s.accOf 7 = some (a 23) ∧ s.mayPerform (a 23) = true ∧ s.syncBad (.sram 0 8) 0 = false ∧
    ran (exec (.syncOperationArrival 7) s) (fun t => t.flight.map (·.data) == [leBytes 8 0x31]) = true ∧
    ran (exec (.syncOperationArrival 7) (flying (a 21))) (fun t => t.flight.map (·.data) == [leBytes 8 0]) = true := by decide +kernel
/-- A literal past the bound is not read: PC stands right, sound and aligned. -/
theorem test_bound_of_code : let u := (base.withFetchWord 64 0).setPc 0 (2 ^ 16 - 4)
    (u.strand 0).pc.bad (u.tagOfStrand 0) = false ∧ (u.getPc 0).toNat % 4 = 0 ∧ (u.heapTriple 0 0).2.1 < (u.getPc 0).toNat + 8 := by decide +kernel
def badFpc (s : State) : State := s.mapStrand 0 fun x => { x with ctl := [(nFPC, ⟨0, s.tagOfStrand 0, true⟩)] }
/-- A poisoned FPC stops, as it starts, what takes its rounding mode from it. -/
theorem test_poisoned_fpc : let s := inVq flts (ent (.vadd f32))
    vTakesRm 0x40 f32 = true ∧ vTakesRm 0x40 fv = false ∧ (base.strand 0).ctlBad (base.tagOfStrand 0) nFPC = false ∧ (s.strand 0).ctlBad (tagOf 0 0) nFPC = false ∧
    ((badFpc base).strand 0).ctlBad (base.tagOfStrand 0) nFPC = true ∧ ran (exec (.vadd f32) (badFpc base)) (fun t => ran (exec (.vectorEntryStart 0) t) (trapped cUncorrectable)) = true ∧
    ran (exec (.tdeq fx) (badFpc (withS tensors [(1, 0x3000), (2, desc 0x4000 2)]))) (fun t => ran (exec (.matrixEntryStart 0) t) (trapped cUncorrectable)) = true := by decide +kernel
/-- VCMP.gt of 2 and 1, and of 0 and 0 in the other elements. -/
theorem test_float_compare : let i : Instr := .vcmp { f32 with vd := 1, vc := 4 * 2 ^ 4 }
    soundCase flts (0x54, i, 0) ∧ (((inVq flts (ent i)).strand 0).ctlBad (tagOf 0 0) nFPC = false) ∧
    vran (inVq flts (ent i)) (fun t => (t.strand 0).p 0 1 == 1) = true ∧ vcmpE 10 0 0x80000000 0 = (true, 0) ∧ vcmpE 10 6 0x7FC00000 0 = (true, 0) ∧
    vcmpE 10 2 0x7FC00000 0 = (false, 1) ∧ vcmpE 10 1 0x7F800001 0 = (true, 1) := by unfold soundCase aloneVec vecSound; decide +kernel
theorem test_float_operations : let n (a : Bool) (m : Nat) (e : Int) : FVal := .num a m e
    fmt32.add 0 (n false 1 0) (n false 2 0) = (0x40400000, 0) ∧ fmt32.add 3 (n false 1 0) (n true 1 0) = (0x80000000, 0) ∧
    fmt32.mul 0 (n true 3 0) (n false 1 1) = (0xC0C00000, 0) ∧ fmt32.fma 0 (n false 2 0) (n false 3 0) (n true 5 0) = (0x3F800000, 0) ∧
    fmt32.rcp 0 (n false 1 1) = (0x3F000000, 0) ∧ fmt32.sqrt 0 (n false 1 2) = (0x40000000, 0) ∧ fmt32.rsqrt 0 (n false 1 2) = (0x3F000000, 0) ∧
    fmt32.exp2 0 (n false 3 0) = (0x41000000, 0) ∧ fmt32.log2 0 (n false 1 3) = (0x40400000, 0) := by decide +kernel
theorem test_float_values : ratOf (.num false 1 0) + ratOf (.num false 2 0) = 3 ∧ asNum 3 3 0 ∧ ratOf (.num false 1 0) + ratOf (.num true 1 0) = 0 ∧
    ratOf (.num true 3 0) * ratOf (.num false 1 1) = -6 ∧ asNum (-6) 6 0 ∧ ratOf (.num false 3 0) = (3 : Int) ∧ ratOf (.num false 1 3) = 2 ^ (3 : Int) := by
  norm_num [ratOf, asNum]
/-- A wait whose time has run out ends with WATCHDOG whatever is posted or latched, and takes nothing. -/
theorem test_expired_wait : let w : Waiter := ⟨some 1, false, 2, 1, 3, 4, 8, 0, some 8⟩
    let s := { ((withS (withPeg base ⟨5, 4, 0⟩) [(1, 2), (2, 0x12)]).mapStrand 1 fun x => { x with st := .running, stall := 1 }).mapCore 0 fun x => { x with waiters := [w] } with cycle := 9 }
    s.expired w.deadline = true ∧ s.released 0 = true ∧ latchCode (s.val (.reg 2)) = true ∧ s.pegOk 0 2 = true ∧ s.tagOfStrand 0 = w.tag ∧
    ran (exec (.pegPost fy) s) (fun t => (t.core 0).waiters == [] && pegOf t == ⟨7, 4, 0⟩ && (t.strand 1).s 0 4 == 0x32) = true ∧
    ran (exec (.pegErr { fy with a := .reg 2 }) s) (fun t => (t.core 0).waiters == [] && (t.strand 1).s 0 4 == 0x32) = true := by decide +kernel
theorem test_copy_words : let s := withS base [(8, 5), (15, 7)]
    ran (exec (.cpy fc) s) (fun t => (first t).c 0 == 5 && (first t).c 7 == 7) = true ∧ (accepted.core 0).cq.map (·.cs) = [cpWords] := by decide +kernel
/-- The generation of the command's slot has advanced and its core has cut: an answer for it is discarded. -/
theorem test_old_answer : let a := { boxed.flight.headD acc7 with rsegs := [(.peer 9 0x80, 64)], id := 1 }
    let s := ({ boxed.mapPkg fun p => { p with peers := [req] } with flight := [a] }.mapCtx 0 fun x => { x with gen := 1 })
    s.oldAtCore 0 0 0 = true ∧ s.accOf 1 = some a ∧ a.core = 0 ∧ (s.pieceOf (0, 0, 0, 0)).isSome = true ∧
    ran (exec (.peerResponseArrival 3 0 0x201) s) (fun t => t.pkg.peers == [] && t.accOf 1 == none && (first t).code == cGenRetired && (first t).ended) = true := by decide +kernel
theorem test_walk_at_frozen_die : let s := (boxed.mapCtx 0 fun x => { x with s1Root := 0x10000 }).mapPkg fun p => { p with owner := [(0, 0)] }
    let s := s.mapDie 0 fun x => { x with errFreeze := true, walks := [⟨0, 0, 0x12345, true, 0, [(0, 0, 0, 0)], false⟩] }
    (match (s.walk 0 0 0 0x12345 true ⟨[], [], []⟩).1 with | .ok _ => false | .error f => f.cause == wContained) = true ∧ (s.pieceOf (0, 0, 0, 0)).isSome = true ∧
    ((s.die 0).walks[0]?).map (·.waiters) = some [(0, 0, 0, 0)] ∧ (first s).ended = false ∧
    ran (exec (.tableWalk 0 0) s) (fun t => (first t).ended && (first t).code == cContained && (t.die 0).walks == []) = true := by decide +kernel
/-- No image runs. -/
def imageless : State := base.mapPkg fun p => { p with fwStatus := 1 }
theorem test_no_image : imageless.noImage = true ∧ imageless.shut 5 = true ∧ imageless.shut 0 = true ∧ base.shut 5 = false ∧
    ran (exec (.responseRingDoorbell 5 true 9) imageless) (· == imageless) = true ∧ ran (exec (.mailboxSend 5 true 7) imageless) (· == imageless) = true ∧
    ran (exec (.mailboxBusyClear 5 false) imageless) (· == imageless) = true ∧ ran (exec (.msixUnmask 5 3) imageless) (· == imageless) = true ∧
    ran (exec (.hostMemoryRead 5 0 2) imageless) (fun t => t.sent == [.hostRead [0xFF, 0xFF]]) = true ∧
    ran (exec (.hostHeapWrite 5 0 2 9) imageless) (· == imageless) = true ∧ ran (exec (.debugAttach 0 7) imageless) (· == imageless) = true ∧
    base.ringEarly 0 0 = false ∧ base.frozen 0 = false := by decide +kernel
theorem test_borrow_staging : let w (o : Nat) (v : W64) (s : State) : Out := exec (.hostRegisterWrite 0 0 (0x30000 + 32 * 255 + o) 8 v) s
    let g : Staging := ⟨9, 255, 4, 0, 0, 7⟩
    let s := base.mapFn 0 fun f => { f with staged := some g }
    let o := base.mapFn 0 fun f => { f with staged := some { g with entry := 4 } }
    base.deaf 0 = false ∧ ran (w 0 (2 ^ 40) base) (fun t => (t.fn 0).staged.any fun g => g.entry == 255 && bit g.mask 0 && g.w0 == 2 ^ 40) = true ∧
    ran (w 16 7 base) (fun t => (t.fn 0).staged == some g && t.pkg == base.pkg) = true ∧
    ran (w 0 1 s) (fun t => (t.fn 0).staged == none && (t.fn 0).badAccess == 1) = true ∧
    ran (w 0 1 o) (fun t => (t.fn 0).staged == (o.fn 0).staged && (t.fn 0).badAccess == 1) = true := by decide +kernel
theorem test_jtag : let s := base.mapPkg fun p => { p with debugStrap := true }
    s.shut 64 = false ∧ ran (exec (.hostRegisterWrite 64 0 0x400 8 191) s) (fun t => (t.fn 64).dbgCore == 191 && t.fn 0 == s.fn 0) = true ∧ base.pkg.debugStrap = false ∧
    ran (exec (.hostRegisterWrite 64 0 0x400 8 191) base) (· == base) = true := by decide +kernel
theorem test_frames_not_frozen : savable.frameFrozen 0 0 0 = false ∧ restorable.frameFrozen 0 0 0 = false := by decide +kernel
/-- An access of the command is held on a record of die 0, whose cut ends the command. -/
theorem test_held_command_retires : let k : Copy := { first boxed with ins := .cpy { fc with post := 2, inc := 1 } }
    let s := { (boxed.mapCore 0 fun x => { x with cq := [k] }) with flight := [] }
    let s := ((s.mapCtx 0 fun x => { x with gen := 1 }).mapPkg fun p => { p with seqRun := some ⟨.genAdv 0 700 3 8, [0], List.range 192⟩ }).mapDie 0 fun x => { x with frecs := [frec] }
    s.heldAt 0 0 = [((0, 0, 0, 0), 0x2000)] ∧ s.copyOf 0 0 = some k ∧ k.slot = 0 ∧ k.quiet = false ∧ k.op = 0xA8 ∧ k.node = none ∧ s.objBad 0 (tagOf 0 0) false 2 = false ∧
    ((s.core 0).peg (tagOf 0 0) 2).latch = 0 ∧ (s.core 0).waiters = [] ∧ ((cutting [2] [1]).heldAt 2 1) = [] ∧
    ran (exec (.dieCut 0) s) (fun t => (t.copyOf 0 0).any (·.quiet) && ((t.core 0).peg (tagOf 0 0) 2).latch == cGenRetired) = true := by decide +kernel
/-- What an expiry does when a QPT waits already: nothing where it came at the same cycle. -/
theorem test_expiry_beside_qpt : let x : Tlbi := ⟨0, 5, 0, 0x20000, false, [], [0], 0⟩
    let b (q : Option Nat) : State := { (boxed.mapCore 0 fun y => { y with qpt := true, qptAt := q }).mapPkg fun p => { p with tlbis := [x] } with cycle := 300000, flight := [] }
    (b (some 300000)).midBox 0 = true ∧ ran (exec (.tlbiWatchdogExpiry 0 0) (b (some 300000))) (· == b (some 300000)) = true ∧
    ran (exec (.tlbiWatchdogExpiry 0 0) (b (some 299999))) (fun t => (t.core 0).forced == [0] && (t.core 0).qpt) = true := by decide +kernel
theorem test_launch_waits : base.performedTo 0 4 = true ∧ base.placeFrozen (.hbm (4 * 64)) = false ∧ { base with flight := [{ acc7 with scope := 4 }] }.performedTo 0 4 = false := by decide +kernel

/-! ### Witnesses of the wider clauses: memory -/

theorem test_event_record : let f : FA := ⟨p0, 0, .reg 3, .imm 63, .imm 5, .imm 0⟩
    let ring := base.mapFn 0 fun x => { x with evSize := 6, evBase := 0x1000, evWb := 0x8000, evPi := 65 }
    base.ready f.pr (opdRegs [f.a, f.b]) [f.d.dest] = true ∧ (ring.fn 0).evRoom = false ∧
    (let r := ring.mapFn 0 fun x => { x with evCi := 64 }
     (r.fn 0).evRoom = true ∧ (r.fn 0).evBuf = [] ∧ r.performedTo 0 4 = true ∧ ran (exec (.evpost f) r) (fun t => t.hostRead 0x8000 8 == leBytes 8 66 &&
       t.hostRead 0x1040 64 == [2, 0, 63, 0, 0, 0, 0, 0, 5, 0, 0, 0, 0, 0, 0, 0] ++ leBytes 8 r.ref.toNat ++ List.replicate 40 0) = true) := by decide +kernel
/-- Handle 1 is sound and has 64 bytes in HBM; handle 2 has no buffer. -/
theorem test_wide_addresses : let s := twinned pub
    let r := base.mapCtx 0 fun x => { x with maskA := 3 }
    let b := s.mapDie 0 fun y => { y with twins := [(1, ⟨⟨4, true, 1, 64, 0x100, 0x200⟩, 0, true⟩)] }
    r.maskBit 0 1 = true ∧ r.resolve 0 false 1 (2 ^ 21 + Config.sliceBytes - 8) 9 = trapAt cBound (2 ^ 21 + Config.sliceBytes - 8) ∧
    base.resolve 0 true 1 (Config.sliceBytes - 1) 2 = trapAt cBound (Config.sliceBytes - 1) ∧
    (twinOf s 0).loc = 1 ∧ s.twinBad 0 0 1 0 = false ∧ s.resolve 0 false 4 (2 ^ 32 + 56) 8 = .ok ⟨.twin 1 56, 2⟩ ∧
    s.resolve 0 false 4 (2 ^ 32 + 57) 8 = trapAt cBound (2 ^ 32 + 57) ∧ s.resolve 0 false 4 (2 ^ 33) 1 = trapAt cBound (2 ^ 33) ∧
    s.resolve 0 false 4 (2 ^ 42) 1 = trapAt cBound (2 ^ 42) ∧ b.twinBad 0 0 1 0 = true ∧
    b.resolve 0 false 4 (2 ^ 32) 8 = trapAt cUncorrectable (2 ^ 32) := by decide +kernel
theorem test_fence_operands : let s := withS base [(1, 1023), (2, 2 ^ 16)]
    let f : FM := { fm with ty := 3, spc := 2 }
    s.ready f.pr (opdRegs [f.a]) [f.d.dest] = true ∧ s.inTask 0 = false ∧ ran (exec (.pref f) s) (fun t => pcOf t == 8 && t.hbm == s.hbm) = true ∧
    ran (exec (.fence { f with ty := 5 }) s) (trapped cOperand) = true ∧ ran (exec (.fence { f with a := .reg 2 }) s) (trapped cOperand) = true := by
  decide +kernel
theorem test_remote_stores : let a : Acc := { acc7 with dst := .ground (Config.sliceBytes + 62), data := [1, 2, 3, 4], wsegs := [(.ground (Config.sliceBytes + 62), 4)], n := 4 }
    let s := (flying a).mapCtx 0 fun x => { x with maskA := 3 }
    s.accOf 7 = some a ∧ s.mayPerform a = true ∧ a.dst.onCore a.core = false ∧ s.placeFrozen a.dst = false ∧ s.commitsAt a.dst 4 = [] ∧
    s.remoteOk 0 0 a.dst = true ∧ (∀ i, i < 4 → s.cutAt 0 0 a.dst i = false) ∧ ran (exec (.memoryAccessArrival 7) s) (· == s) = true ∧
    ran (exec (.groundRemoteArrival 7) s) (fun t => t.ground.read false 0 (Config.sliceBytes + 62) 4 == [1, 2, 3, 4] && t.flight == []) = true := by decide +kernel

/-! ### Vectors -/

theorem test_min_max_round : (fmt32.decode 0x80000000).isZero = true ∧ fpPick fmt32 false 0 0x80000000 = (0x80000000, 0) ∧ fpPick fmt32 true 0 0x80000000 = (0, 0) ∧
    fpPick fmt32 false 0x7F800001 0x3F800000 = (0x3F800000, 1) ∧ fpPick fmt32 true 0x7FC00000 0x7FC00001 = (0x7FC00000, 0) ∧
    vroundE 10 0 0x40200000 = (0x40000000, 0) ∧ vroundE 10 2 0x40200000 = (0x40400000, 0) ∧ vroundE 10 1 0xBF000000 = (0x80000000, 0) ∧
    vroundE 10 4 0xC0200000 = (0xC0400000, 0) ∧ vroundE 10 0 0x7F800001 = (0x7FC00000, 1) := by decide +kernel
/-- R137 to R139: 1e30 overflows FP16, saturated or not; 300 saturates I8 with NV; 2.5 becomes 2 with NX; -1 saturates U8. -/
theorem test_conversions : satmOk 8 10 1 = true ∧ satmOk 12 10 0 = true ∧ satmOk 12 10 2 = true ∧ vcvtE 8 10 0 0 0x7149F2CA = (0x7C00, 20) ∧ vcvtE 8 10 0 1 0x7149F2CA = (0x7BFF, 20) ∧
    vcvtE 12 10 0 0 0x7F800000 = (0x7E, 16) ∧ vcvtE 12 10 0 2 0x7F800000 = (0x7F, 16) ∧ vcvtE 13 10 0 2 0x7F800000 = (0x7C, 0) ∧
    vcvtE 10 8 0 0 0x3E00 = (0x3FC00000, 0) ∧ vcvtE 10 10 0 1 0x7F800000 = (0x7F800000, 0) ∧ vcvtE 10 10 0 0 0x7F800001 = (0x7FC00000, 1) ∧
    vcvtE 10 4 0 0 (2 ^ 32 - 5) = (0xC0A00000, 0) ∧ vcvtE 0 10 0 0 0x43960000 = (127, 1) ∧ vcvtE 4 10 0 0 0x40200000 = (2, 16) ∧
    vcvtE 1 10 0 0 0xBF800000 = (0, 1) ∧ vcvtE 4 10 0 0 0x7FC00000 = (0, 1) := by decide +kernel
/-- Six and three elements of I32 and FP32: sums, an empty mask, an infinity beside its opposite. -/
theorem test_reductions : let v : VReg := BitVec.ofNat 2048 (11 * 2 ^ 96 + 7 * 2 ^ 32 + 6)
    let x : VReg := BitVec.ofNat 2048 (0xFF800000 * 2 ^ 64 + 0x3F800000 * 2 ^ 32 + 0x7F800000)
    vreduceE 4 0 0 0xB v = (24, 0) ∧ vreduceE 4 0 1 0 v = (2 ^ 31 - 1, 0) ∧ vreduceE 10 0 1 0 v = (0x7F800000, 0) ∧ vreduceE 10 0 0 7 x = (0x7FC00000, 1) ∧
    vreduceE 10 0 0 2 x = (0x3F800000, 0) ∧ (scanE 4 0 0 v none [0, 1, 3]).map (fun y => (y.1, y.2.1)) = [(0, 6), (1, 13), (3, 24)] ∧
    scanUpTo (combines 4 0 0) (fun j => if j < 2 then some (elem 32 v j) else none) 2 = some 13 := by decide +kernel
/-- R351 beside 1: 2 × 3; infinity × 0; opposite infinities; a signalling NaN; a sum of 0. -/
theorem test_dots : vdotE 8 0 false 0x3F800000 [(0x4000, 0x4200)] = (0x40E00000, 0) ∧ vdotE 8 0 false 0x3F800000 [(0x7C00, 0)] = (0x7FC00000, 1) ∧
    vdotE 8 0 false 0xFF800000 [(0x7C00, 0x3C00)] = (0x7FC00000, 1) ∧ vdotE 8 0 false 0x3F800000 [(0x7C00, 0xC000)] = (0xFF800000, 0) ∧
    vdotE 8 0 false 0x3F800000 [(0x7C01, 0)] = (0x7FC00000, 1) ∧ vdotE 8 0 false 0xBF800000 [(0x3C00, 0x3C00)] = (0, 0) := by decide +kernel
/-- An entry of the memory instruction `i` on 32-bit elements, address `x` and mask 1, beside its access. -/
def vmem (i : Instr) (st : Bool) (x : Nat) : State :=
  let s := withV (twinned pub) (ints ++ [(6, 8)])
  { s.mapCore 0 fun y => { y with vq := [{ ent i with a := BitVec.ofNat 64 x, mask := 1, acc := 7 }] } with
    flight := [{ acc7 with why := .vec st, data := [], rsegs := [], wsegs := [] }], nextId := 8 }
/-- The places of the access that the entry makes at its start. -/
def places (s : State) (x : Place) : Bool :=
  ran (exec (.vectorEntryStart 0) s) fun t => t.flight.map (fun y => (y.id, y.ord, y.src, y.dst)) == [(8, 7, x, x)] &&
    (t.core 0).vq.map (·.started.map List.length) == [some 1]
theorem test_vector_places : let g (spc : Nat) : FV := { fv with vc := BitVec.ofNat 8 (0x20 + spc), bc := .reg 1, vb := 6 }
    let h : FV := { g 0 with va := 2 }
    lanes 1 32 = [0] ∧ (vmem (.vldx (g 0)) false 0x100).vecCheck 0x62 0 (g 0) = .ok () ∧ (vmem (.vstx (g 1)) true 0x100).vecCheck 0x63 0 (g 1) = .ok () ∧
    (vmem (.vldh h) false (desc 0x1000 1)).vecCheck 0x64 0 h = .ok () ∧ (vmem (.vsth h) true (desc 0x1000 1)).vecCheck 0x65 0 h = .ok () ∧
    (vmem (.vld (g 4)) false 0x100).vecCheck 0x60 0 (g 4) = .ok () ∧ descCheck (BitVec.ofNat 64 (desc 0x1000 1)) = .ok ⟨0, 0, 1, 0x1000⟩ ∧
    places (vmem (.vldx (g 0)) false 0x100) (.ground 0x108) = true ∧ places (vmem (.vldx (g 2)) false 0x100) (.hbm 0x108) = true ∧
    places (vmem (.vldx (g 4)) false (2 ^ 32)) (.twin 1 8) = true ∧ places (vmem (.vld (g 4)) false (2 ^ 32 + 4)) (.twin 1 4) = true ∧
    places (vmem (.vstx (g 1)) true 0x100) (.ground 0x108) = true ∧ places (vmem (.vst (g 0)) true 0x100) (.ground 0x100) = true ∧
    places (vmem (.vldh h) false (desc 0x1000 1)) (.ground 0x1020) = true ∧ places (vmem (.vsth h) true (desc 0x1000 1)) (.ground 0x1020) = true := by
  decide +kernel
/-- An element in the core's own slice, loaded and stored at the end of its entry. -/
theorem test_own_elements : let f : FV := { fv with vc := 0x20, bc := .reg 1 }
    let e (i : Instr) (w : Wr) : Ent := { ent i with a := 0x100, mask := 1, acc := 7, started := some [w] }
    let y : Acc := { acc7 with id := 8, ord := 7, why := .vld 7 (base.vregIx 0 9) 0 32, src := .ground 0x100, dst := .ground 0x100, data := [], n := 4, rsegs := [], wsegs := [] }
    let z : Acc := { y with why := .vst, data := [1, 2, 3, 4] }
    let l := e (.vld f) (.load (base.vregIx 0 9) 0 32 (.ground 0x100))
    let s : State := { inVq ints l with flight := [y], nextId := 9, ground := base.ground.write false 0 (cellsAt 0x100 [5, 6, 7, 8]) }
    let u : State := { inVq ints (e (.vst f) (.store (.ground 0x100) [1, 2, 3, 4])) with flight := [z], nextId := 9 }
    s.accOf 7 = none ∧ s.vecAccs l = [y] ∧ y.dst.onCore 0 = true ∧ s.placeFrozen y.dst = false ∧ s.commitsAt y.dst 4 = [] ∧ s.mayPerform y = true ∧
    (∀ i, i < 4 → s.cutAt 0 0 y.dst i = false) ∧ s.poisonAt 0 0 y.src 4 = false ∧ u.mayPerform z = true ∧
    ran (exec (.vectorEntryComplete 0) s) (fun t => elem 32 (t.vregOf l 9) 0 == 0x08070605 && (t.core 0).vq == []) = true ∧
    ran (exec (.vectorEntryComplete 0) u) (fun t => t.ground.read false 0 0x100 4 == [1, 2, 3, 4] && (t.core 0).vq == []) = true := by decide +kernel

/-! ### Bobbins and the matrix engine -/

theorem test_bobbin_operands : let o : Bob := ⟨0x100, 2, 4, 6, 5, 3, 0⟩
    let s (v : Nat) := withS (withBob base o) [(1, v)]
    let r := withS (withBob base ⟨0, 0, 0, 0, 0, 0, 0⟩) [(1, geom + 2 ^ 56)]
    bits (geom + 2 ^ 56) 56 8 ≠ 0 ∧ r.ready fy.pr (opdRegs [fy.a]) [] = true ∧ ran (exec (.bbSet fy) r) (trapped cEncoding) = true ∧
    ran (exec (.bbFill fy) (s 5)) (trapped cOperand) = true ∧ ran (exec (.bbFree fy) (s 5)) (trapped cOperand) = true ∧
    (s 5).ready fy.pr (opdRegs [fy.a, fy.b]) [fy.d.dest] = true ∧ ran (exec (.bbClaim fy) (s 5)) (trapped cOperand) = true ∧
    ran (exec (.bbTake fy) (s 5)) (trapped cOperand) = true ∧ ran (exec (.bbTakeAt fy) (s 2)) (trapped cOperand) = true := by decide +kernel
/-- Core 0 with `i` alone in the matrix queue, bank 0 and template 3. -/
def tensor (i : Instr) (a b : Nat) (k : Bank) (t : Nat) (m : List (Nat × List Byte)) : State :=
  { base.mapCore 0 fun x => { x with banks := [(0, ⟨k, 0, false⟩)], tplA := [(3, ⟨BitVec.ofNat 256 t, 0, false⟩)], mq := [ment i a b] } with
    ground := m.foldl (fun g x => g.write false 0 (cellsAt x.1 x.2)) base.ground }
/-- 1.5 and −2^-1000 in an ACC.F bank. -/
def wideBank : Bank := ⟨[(0, BitVec.ofNat 128 (0x3FFF8 * 2 ^ 108)), (1, BitVec.ofNat 128 ((2 ^ 15 + 15383) * 2 ^ 112))], 3, false, false, false⟩
theorem test_wide_banks : let r (i : Instr) (v : Nat) (p : Bank → Bool) : Bool := mran (tensor i 0 v wideBank 0 []) fun t => p (bank t)
    r (.mscale fx) (2 ^ 64 - 1) (fun k => k.el 0 == 0x3FFE8 * 2 ^ 108 && k.el 1 == (2 ^ 15 + 15382) * 2 ^ 112 && !k.inexact && !k.ovf && k.anchor == 3) = true ∧
    r (.mscale fx) 32767 (fun k => k.el 0 == 0x7FFF * 2 ^ 112 && k.ovf) = true ∧
    ran (exec (.matrixEntryStart 0) (tensor (.mscale fx) 0 32768 wideBank 0 [])) (trapped cOperand) = true ∧
    ran (exec (.matrixEntryStart 0) (tensor (.mscaleRebase fx) 0 0 wideBank 0 [])) (trapped cOperand) = true ∧
    mran (mat (.mscaleRebase fx) 0 43) (fun t => bank t == ⟨[(1, 1)], 43, true, false, true⟩) = true ∧
    ran (exec (.matrixEntryStart 0) (mat (.mscaleRebase fx) 0 32768)) (trapped cOperand) = true := by decide +kernel
/-- These entries are alone in their queue and pass their checks, MHAD of an ACC.F bank and MDRAIN of a good template among them. -/
def wideCases : List (Instr × Nat × Nat × Nat) :=
  let t (o : Nat) : Nat := 6 + 6 * 16 + o * 256 + 2 ^ 18
  [(.mhad fx, 0, 0, 0), (.mscale fx, 0, 3, 0), (.mmaz fx, desc 0x1000 1, desc 0x2000 1, 2 + 2 * 16 + 2 ^ 18), (.mma fx, desc 0x1000 1, desc 0x2000 1, 2 + 2 * 16 + 2 ^ 18),
   (.mdrain fx, desc 0x4000 2, 0, t 6), (.mdrainv fx, 8, 0, t 1), (.mdrainv { fx with m := 1 }, 8, 0, t 5)]
def wideAlone (x : Instr × Nat × Nat × Nat) : Prop :=
  let s := tensor x.1 x.2.1 x.2.2.1 wideBank x.2.2.2 []
  aloneMat s 0 (ment x.1 x.2.1 x.2.2.1) (fxOf x.1) ∧ (s.matStart (ment x.1 x.2.1 x.2.2.1)).isOk = true
theorem test_wide_entries_alone : ∀ x ∈ wideCases, wideAlone x := by unfold wideAlone aloneMat; decide +kernel
/-- FP16 1.5 × 2 into ACC.F, and a record of width 2 by its transpose into ACC.X; E5M2 starts. -/
theorem test_products_of_formats :
    mran (tensor (.mmaz fx) (desc 0x1000 1) (desc 0x2000 1) wideBank (2 + 2 * 16 + 2 ^ 18) [(0x1000, leBytes 2 0x3E00), (0x2000, leBytes 2 0x4000)])
      (fun t => bank t == ⟨[(0, BitVec.ofNat 128 (0x40008 * 2 ^ 108))], 0, false, false, false⟩) = true ∧
    ((tensor (.mmaz fx) (desc 0x1000 1) (desc 0x2000 1) wideBank (5 + 5 * 16 + 2 ^ 18) [(0x1000, [0x7C])]).matStart (ment (.mmaz fx) (desc 0x1000 1) (desc 0x2000 1))).isOk = true ∧
    mran (tensor (.mmaz fx) 0x1000 0x2000 wideBank (8 + 8 * 16 + 2 ^ 18) [(0x1000, rec2.toBytes 2), (0x2000, (rec2.transpose 2).toBytes 2)])
      (fun t => (bank t).x && (bank t).anchor == BitVec.ofInt 16 (2 * (127 - 128) + 40) && (bank t).el 0 == 9) = true := by decide +kernel
/-- 1.5, −2^-1000 and zeros of ACC.F to FP32 transposed, to I8, and to E4M3 saturated; 5 × 2^120 of ACC.X to FP16. -/
theorem test_drains : let t (o : Nat) := 6 + 6 * 16 + o * 256 + 2 ^ 18
    let d (f : FX) (o : Nat) (k : Bank) (x : Nat) (p : State → Bool) : Bool := mran (tensor (.mdrain f) (desc 0x4000 2) 0 k (t o + x * 2 ^ 32) []) p
    let flags (u : State) : Nat := ((u.strand 0).ctlReg 0 nFPC).toNat % 32
    mran (tensor (.mdrainv { fx with m := 1 }) 8 0 wideBank (t 1 + 2 ^ 32) [])
      (fun u => elem 32 (u.vregOf (ment .sweepPassEnd 0 0) 8) 0 == 0x40400000 && elem 32 (u.vregOf (ment .sweepPassEnd 0 0) 8) 16 == 0x80000000 && flags u == 24) = true ∧
    d fx 6 wideBank 0 (fun u => u.ground.byte false 0 0x4000 == 2 && flags u == 16) = true ∧
    d fx 4 wideBank 100 (fun u => u.ground.byte false 0 0x4000 == 0x7E && flags u == 28) = true ∧
    mran (tensor (.mdrainv fx) 8 0 ⟨[(1, 5)], 40, true, false, false⟩ (t 2 + 2 ^ 32 * 120) [])
      (fun u => elem 16 (u.vregOf (ment .sweepPassEnd 0 0) 8) 1 == 0x7C00 && flags u == 20) = true := by decide +kernel
/-- R149: 1, −3, an infinity, a NaN, and zeros. -/
theorem test_quantizer : let q (w : Nat) (l : List FVal) := quantize w (l ++ List.replicate (256 - l.length) (.num false 0 0))
    let r := (q 4 [.num false 1 0, .num true 3 0]).1
    r.fmt = 0x35 ∧ r.e = 122 ∧ r.field 4 0 % 16 * 2 ^ (r.rowx % 4 + r.colx % 4) = 2 ^ 8 ∧ (q 4 [.num false 1 0, .num true 3 0]).2 = 0 ∧
    r.field 4 1 = 16 + 12 ∧ (q 2 [.inf true]).2 = 16 ∧ (q 2 [.inf true]).1.field 2 0 = 7 ∧ (q 7 [.nan false]).1.e = 255 ∧ (q 7 [.nan false]).2 = 1 ∧
    (q 7 []).1.e = 0 ∧ (q 7 []).2 = 0 := by decide +kernel

/-! ### Copies of every kind -/

/-- Cores 0 and 1 in slot 0's mask; handle 1 (shadow 0x100, visible 0x200); multicast group 2 of devices 9 and 5 at window 0; indices 64 and 0 at
0x800, a record at 0x3000 of the slice and 0x6000 of the heap. -/
def copyBase : State :=
  let x : Tagged Twin := ⟨⟨4, false, 1, 64, 0x100, 0x200⟩, 0, false⟩
  let s := [0, 1, 2, 3].foldl (fun s d => s.mapDie d fun y => { y with
    twins := [(1, x)], mcast := [(2, ⟨BitVec.ofNat 256 (2 + 9 * 2 ^ 32 + 5 * 2 ^ 42), 0, false⟩)] }) ((synced 64).mapCtx 0 fun x => { x with maskA := 3 })
  { s with hbm := s.hbm.write false 0 (cellsAt 0x6000 (rec2.toBytes 2))
           ground := (s.ground.write false 0 (cellsAt 0x800 [64, 0, 0, 0])).write false 0 (cellsAt 0x3000 (rec2.toBytes 2)) }
/-- The command with the specification `w`, accepted; its first box started. -/
def given (i : Instr) (w : List Nat) : State :=
  next? (exec (.copyAccept 0) (copyBase.mapCore 0 fun x => { x with cq := [{ cmd with ins := i, cs := w.map (BitVec.ofNat 64) }], cmdSeq := 1 }))
def box1 (i : Instr) (w : List Nat) : State := next? (exec (.copyBoxStart 0 0) (given i w))
/-- The box may start, and its accesses read and write there. -/
def starts (i : Instr) (w : List Nat) (l : List (List (Place × Nat) × List (Place × Nat))) : Bool :=
  let s := given i w
  let k := first s
  s.copyOf 0 0 == some k && k.open_ == [] && !k.poison && k.raw == 0 && k.rot == 0 && s.mayStart 0 k && (box1 i w).flight.map (fun a => (a.rsegs, a.wsegs)) == l
theorem test_boxes_of_kinds : let one (x y : Place) (n : Nat) : List (List (Place × Nat) × List (Place × Nat)) := [([(x, n)], [(y, n)])]
    let t : Nat := 1 + 0x31 * 2 ^ 24
    starts (.cpy fc) [0x3000, 2 ^ 21 + 0x80, 2 ^ 32 + 8, 0x10, 0, 0, 0, 0] (one (.ground 0x3000) (.ground (Config.sliceBytes + 0x80)) 8) = true ∧
    starts (.cpy fc) [2 ^ 32, 0x2000, 2 ^ 32 + 8, 4, 0, 0, 0, 0] (one (.hbm 0x200) (.ground 0x2000) 8) = true ∧
    starts (.cpy fc) [0x3000, 2 ^ 32 + 8, 2 ^ 32 + 8, 0x40, 0, 0, 0, 0] (one (.ground 0x3000) (.hbm 0x108) 8) = true ∧
    starts (.cpyG fc) [0x6000, 0x4000, 2 + 3 * 2 ^ 24, 2, 0x800, 0, 0, 0] (one (.hbm 0x6040) (.ground 0x4000) 8 ++ one (.hbm 0x6000) (.ground 0x4008) 8) = true ∧
    starts (.cpyS fc) [0x4000, 0x4000, 2 + 3 * 2 ^ 24, 0x10, 0x800, 0, 0, 0] (one (.ground 0x4000) (.ground 0x4040) 8 ++ one (.ground 0x4008) (.ground 0x4000) 8) = true ∧
    starts (.cpyR fc) [0x3000, 0x6000, 1 + 4 * 2 ^ 24, 0x20, 0, 0, 0, 0] (one (.ground 0x3000) (.hbm 0x6000) 4) = true ∧
    starts (.cpyM fc) [0x3000, 0x4000, 8, 0, 0, 2, 0, 0] [([(.ground 0x3000, 8)], [(.peer 9 0x4000, 8), (.peer 5 0x4000, 8)])] = true ∧
    starts (.cpyR { fc with km := 8 }) [0x3000, 0x4000, 1 + 4 * 2 ^ 24, 0, 0, 2, 0, 0] [([(.ground 0x3000, 4)], [(.peer 9 0x4000, 4), (.peer 5 0x4000, 4)])] = true ∧
    starts (.cpyW fc) [0x3000, 0x2000, 8, 0x20, 8, 0, 1, 0] (one (.ground 0x3000) (.hbm 0x2000) 8) = true ∧
    starts (.cpyF fc) [0, 0x2004, 2 ^ 32 + 10, 0x20, 0x0807060504030201, 0, 0, 0] [([], [(.hbm 0x2004, 10)])] = true ∧
    (box1 (.cpyF fc) [0, 0x2004, 2 ^ 32 + 10, 0x20, 0x0807060504030201, 0, 0, 0]).flight.map (·.data) = [[1, 2, 3, 4, 5, 6, 7, 8, 1, 2]] ∧
    starts (.cpyT fc) [0x6000, 0x8000, t, 2, 128, 128, 0, 0] [([(.hbm 0x6000, 128)], [])] = true ∧
    starts (.cpyT { fc with km := 1 }) [0x6000, 0x8000, t, 2, 0x9000, 128, 0, 0] [([(.hbm 0x6000, 8)], [])] = true ∧
    starts (.cpyT fc) [0x6000, 0x8000, 1, 2, 128, 288, 0, 0] [([(.hbm 0x6000, 1)], [])] = true ∧
    starts (.cpyTs fc) [0x3000, 0x8000, t, 0x20, 128, 128, 0, 0] [([(.ground 0x3000, 128)], [])] = true ∧
    (let s := given (.cpyG fc) [0x6000, 0x4000, 2 + 3 * 2 ^ 24, 2, 0x800, 0, 0, 0]
     copyItem s 0 (first s) 0 = (0x6040, 0x4000, 8) ∧ sidePlace s 0 (first s) false 2 0x6040 8 = some (.hbm 0x6040) ∧ sidePlace s 0 (first s) true 0 0x4000 8 = some (.ground 0x4000)) := by
  decide +kernel
/-- The first access of the first box, and what stands at `y` when it has read and written; a tile's box then starts its write. -/
def moved (i : Instr) (w : List Nat) (y : Place) (p : State → List Byte → Bool) : Bool :=
  let s := box1 i w
  let go (s : State) (l : List (Place × Nat)) : State := s.flight.head?.elim s fun a => l.head?.elim s fun x => next? (exec (comesTo 0 a.id x.1) s)
  let a := s.flight.headD acc7
  let t := go s a.rsegs
  let u := if (first t).tile then (let z := next? (exec (.copyBoxStart 0 0) t); go z (z.flight.headD acc7).wsegs) else go t a.wsegs
  reach s (first s) y a.n && !s.redWaits a && p u ((List.range 4).map fun i => u.byteAt 0 y i)
where reach (s : State) (k : Copy) (x : Place) (n : Nat) : Bool := x.ours && !s.placeFrozen x && s.remoteOk k.slot 0 x && s.commitsAt x n == []
theorem test_copies_of_kinds : let t : Nat := 1 + 0x31 * 2 ^ 24
    let has (l : List Byte) : State → List Byte → Bool := fun _ d => d == l
    moved (.cpy fc) [0x3000, 2 ^ 21 + 0x80, 2 ^ 32 + 8, 0x10, 0, 0, 0, 0] (.ground (Config.sliceBytes + 0x80)) (has [0x31, 127, 4, 0]) = true ∧
    moved (.cpy fc) [2 ^ 21 + 0x80, 2 ^ 32 + 8, 2 ^ 32 + 8, 0x41, 0, 0, 0, 0] (.hbm 0x108) (has [0, 0, 0, 0]) = true ∧
    moved (.cpyF fc) [0, 0x2004, 2 ^ 32 + 10, 0x20, 0x0807060504030201, 0, 0, 0] (.hbm 0x2004) (has [1, 2, 3, 4]) = true ∧
    moved (.cpyR fc) [0x3000, 0x6000, 1 + 4 * 2 ^ 24, 0x20, 0, 0, 0, 0] (.hbm 0x6000) (has [0x62, 254, 8, 0]) = true ∧
    moved (.cpyR { fc with km := 5 }) [0x3000, 0x6000, 1 + 4 * 2 ^ 24, 0x20, 0, 0, 0, 0] (.hbm 0x6000) (has [0, 0, 0, 0]) = true ∧
    moved (.cpyR { fc with km := 2 }) [0x3004, 0x6000, 1 + 4 * 2 ^ 24, 0x20, 0, 0, 0, 0] (.hbm 0x6000) (has [0x31, 127, 4, 0]) = true ∧
    moved (.cpyT fc) [0x6000, 0x8000, t, 2, 128, 128, 0, 0] (.ground 0x8000) (has [0x31, 127, 4, 0]) = true ∧
    moved (.cpyT { fc with km := 2 }) [0x6000, 0x8000, t, 2, 128, 128, 0, 0] (.ground 0x8000) (has [0x31, 127, 0, 0]) = true ∧
    moved (.cpyT fc) [0x6020, 0x8000, t, 2, 128, 128, 0, 0] (.ground 0x8000) (fun u d => d == [0, 0, 0, 0] && (first u).tileBad == some 0 && (first u).sub == 2) = true ∧
    moved (.cpyTs fc) [0x3000, 0x8000, t, 0x20, 128, 128, 0, 0] (.hbm 0x8000) (has [0x31, 127, 4, 0]) = true := by decide +kernel

/-! ### Peers, guests' walks -/

theorem test_peer_cuts : let ev (wr bad : Bool) : Instr := .peerRequestArrival 9 2 (.access 0x80 wr 8 0 none bad) 0xAB 7 0
    let s := (shared.mapPkg fun p => { p with windows := [(0, ⟨9, 3, true, true, true, 1, 0⟩)] })
    let h := s.mapPkg fun p => { p with seqRun := some ⟨.genAdv 3 0 3 8, [0, 1, 2, 3], []⟩ }
    (s.windowFor 9 0x80 8 true).map (·.owner) = some 3 ∧ s.beforeCut 3 0x80 8 = false ∧ h.leaseFor 9 2 0x80 = none ∧ h.frozen 0 = false ∧
    (h.windowFor 9 0x80 8 false).map (·.owner) = some 3 ∧ h.beforeCut 3 0x80 8 = true ∧
    ran (exec (ev false false) h) (fun t => t.pkg.held == [(9, 2, .access 0x80 false 8 0 none false, 0xAB, 7)] && t.sent == h.sent && t.hbm == h.hbm) = true ∧
    ran (exec (ev true true) s) (fun t => t.sent == [.peerReply 9 7 0 []] && (t.hbm.gran 0x80).poison) = true := by decide +kernel
/-- Slot 1: stage 2 puts intermediate page 1 at 0x80010000 and page 5 at 0x80050000 (leaf `g`), in block 1, which slot `own` has; stage 1 has its
tables in page 1 and its leaf's frame in page 5. -/
def guestMap (g own : Nat) : State :=
  let s := dwords [(0x20000, 0x21001), (0x21000, 0x22001), (0x22000, 0x23001), (0x23008, 0x8001030F), (0x23028, g)] base
  let m := [(0x10000, 0x11001), (0x11000, 0x12001), (0x12000, 0x13001), (0x13008, 0x5030F)].foldl
    (fun m x => m.write false (tagOf 1 0) (cellsAt (0x80000000 + x.1) (leBytes 8 x.2))) s.hbm
  ({ s with hbm := m }.mapCtx 1 fun x => { x with s1Root := 0x10000, s2Root := 0x20000 }).mapPkg fun p => { p with owner := [(0, 0), (1, own)] }
def guestOut (g own : Nat) : Except (Bool × Nat × Nat) (Nat × Bool) :=
  match ((guestMap g own).walk 0 1 0 va0 true ⟨[], [], []⟩).1 with
  | .ok t => .ok (t.out va0, t.wr)
  | .error f => .error (f.s2, f.cause, f.addr)
theorem test_guest_walk : let s := guestMap 0x8005030F 1
    let e (a : Nat) : Nat := entryAt s 0 0 0 a
    let i (a : Nat) : Nat := entryAt s 0 1 0 (0x80000000 + a)
    (s.die 0).walkCache = [] ∧ (s.ctxOf 1).s2Root.toNat = 0x20000 ∧ (s.ctxOf 1).s1Root = 0x10000 ∧
    [(1, e 0x20000, 0x21000), (2, e 0x21000, 0x22000), (3, e 0x22000, 0x23000), (1, i 0x10000, 0x11000), (2, i 0x11000, 0x12000), (3, i 0x12000, 0x13000)].all (fun x =>
      bit x.2.1 0 && !(bit x.2.1 1) && bits x.2.1 2 6 == 0 && bits x.2.1 48 16 == 0 && bits x.2.1 8 40 * 256 == x.2.2 && x.2.2 % (if x.1 = 3 then 256 else 4096) == 0) = true ∧
    [0x20000, 0x21000, 0x22000, 0x23008, 0x23028].all (fun a => s.ownerFor 0 (a / 0x80000000) == 0 && !((walkerSees s 0 a).bad false 0 a 8) && s.coreOk (walkCore 0 a) 0 0 [] false (.hbm a) 0) = true ∧
    entries.all (fun a => s.ownerFor 0 ((0x80000000 + a) / 0x80000000) == 1 && !((walkerSees s 0 (0x80000000 + a)).bad false (tagOf 1 0) (0x80000000 + a) 8) &&
      s.coreOk (walkCore 0 (0x80000000 + a)) 1 0 [] false (.hbm (0x80000000 + a)) 0) = true ∧
    leafOk true 4 (e 0x23008) = true ∧ lfFrame (e 0x23008) = 0x80010000 ∧ lfMode (e 0x23008) = 0 ∧ lfHost (e 0x23008) = false ∧ bit (e 0x23008) 3 = true ∧ bit (e 0x23008) 8 = true ∧
    leafOk false 4 (i 0x13008) = true ∧ lfFrame (i 0x13008) = 0x50000 ∧ leafOk true 4 (e 0x23028) = true ∧
    (match guestOut 0x8005030F 1 with | .ok x => x == (0x80052345, true) | .error _ => false) = true ∧
    (match guestOut 0x80050307 1 with | .ok _ => false | .error f => f == (true, wPermission, 0x52345)) = true ∧
    (match guestOut 0x5030F 1 with | .ok _ => false | .error f => f == (true, wOwner, 0x52345)) = true ∧
    (match guestOut 0x8005030F 2 with | .ok _ => false | .error f => f == (true, wWalkError, 0x10000)) = true := by decide +kernel

/-! ### Launches, targets, trackers -/

/-- LAUNCH behind an access of its strand: it goes on, the packet is taken when the access has performed, and D then returns. -/
theorem test_launch_behind : let s := withS (core0.mapCtx 0 fun x => { x with heapLimit := 0x10000 }) [(1, 0x200)]
    let good := dwords [(0x200, w0 + 2 ^ 32), (0x208, 0x40), (0x210, 8 * 2 ^ 58), (0x218, 16)] s
    let f : FY := { fy with m := 0 }
    let w : State := { good with flight := [acc7], nextId := 8 }
    let l : Acc := { acc7 with id := 8, ord := 8, why := .launch 3, src := .hbm 0x200, dst := .none, n := 256, data := [], rsegs := [], wsegs := [] }
    let a : State := { good with flight := [l], nextId := 9 }
    let b : State := { good with flight := [acc7, l], nextId := 9 }
    let d : Acc := { l with done := true, data := leBytes 8 5 }
    w.performedTo 0 4 = false ∧ w.inTask 0 = false ∧ w.ready f.pr (opdRegs [f.a]) [f.d.dest] = true ∧
    ran (exec (.launch f) w) (fun t => t.flight.map (fun x => (x.why, x.src, x.n)) == [(.store, .none, 8), (.launch 3, .hbm 0x200, 256)] && pcOf t == 8 &&
      (t.strand 0).pend == [3] && (t.die 0).store == []) = true ∧
    a.accOf 8 = some l ∧ a.commitsAt l.src 256 = [] ∧ a.coreBad 0 0 0 [] l.src 256 = false ∧
    ran (exec (.memoryAccessArrival 8) a) (fun t => t.flight.map (fun x => (x.done, x.data)) == [(true, leBytes 8 0x8000100000000000)] && (t.storeEnt 0x80001000).st == .pending) = true ∧
    ran (exec (.memoryAccessArrival 8) b) (· == b) = true ∧
    (let x : State := { a with hbm := { a.hbm with side := [(11, ⟨0, false, true⟩)] } }
     x.coreBad 0 0 0 [] l.src 256 = true ∧ ran (exec (.memoryAccessArrival 8) x) (fun t => t.flight.map (fun x => (x.done, x.code)) == [(true, cUncorrectable)]) = true) ∧
    ran (exec (.accessResponseReturn 8) { a with flight := [d] }) (fun t => t.flight == [] && sc t 3 == 5) = true ∧
    ran (exec (.accessResponseReturn 8) { a with flight := [{ d with code := cUncorrectable }] }) (trapped cUncorrectable) = true ∧
    ran (exec (.launch f) (withS s [(1, 0xFF80)])) (trapped cBound) = true ∧ s.spadOf 0 = (0, 2 ^ 19 * 3) ∧
    ran (exec (.launch { f with m := 1 }) (withS s [(1, 2 ^ 19 * 3 - 128)])) (trapped cBound) = true ∧
    ran (exec (.launch { f with m := 1 }) (withS s [(1, 2 ^ 21)])) (trapped cBound) = true := by decide +kernel
/-- CFR with D = A leaves CFR_SEQ; TID of strand 3, alone in its group, is 3. -/
theorem test_task_names : let u := tasks [task 1, { task 2 with strand := some 0 }] 2
    let k := { (base.mapStrand 3 fun x => { x with st := .running }) with cur := 3, groups := [(0, { fetchGroup with strands := [3], level := 0 })] }
    u.ready ft.pr [] [ft.d.dest, ft.d.dest] = true ∧ ran (exec (.cfr { ft with a := .reg 3 }) u) (fun t => sc t 3 == 1) = true ∧ k.cur = 3 ∧ (k.groupOf 3).isSome = true ∧
    ran (exec (.tid { ft with m := 0 }) k) (fun t => ((t.strand 3).s (t.tagOfStrand 3) 3).toNat == 3 * 2 ^ 24) = true := by decide +kernel
/-- Targets: sync variable 8 of die 0 by 5, peg 2 by 3, bobbin 2 by 1. -/
def syncTarget : Nat := 2 ^ 62 + 5 * 2 ^ 48 + 8
def bobTarget : Nat := 3 * 2 ^ 62 + 2 ^ 48 + 2
/-- `ending` with two targets and the bobbin claimed twice and filled `k` times. -/
def endingTwo (w1 w2 k : Nat) (fail : Option TrapRec) : State :=
  let p := pkt [w0, 0x40, 8 * 2 ^ 58, 16, w1, w2]
  let s := (withBob (synced 64) ⟨0x100, 2, 4, 2, BitVec.ofNat 64 k, 0, 0⟩).mapCtx 0 fun x => { x with maskA := 1 }
  { s.mapDie 0 fun x => { x with store := [(0, { StoreEnt.init with st := .live, pkt := p, total := 1, next := 1, given := 1 })] } with
    groups := [(0, { fetchGroup with ref := 0x80000000, pkt := p, fail := fail })] }.mapStrand 0 fun x => { x with st := .halted }
theorem test_targets : let r : TrapRec := ⟨cOperand, 0, 0, 0, 0, 0, 0, 0, 0, 0⟩
    let v (t : State) : SyncVar := t.syncGet (.sram 0 8) 0
    let s := endingTwo syncTarget bobTarget 1 none
    pktTargets (pkt [w0, 0x40, 8 * 2 ^ 58, 16, syncTarget, bobTarget]) = [syncTarget, bobTarget] ∧ tgtType syncTarget = 1 ∧ tgtType bobTarget = 3 ∧ tgtInc syncTarget = 5 ∧
    s.syncLocate 192 0 0 8 = .sram 0 8 ∧ (s.syncWindow 192 0).1 = 64 ∧ s.syncOld 0 0 (.sram 0 8) = false ∧ s.syncBad (.sram 0 8) 0 = false ∧ s.oldAtDie 0 0 0 = false ∧
    s.frozen 0 = false ∧ s.objBad 0 0 true 2 = false ∧ targetKey s 0 syncTarget ≠ targetKey s 0 bobTarget ∧ targetKey s 0 syncTarget ≠ targetKey s 0 target ∧
    (s.group 0).any (fun g => s.canEnd 0 g) = true ∧
    ran (exec (.groupEnd 0) s) (fun t => v t == ⟨5, 0⟩ && bobOf t == ⟨0x100, 2, 4, 2, 2, 0, 0⟩) = true ∧
    ran (exec (.groupEnd 0) (endingTwo bobTarget target 2 none)) (fun t => bobOf t == ⟨0x100, 2, 4, 2, 2, 0, cOperand⟩ && pegOf t == ⟨3, 0, 0⟩) = true ∧
    ran (exec (.groupEnd 0) (endingTwo syncTarget bobTarget 1 (some r))) (fun t => v t == ⟨0, cOperand⟩ && bobOf t == ⟨0x100, 2, 4, 2, 1, 0, cOperand⟩) = true := by decide +kernel
/-- A full tracker whose least-counted entry has confidence 3; a limit reached by slot 2's entry, which slot 1 takes over or not. -/
theorem test_other_activations : let s (l : List Track) := base.mapPkg fun p => { p with mbanks := [(5, { MBank.init with track := l, mitig := [(1, 7), (2, 3)] })] }
    let tr (l : List Track) (p : State → Bool) : Bool := ran (exec (.rowActivation 5 77 1) (s l)) p
    tr ((List.range 16).map fun i => ⟨i, if i = 9 then 2 else 5, 0, 3⟩) (fun t => (t.mbank 5).track[9]? == some ⟨77, 3, 1, 1⟩) = true ∧
    tr ((List.range 16).map fun i => ⟨i, if i = 9 then 1023 else 2000, 0, 3⟩) (fun t => (t.mbank 5).track[9]? == some ⟨77, 0, 1, 1⟩ && (t.mbank 5).throttled == [1]) = true ∧
    tr [⟨77, 1023, 2, 2⟩] (fun t => (t.mbank 5).track == [⟨77, 0, 2, 1⟩] && Tbl.get 0 (t.mbank 5).mitig 2 == 4 && (t.mbank 5).throttled == [] &&
      (t.ctxOf 2).bwCharge == 32768) = true ∧
    tr [⟨77, 1023, 2, 1⟩] (fun t => (t.mbank 5).track == [⟨77, 0, 1, 1⟩] && Tbl.get 0 (t.mbank 5).mitig 1 == 8 && (t.mbank 5).throttled == [1]) = true ∧
    ran (exec (.rowActivation 5 77 1) ((s []).mapPkg fun p => { p with distLimit := 1 })) (fun t => (t.mbank 5).track == [⟨77, 0, 1, 1⟩]) = true := by decide +kernel

/-! ### SHAKE256 and Ed448 -/

/-- FIPS 202's example: SHAKE256 of no bytes. -/
theorem test_shake : (shake256 0 0).toNat =
    0xbec4b7b3ac2e294086b49a47491c82fcf692b5679d0105cb00f2c0d8ddc45dd72f76d56e64270cb5821bb862ea52cd3f24eb3e74eb3f3b23138da80b2bddb946 := by decide +kernel
/-- RFC 8032, section 7.4, "Blank": the signature of no bytes; and with its first bit changed. -/
def rfcKey : Nat := 0x806125e8afbe1afad16c0fe5f13d78d61b06c7469b7624f1ed7867e9805da70e8a1f0ea7852434a11d6ad46a61ec87e72cfd61b4599b44d75f
def rfcSig : Nat :=
  0x26652eff0858d9718c2663735af04911b6dbf4a013a13085dacdc7c59ab92d8504410bc08d5d925b342d1c5d6c003ef69d8ab1d428200dff8039fd * 2 ^ 432 +
    0x1ba2d09bc528787dd4dd227afdf28182624f033f232b1f591ad423d84f07d2343e844a50fb2dae76f9880d3c021f2557e4bbf6373a53
theorem test_ed448 : ed448 rfcKey rfcSig 0 0 = true ∧ ed448 rfcKey (rfcSig - 1) 0 0 = false := by decide +kernel

end Sys2Proof.Tests
end

section
/-! The scalar instructions that divide, compare, select and act on predicates (R302, R303, R306 to R308). -/
namespace Sys2Proof.Machine

variable {s : State} {i : Instr} {f : FA}

/-! ### Issue of a Form A instruction whose value always exists -/

/-- A Form A instruction that computes its scalar from A and B alone, and never traps, writes that value. -/
theorem exec_alu_ok (g : W64 → W64 → W64) (hi : exec i s = s.alu i f false fun a b _ _ => .ok (g a b))
    (h : s.ready f.pr (opdRegs [f.a, f.b, f.c]) [f.d.dest] = true) :
    exec i s = .next (s.wrote i f.d.dest (g (s.val f.a) (s.val f.b))) :=
  hi.trans (alu_ready false (by simpa using h) rfl)

/-- MOD compared as a bit vector and as a number. -/
theorem toNat_eq_zero_iff_eq_zero (m : BitVec 4) : m.toNat = 0 ↔ m = 0 := BitVec.toNat_inj (y := 0)

/-! ### Quotients and remainders (R302, R303) -/

/-- The signed quotient truncates toward zero; the one quotient that 64 bits do not hold wraps. -/
theorem sdiv_eq_ofInt_tdiv (a b : W64) : a.sdiv b = BitVec.ofInt 64 (a.toInt.tdiv b.toInt) :=
  BitVec.eq_of_toInt_eq (by rw [BitVec.toInt_sdiv, BitVec.toInt_ofInt])

/-- The signed remainder takes the sign of the dividend. -/
theorem srem_eq_ofInt_tmod (a b : W64) : a.srem b = BitVec.ofInt 64 (a.toInt.tmod b.toInt) := by
  rw [← BitVec.toInt_srem, BitVec.ofInt_toInt]

theorem divVal_eq (m : BitVec 4) (a b : W64) : divVal m.toNat a b =
    if b = 0 then BitVec.allOnes 64 else if m = 0 then BitVec.ofInt 64 (a.toInt.tdiv b.toInt)
      else BitVec.ofNat 64 (a.toNat / b.toNat) := by
  simp only [divVal, toNat_eq_zero_iff_eq_zero, sdiv_eq_ofInt_tdiv, BitVec.udiv_def]

theorem remVal_eq (m : BitVec 4) (a b : W64) : remVal m.toNat a b =
    if b = 0 then a else if m = 0 then BitVec.ofInt 64 (a.toInt.tmod b.toInt) else BitVec.ofNat 64 (a.toNat % b.toNat) := by
  simp only [remVal, toNat_eq_zero_iff_eq_zero, srem_eq_ofInt_tmod, BitVec.umod_def]

theorem exec_div (h : s.ready f.pr (opdRegs [f.a, f.b, f.c]) [f.d.dest] = true) :
    exec (.div f) s = .next (s.wrote (.div f) f.d.dest (divVal f.m.toNat (s.val f.a) (s.val f.b))) :=
  exec_alu_ok (divVal f.m.toNat) rfl h

theorem exec_rem (h : s.ready f.pr (opdRegs [f.a, f.b, f.c]) [f.d.dest] = true) :
    exec (.rem f) s = .next (s.wrote (.rem f) f.d.dest (remVal f.m.toNat (s.val f.a) (s.val f.b))) :=
  exec_alu_ok (remVal f.m.toNat) rfl h

/-- R303's overflow case, -2^63 by -1: the quotient is the dividend again and the remainder is 0. -/
theorem divVal_overflow : divVal 0 (BitVec.ofInt 64 (-2 ^ 63)) (BitVec.ofInt 64 (-1)) = BitVec.ofInt 64 (-2 ^ 63) := by decide

theorem remVal_overflow : remVal 0 (BitVec.ofInt 64 (-2 ^ 63)) (BitVec.ofInt 64 (-1)) = 0 := by decide

/-- Settles O2: the values that the model computes are those of R302 and R303's table, and the issue of a ready DIV or REM has no
other outcome than to write them. -/
theorem divisionNeverTraps : Obligations.DivisionNeverTraps := by
  intro s f h a b
  refine ⟨?quotient, ?remainder, fun hm ha hb => ?overflow⟩
  case quotient => rw [← divVal_eq]; exact exec_div h
  case remainder => rw [← remVal_eq]; exact exec_rem h
  case overflow =>
    have hm0 : f.m.toNat = 0 := (toNat_eq_zero_iff_eq_zero f.m).2 hm
    have hdiv : divVal f.m.toNat a b = a := by rw [hm0, ha, hb]; exact divVal_overflow
    have hrem : remVal f.m.toNat a b = 0 := by rw [hm0, ha, hb]; exact remVal_overflow
    exact ⟨hdiv ▸ exec_div h, hrem ▸ exec_rem h⟩

/-! ### Minimum and maximum (R302) -/

/-- The order that MOD chooses: signed for 0, unsigned otherwise. -/
def leBy (m : BitVec 4) (a b : W64) : Prop := if m = 0 then a.toInt ≤ b.toInt else a.toNat ≤ b.toNat

/-- The strict comparison that MIN and MAX make is the converse of that order. -/
theorem lessBy_iff_not_leBy (m : BitVec 4) (a b : W64) :
    (if m.toNat = 0 then b.slt a else b.ult a) = true ↔ ¬leBy m a b := by
  simp only [toNat_eq_zero_iff_eq_zero, leBy]
  split
  · rw [BitVec.slt_iff_toInt_lt, Int.not_le]
  · rw [BitVec.ult_iff_toNat_lt, Nat.not_le]

theorem leBy_antisymm {m : BitVec 4} {a b : W64} (hab : leBy m a b) (hba : leBy m b a) : a = b := by
  by_cases hm : m = 0
  · simp only [leBy, if_pos hm] at hab hba
    exact BitVec.eq_of_toInt_eq (Int.le_antisymm hab hba)
  · simp only [leBy, if_neg hm] at hab hba
    exact BitVec.eq_of_toNat_eq (Nat.le_antisymm hab hba)

theorem leBy_total (m : BitVec 4) (a b : W64) : leBy m a b ∨ leBy m b a := by
  unfold leBy
  split
  · exact Int.le_total ..
  · exact Nat.le_total ..

theorem minVal_of_leBy {m : BitVec 4} {a b : W64} (h : leBy m a b) : minVal m.toNat a b = a :=
  if_neg fun hlt => (lessBy_iff_not_leBy m a b).1 hlt h

theorem minVal_of_not_leBy {m : BitVec 4} {a b : W64} (h : ¬leBy m a b) : minVal m.toNat a b = b :=
  if_pos ((lessBy_iff_not_leBy m a b).2 h)

/-- Equal operands are the one case in which MAX's strict comparison fails although A is at most B. -/
theorem maxVal_of_leBy {m : BitVec 4} {a b : W64} (h : leBy m a b) : maxVal m.toNat a b = b := by
  by_cases hba : leBy m b a
  · have : a = b := leBy_antisymm h hba
    simp only [maxVal, this, ite_self]
  · exact if_pos ((lessBy_iff_not_leBy m b a).2 hba)

theorem maxVal_of_not_leBy {m : BitVec 4} {a b : W64} (h : ¬leBy m a b) : maxVal m.toNat a b = a :=
  if_neg fun hlt => (lessBy_iff_not_leBy m b a).1 hlt ((leBy_total m a b).resolve_left h)

theorem exec_min (h : s.ready f.pr (opdRegs [f.a, f.b, f.c]) [f.d.dest] = true) :
    exec (.min f) s = .next (s.wrote (.min f) f.d.dest (minVal f.m.toNat (s.val f.a) (s.val f.b))) :=
  exec_alu_ok (minVal f.m.toNat) rfl h

theorem exec_max (h : s.ready f.pr (opdRegs [f.a, f.b, f.c]) [f.d.dest] = true) :
    exec (.max f) s = .next (s.wrote (.max f) f.d.dest (maxVal f.m.toNat (s.val f.a) (s.val f.b))) :=
  exec_alu_ok (maxVal f.m.toNat) rfl h

/-! ### Condition codes and the comparisons (R282, R306) -/

/-- The model's test of a condition code decides the condition that R282 gives it. -/
theorem condition_iff (n : Nat) (a b : W64) : condition n a b = true ↔ conditionHolds n a b := by
  have not_slt (x y : W64) : (!x.slt y) = true ↔ y.toInt ≤ x.toInt := by
    rw [Bool.not_eq_true', ← Bool.not_eq_true, BitVec.slt_iff_toInt_lt, Int.not_lt]
  have not_ult (x y : W64) : (!x.ult y) = true ↔ y.toNat ≤ x.toNat := by
    rw [Bool.not_eq_true', ← Bool.not_eq_true, BitVec.ult_iff_toNat_lt, Nat.not_lt]
  match n with
  | 0 => exact iff_of_true rfl trivial
  | 1 => exact beq_iff_eq
  | 2 => exact bne_iff_ne
  | 3 => exact BitVec.slt_iff_toInt_lt
  | 4 => exact not_slt a b
  | 5 => exact BitVec.ult_iff_toNat_lt
  | 6 => exact not_ult a b
  | 7 => exact not_slt b a
  | 8 => exact BitVec.slt_iff_toInt_lt
  | 9 => exact not_ult b a
  | _ + 10 => exact BitVec.ult_iff_toNat_lt

theorem condition_of_holds {n : Nat} {a b : W64} (h : conditionHolds n a b) : condition n a b = true := (condition_iff n a b).2 h

theorem condition_of_not_holds {n : Nat} {a b : W64} (h : ¬conditionHolds n a b) : condition n a b = false :=
  Bool.eq_false_iff.2 fun hc => h ((condition_iff n a b).1 hc)

theorem exec_cmps (h : s.ready f.pr (opdRegs [f.a, f.b, f.c]) [f.d.dest] = true) :
    exec (.cmps f) s = .next (s.wrote (.cmps f) f.d.dest (if condition f.m.toNat (s.val f.a) (s.val f.b) then 1 else 0)) :=
  exec_alu_ok (fun a b => if condition f.m.toNat a b then 1 else 0) rfl h

theorem predNo_of_lt {o : Opd} (h : o.number < 8) : predNo o = .ok o.number := if_pos h

theorem predNo_of_ge {o : Opd} (h : 8 ≤ o.number) : predNo o = .error ⟨cOperand, 0, 0⟩ := if_neg (Nat.not_lt.2 h)

theorem exec_cmp (h : s.ready f.pr (opdRegs [f.a, f.b]) [pendP f.d.number] = true) (hd : f.d.number < 8) :
    exec (.cmp f) s = .next ((s.setP s.cur f.d.number
      (if condition f.m.toNat (s.val f.a) (s.val f.b) then BitVec.allOnes 64 else 0)).adv s.cur (.cmp f)) := by
  change execCmp f s = _
  simp only [execCmp, predNo_of_lt hd]
  exact issue_done h

theorem exec_cmp_trap (h : s.ready f.pr (opdRegs [f.a, f.b]) [pendP f.d.number] = true) (hd : 8 ≤ f.d.number) :
    exec (.cmp f) s = .next (s.trapNow s.cur (.cmp f) ⟨cOperand, 0, 0⟩) := by
  change execCmp f s = _
  simp only [execCmp, predNo_of_ge hd, issue_trap h]

/-! ### Selection (R307) -/

theorem bit_toNat {w : Nat} (x : BitVec w) (k : Nat) : bit x.toNat k = x.getLsbD k := by
  rw [← BitVec.testBit_toNat, Nat.testBit_eq_decide_div_mod_eq]; rfl

theorem exec_sel (h : s.ready f.pr (pendP (f.m.toNat % 8) :: opdRegs [f.a, f.b]) [f.d.dest] = true) :
    exec (.sel f) s = .next (s.wrote (.sel f) f.d.dest
      (if ((s.getP s.cur (f.m.toNat % 8)).getLsbD 0 ^^ f.m.getLsbD 3) = true then s.val f.a else s.val f.b)) := by
  change execSel f s = _
  simp only [execSel, issue_done h, bit_toNat, State.wrote, State.val, Bool.bne_eq_xor]

theorem comparisonsSelect_holds : comparisonsSelect := by
  intro s f a b le
  refine ⟨fun h => ⟨fun hle => ?atMost, fun hle => ?above, fun hc => ?sets, fun hc => ?clears⟩,
    fun h hd => ⟨fun hc => ?setsPred, fun hc => ?clearsPred⟩, exec_cmp_trap, exec_sel⟩
  case atMost => exact ⟨minVal_of_leBy hle ▸ exec_min h, maxVal_of_leBy hle ▸ exec_max h⟩
  case above => exact ⟨minVal_of_not_leBy hle ▸ exec_min h, maxVal_of_not_leBy hle ▸ exec_max h⟩
  case sets => rw [exec_cmps h, condition_of_holds hc, if_pos rfl]
  case clears => rw [exec_cmps h, condition_of_not_holds hc, if_neg Bool.false_ne_true]
  case setsPred => rw [exec_cmp h hd, condition_of_holds hc, if_pos rfl]
  case clearsPred => rw [exec_cmp h hd, condition_of_not_holds hc, if_neg Bool.false_ne_true]

/-! ### Predicates (R308) -/

section plog
variable (h : s.ready f.pr (pendP f.a.number :: if f.m.toNat = 4 then [] else [pendP f.b.number]) [pendP f.d.number] = true)
include h

/-- PLOG on fields that name predicates; the complement (MOD 4) has no B. -/
theorem exec_plog (hd : f.d.number < 8) (ha : f.a.number < 8) (hb : f.m.toNat = 4 ∨ f.b.number < 8) :
    exec (.plog f) s = .next ((s.setP s.cur f.d.number
      (plogVal f.m.toNat (s.getP s.cur f.a.number) (s.getP s.cur f.b.number))).adv s.cur (.plog f)) := by
  change execPlog f s = _
  by_cases one : f.m.toNat = 4
  · simp only [one, if_true] at h
    simp only [execPlog, one, beq_self_eq_true, if_true, predNo_of_lt hd, predNo_of_lt ha, issue_done h, plogVal]
  · simp only [one, if_false] at h
    simp only [execPlog, beq_eq_false_iff_ne.2 one, Bool.false_eq_true, if_false, predNo_of_lt hd, predNo_of_lt ha,
      predNo_of_lt (hb.resolve_left one), issue_done h]

theorem exec_plog_trap (hno : ¬(f.d.number < 8 ∧ f.a.number < 8 ∧ (f.m.toNat = 4 ∨ f.b.number < 8))) :
    exec (.plog f) s = .next (s.trapNow s.cur (.plog f) ⟨cOperand, 0, 0⟩) := by
  change execPlog f s = _
  have hsrc : s.ready f.pr (pendP f.a.number :: if f.m.toNat == 4 then [] else [pendP f.b.number]) [pendP f.d.number] = true := by
    simpa only [beq_iff_eq] using h
  rcases Nat.lt_or_ge f.d.number 8 with hd | hd
  · rcases Nat.lt_or_ge f.a.number 8 with ha | ha
    · have one : ¬f.m.toNat = 4 := fun one => hno ⟨hd, ha, .inl one⟩
      have hb : 8 ≤ f.b.number := Nat.not_lt.1 fun hb => hno ⟨hd, ha, .inr hb⟩
      simp only [execPlog, predNo_of_lt hd, predNo_of_lt ha, beq_eq_false_iff_ne.2 one, Bool.false_eq_true, if_false,
        predNo_of_ge hb]
      exact issue_trap (by simpa only [one, if_false] using h)
    · simp only [execPlog, predNo_of_lt hd, predNo_of_ge ha]
      exact issue_trap hsrc
  · simp only [execPlog, predNo_of_ge hd]
    exact issue_trap hsrc
end plog

/-- MOVP with MOD 0 copies a predicate into a scalar. -/
theorem exec_movp_toScalar (hm : f.m = 0) (h : s.ready f.pr [pendP f.a.number] [f.d.dest] = true) (ha : f.a.number < 8) :
    exec (.movp f) s = .next (s.wrote (.movp f) f.d.dest (s.getP s.cur f.a.number)) := by
  change execMovp f s = _
  simp only [execMovp, if_pos hm, predNo_of_lt ha, issue_done h, State.wrote]

theorem exec_movp_toScalar_trap (hm : f.m = 0) (h : s.ready f.pr [pendP f.a.number] [f.d.dest] = true) (ha : 8 ≤ f.a.number) :
    exec (.movp f) s = .next (s.trapNow s.cur (.movp f) ⟨cOperand, 0, 0⟩) := by
  change execMovp f s = _
  simp only [execMovp, if_pos hm, predNo_of_ge ha, issue_trap h]

/-- MOVP with another MOD copies an operand into a predicate. -/
theorem exec_movp_toPred (hm : f.m ≠ 0) (h : s.ready f.pr (opdRegs [f.a]) [pendP f.d.number] = true) (hd : f.d.number < 8) :
    exec (.movp f) s = .next ((s.setP s.cur f.d.number (s.val f.a)).adv s.cur (.movp f)) := by
  change execMovp f s = _
  simp only [execMovp, if_neg hm, predNo_of_lt hd, issue_done h, State.val]

theorem exec_movp_toPred_trap (hm : f.m ≠ 0) (h : s.ready f.pr (opdRegs [f.a]) [pendP f.d.number] = true) (hd : 8 ≤ f.d.number) :
    exec (.movp f) s = .next (s.trapNow s.cur (.movp f) ⟨cOperand, 0, 0⟩) := by
  change execMovp f s = _
  simp only [execMovp, if_neg hm, predNo_of_ge hd, issue_trap h]

theorem predicateLogic_holds : predicateLogic := by
  intro s f one pa pb v
  refine ⟨fun h => ⟨exec_plog h, exec_plog_trap h⟩,
    fun hm h => ⟨exec_movp_toScalar hm h, exec_movp_toScalar_trap hm h⟩,
    fun hm h => ⟨exec_movp_toPred hm h, exec_movp_toPred_trap hm h⟩⟩

/-- Settles O5: one law per instruction and outcome, with the model's condition test read as R282's table. -/
theorem comparisonsAndPredicates : Obligations.ComparisonsAndPredicates := ⟨comparisonsSelect_holds, predicateLogic_holds⟩

end Sys2Proof.Machine
end
